-- ==== Sys2Proof/Word.lean ====
section
/-! DEFINITION. The word types of the SC-C1: 32-bit entries, bytes, 64-lane masks, 72-bit virtual
addresses, and the sorted key-to-value lists in which sparse state is held. -/

namespace Sys2Proof

/-- One 32-bit entry of one lane (R142). -/
abbrev Word := BitVec 32
/-- One byte of any memory (R5). -/
abbrev Byte := BitVec 8
/-- One bit per lane, bit `l` for lane `l`; WIDTH is 64 on the SC-C1 (R44). -/
abbrev Mask := BitVec 64
/-- A 72-bit virtual address or address base (R13, R204). -/
abbrev VA := BitVec 72
/-- A 64-bit value: tick, counter, entry pair (R142). -/
abbrev DWord := BitVec 64
/-- A sparse table: (key, value) pairs with strictly rising keys. -/
abbrev KMap (α : Type) := List (Nat × α)

end Sys2Proof
end

