-- ==== Sys2Proof/Config.lean ====
section
/-! DEFINITION. What the manual leaves to the implementation or leaves open: opaque constants, so that no proof can
see what they are. -/

namespace Sys2Proof

/-- The functions of R239 whose result is bounded and not fixed. -/
inductive SpecialFn where
  | rcp | rsq | exp2 | log2 | sin | cos | tanh
deriving DecidableEq, Repr

/-- The code an SC-C1 returns for a special function where R239 gives only a bound (log 7). The model takes it only
when it lies within the bound, so a claim holds for every implementation within R239. "The same code for the same
input on every run, core and clock" (R239). -/
opaque Config.specialPick : SpecialFn → Word → Word

/-- A free value: the n-th value that the manual does not fix (log 6). -/
opaque Config.freeValue : Nat → BitVec 64

/-- What a byte written under one key reads as under another key (R359): ciphertext, key it was written under, key it
is read under, physical address (log 3). -/
opaque Config.garble : Byte → Nat → Nat → Nat → Byte

/-- What the calibration record of a cluster gives for Fmax at a rail voltage in mV, in MHz over 2.4 GHz: no table falls
below that (R42, R425). -/
opaque Config.calOver : Nat → Nat → Nat
/-- Fmax in MHz of a cluster at a rail voltage in mV of 500 and more (R425). -/
def Config.calFmax (c v : Nat) : Nat := 2400 + Config.calOver c v
/-- CE of a cluster's calibration record, in pF (R426). -/
opaque Config.calCE : Nat → Nat
/-- LK of a cluster's calibration record, in mW per V (R426). -/
opaque Config.calLK : Nat → Nat
/-- A cluster's power allocation in mW, of the module's allocation in mW (R426, R429). -/
opaque Config.allocation : Nat → Nat → Nat
/-- CURBUDGET, the firmware's own choice for a target (R426): cluster and mV. -/
opaque Config.budget : Nat → Nat → Word
/-- Whether a flash image's ML-DSA-65 signature verifies (R443): region and image bytes. -/
opaque Config.imageVerifies : Nat → List Byte → Bool
/-- The VERSION of a steward or innkeeper image, whose layout is not given (R443): region and image bytes. -/
opaque Config.imageVersion : Nat → List Byte → Word
/-- The module ID, digest of the identity key (R445). -/
opaque Config.moduleId : List Byte
/-- The ML-DSA-65 signature of an attestation report (R446). -/
opaque Config.signReport : List Byte → List Byte
/-- The SHAKE256 digest of the image with which the module runs where flash holds none (R446, log 4), by region. -/
opaque Config.imageDigest : Nat → List Byte
/-- Whether the host's root port supports an AtomicOp, by FetchAdd 0, Swap 1, CAS 2 and width in bytes (R265); the root port
of module m's host, by those numbers after 3 × (m + 1). -/
opaque Config.hostAtomic : Nat → Nat → Bool
/-- Where the block header of a save image holds the records of O0 to O31 (R343): its layout is open (log 9). -/
opaque Config.recordsAt : Nat
/-- Which of its cluster's two couriers the hardware gives a copy word, by the number of its copies' group (R273). -/
opaque Config.courier : Nat → Bool
/-- Value read from a byte homed in another module's memory, where no rule of this module fixes it (R111): address,
tick and draw number (log 6). -/
opaque Config.remoteByte : Nat → DWord → Nat → Byte
/-- What the host has put into a byte of its own memory since the last write posted there (R111): address, tick and draw
number; none where it has left it (log 6). -/
opaque Config.hostByte : Nat → DWord → Nat → Option Byte

end Sys2Proof
end

