-- ==== Sys2Proof/Syntax.lean ====
section
/-! DEFINITION. The instruction words and the steps of the SC-C1: one constructor of `Instr` for each row of the
opcode table. A word's constructor carries the decoded fields of R159; an event's or command's constructor carries
what the manual leaves to the outside or to the implementation. An event with no argument acts on the unit (wave,
producer, queue, cluster, port, grid, command slot ...) that the turn names, held in the state.
-/

namespace Sys2Proof

/-- The element formats, in the order of their codes (R138). -/
inductive Fmt where
  | u32 | i32 | f32 | f16 | bf16 | e4m3 | e5m2 | e3m2 | e2m3 | e2m1 | i8 | u8 | u64 | i64
deriving DecidableEq, Repr

/-- The specials, in the order of their K indices (R162). -/
inductive Special where
  | zero | lane | quad | wave | nwave | width | tidx | tidy | tidz | bidx | bidy | bidz | gblk
deriving DecidableEq, Repr

/-- An operand field that names something: the levels of R20 in wave words, those of R163 in sequencer words. -/
inductive Opd where
  | h (i : Fin 8) | n (i : Fin 32) | m (i : Fin 512) | w (i : Fin 128) | s (i : Fin 512)
  | k (x : Special) | lit (v : BitVec 9)
  | q (i : Fin 8) | o (i : Fin 32) | t (i : Fin 64)
deriving DecidableEq, Repr

/-- The GUARD field: predicate index, negated or not (R23). -/
structure Guard where
  neg : Bool
  p : Fin 8
deriving DecidableEq, Repr

/-- Which source KEEP copies (R26). -/
inductive KeepSel where
  | a | b | c
deriving DecidableEq, Repr

/-- The AUX field in one of the layouts of R168. -/
inductive Aux where
  | z
  | i (imm : BitVec 32) (brk : Bool)
  | b (tgt join : BitVec 23)
  | m (base : Fin 8) (imm : BitVec 32) (xp : Bool) (order : BitVec 3) (sub : BitVec 7)
  | s (sh : BitVec 8) (sn : BitVec 32) (sub : BitVec 6)
  | p (tt : BitVec 4) (pb pa pd : Fin 8)
  | g (reg : BitVec 12)
  | f (sfmt : Fmt)
  | v (vs : BitVec 4)
  | q (tgt sub : BitVec 23)
  | x (bits : BitVec 46)
deriving DecidableEq, Repr

/-- The fields of one instruction word other than OP and FN (R159). An absent operand field is `none`, a reserved
TYPE is `u32` (code 0). -/
structure Body where
  guard : Guard
  d : Option Opd
  a : Option Opd
  b : Option Opd
  c : Option Opd
  keep : Option (KeepSel × Fin 8)
  eb : BitVec 3
  ty : Fmt
  md : BitVec 4
  aux : Aux
deriving DecidableEq, Repr

/-- A wave's place: die, cluster on the die, core in the cluster, bench in the core, lodging slot (R44). -/
structure Place where
  die : Nat
  cl : Nat
  core : Nat
  bench : Nat
  slot : Nat
deriving DecidableEq, Repr

/-- Where the dispatcher puts one block: its core, and each wave's bench, lodging slot and private slot (R35, R64). -/
structure BlockSite where
  core : Nat
  waves : List (Nat × Nat × Nat)
deriving DecidableEq, Repr

/-- The dispatcher's choice for one gang (R325): cluster, tree slot, one site for each block. -/
structure Placement where
  die : Nat
  cl : Nat
  tree : Nat
  blocks : List BlockSite
deriving DecidableEq, Repr

/-- A steward core's access (R119): physical address, and the bytes stored or the size loaded. -/
inductive BusAccess where
  | load (pa size : Nat)
  | store (pa : Nat) (bytes : List Byte)
deriving DecidableEq, Repr

/-- Operations of atomics, REDS and VSRED (R263, R275). -/
inductive AtomOp where
  | add | fadd | min | max | and | or | xor | xchg | cas | incw
deriving DecidableEq, Repr

/-- A request of another module (R111, R117): a load, an atomic or reduction with its operation, TYPE, width and operands,
a ticket, or word that the commit of a staged share has failed elsewhere (R115). -/
inductive ApauxReq where
  | load (pa size : Nat)
  | atom (pa : Nat) (op : AtomOp) (ty : Fmt) (wide : Bool) (b c : DWord)
  | ticket
  | discard (cid : Nat)
deriving DecidableEq, Repr

/-- An engine that stops under a halt line (R360, R361): a courier is one of the two of its cluster (R31). -/
inductive Engine where
  | wave (w : Nat) | sequencer (b : Nat) | courier (die cl k : Nat) | porter (die cl : Nat) | matrix (core : Nat)
  | lane (l : Nat)
deriving DecidableEq, Repr

/-- A register that a REGISTER_WRITE names (R6): a register of a cluster's power block, of the module registers or of
the endpoint, by its offset. -/
inductive RegAddr where
  | power (cl off : Nat)
  | module (off : Nat)
  | endpoint (off : Nat)
deriving DecidableEq, Repr

/-- One constructor for each row of the opcode table: the words of R172 to R176, then the indivisible events and
management commands. -/
inductive Instr where
  | nop (x : Body)
  | bra (x : Body)
  | brd (x : Body)
  | join (x : Body)
  | call (x : Body)
  | ret (x : Body)
  | jmpx (x : Body)
  | exit (x : Body)
  | seam (x : Body)
  | yield (x : Body)
  | voteAny (x : Body)
  | voteAll (x : Body)
  | voteBal (x : Body)
  | voteEq (x : Body)
  | iadd (x : Body)
  | isub (x : Body)
  | iaddc (x : Body)
  | imul (x : Body)
  | imulh (x : Body)
  | imad (x : Body)
  | imin (x : Body)
  | imax (x : Body)
  | iabs (x : Body)
  | iclamp (x : Body)
  | and (x : Body)
  | or (x : Body)
  | xor (x : Body)
  | andn (x : Body)
  | shl (x : Body)
  | shr (x : Body)
  | sar (x : Body)
  | rot (x : Body)
  | bfx (x : Body)
  | bfi (x : Body)
  | popc (x : Body)
  | clz (x : Body)
  | brev (x : Body)
  | mov (x : Body)
  | movw (x : Body)
  | movq (x : Body)
  | ldi (x : Body)
  | lda (x : Body)
  | aadd (x : Body)
  | amov (x : Body)
  | pset (x : Body)
  | plog (x : Body)
  | pmovPv (x : Body)
  | pmovVp (x : Body)
  | pmovSave (x : Body)
  | pmovLoad (x : Body)
  | sel (x : Body)
  | prisel (x : Body)
  | xlXor (x : Body)
  | xlUp (x : Body)
  | xlDown (x : Body)
  | xlIdx (x : Body)
  | qxH (x : Body)
  | qxV (x : Body)
  | qxD (x : Body)
  | rstep (x : Body)
  | red (x : Body)
  | scan (x : Body)
  | srd (x : Body)
  | swr (x : Body)
  | fadd (x : Body)
  | fsub (x : Body)
  | fmul (x : Body)
  | ffma (x : Body)
  | fmin (x : Body)
  | fmax (x : Body)
  | fminProp (x : Body)
  | fmaxProp (x : Body)
  | fcmp (x : Body)
  | fclass (x : Body)
  | frnd (x : Body)
  | fscale (x : Body)
  | hadd2 (x : Body)
  | hmul2 (x : Body)
  | hfma2 (x : Body)
  | dot4 (x : Body)
  | idot4 (x : Body)
  | cvt (x : Body)
  | cvts (x : Body)
  | pack (x : Body)
  | unpk (x : Body)
  | bscale (x : Body)
  | qnt (x : Body)
  | dqnt (x : Body)
  | rcp (x : Body)
  | rsq (x : Body)
  | sqrt (x : Body)
  | exp2 (x : Body)
  | log2 (x : Body)
  | sin (x : Body)
  | cos (x : Body)
  | tanh (x : Body)
  | wupd (x : Body)
  | wmrg (x : Body)
  | wfin (x : Body)
  | rng (x : Body)
  | ld (x : Body)
  | ldTrk (x : Body)
  | lds (x : Body)
  | ldt (x : Body)
  | pref (x : Body)
  | st (x : Body)
  | sts (x : Body)
  | commitBlk (x : Body)
  | commitGang (x : Body)
  | commitDev (x : Body)
  | commitSys (x : Body)
  | commitChkBlk (x : Body)
  | commitChkGangDev (x : Body)
  | commitChkSys (x : Body)
  | abortWave (x : Body)
  | abortBlk (x : Body)
  | abortGang (x : Body)
  | fence (x : Body)
  | atomAdd (x : Body)
  | atomFadd (x : Body)
  | atomMin (x : Body)
  | atomMax (x : Body)
  | atomAnd (x : Body)
  | atomOr (x : Body)
  | atomXor (x : Body)
  | atomXchg (x : Body)
  | atomCas (x : Body)
  | atomIncw (x : Body)
  | atomdAdd (x : Body)
  | atomdFadd (x : Body)
  | atomdMin (x : Body)
  | atomdMax (x : Body)
  | atomdAnd (x : Body)
  | atomdOr (x : Body)
  | atomdXor (x : Body)
  | atomdXchg (x : Body)
  | atomdCas (x : Body)
  | atomdIncw (x : Body)
  | redsAdd (x : Body)
  | redsFadd (x : Body)
  | redsMin (x : Body)
  | redsMax (x : Body)
  | redsAnd (x : Body)
  | redsOr (x : Body)
  | redsXor (x : Body)
  | dphaseOpen (x : Body)
  | dphaseClose (x : Body)
  | wcnt (x : Body)
  | cpyw (x : Body)
  | bara (x : Body)
  | barw (x : Body)
  | bars (x : Body)
  | gbar (x : Body)
  | xbar (x : Body)
  | cpy (x : Body)
  | cpyq (x : Body)
  | vsred (x : Body)
  | vsrd (x : Body)
  | vscl (x : Body)
  | mres (x : Body)
  | mrel (x : Body)
  | mld (x : Body)
  | mma (x : Body)
  | mza (x : Body)
  | mpred (x : Body)
  | msig (x : Body)
  | mwait (x : Body)
  | mloopDec (x : Body)
  | mloopJmp (x : Body)
  | mloopSet (x : Body)
  | mloopAdd (x : Body)
  | mst (x : Body)
  | mend (x : Body)
  | obst (x : Body)
  | acrd (x : Body)
  | trap (x : Body)
  | rtt (x : Body)
  | halt (x : Body)
  | icinv (x : Body)
  | sleept (x : Body)
  | wpset (x : Body)
  | wpclr (x : Body)
  | wprd (x : Body)
  | hrd (x : Body)
  | hwr (x : Body)
  | hstep (x : Body)
  | hrun (x : Body)
  | hstat (x : Body)
  | dbmw (x : Body)
  | dbmr (x : Body)
  | rmark (x : Body)
  /-- The condition of a waiting slot holds and the wave proceeds (R330). -/
  | seamWaitEnd (w sl : Nat)
  /-- A free seat goes to the next ready unseated wave at the refill pointer (R332). -/
  | seatGrant (w seat : Nat)
  /-- The SLEEPT hold ends once A ticks have passed (R301). -/
  | sleeptExpiry (w sl : Nat)
  /-- A stepped seam whose wait lasts 65,536 ticks returns WAITS (R312). -/
  | hstepWaitTimeout (w sl : Nat)
  /-- A drowsy M bank wakes before an access (R432). -/
  | drowsyBankWake (bench bank : Nat)
  /-- A home module stages its share of a COMMIT.SYS carry and acknowledges it (R114). -/
  | sysStageReceive (src cid : Nat) (share : List (Nat × Byte))
  /-- A home applies its staged share at one point of its device order (R114). -/
  | sysApplyReceive (src cid : Nat)
  /-- Another module applies its share of a COMMIT.DEV carry (R113). -/
  | remoteCarryShare (src : Nat) (share : List (Nat × Byte))
  /-- A steward core's load or store acts at the byte's home (R119). -/
  | stewardAccess (core ctx : Nat) (x : BusAccess)
  /-- A host posted write enters the device order at its home (R120). -/
  | hostPostedWrite (bar off : Nat) (bytes : List Byte)
  /-- A host read is served after earlier posted writes (R120). -/
  | hostRead (bar off size : Nat)
  /-- A 4-byte store to a wake page forms a wake for its queue (R368). -/
  | wakeStore (q ctx : Nat) (v : Word)
  /-- The dispatcher reserves and commits resources for the head gang (R325). -/
  | gangPlace (g : Nat) (pl : Placement)
  /-- A saved gang is placed again and its image written back (R339). -/
  | gangRestore (g : Nat) (pl : Placement)
  /-- A hot gang is moved to a cooler cluster (R341). -/
  | castling (g : Nat) (pl : Placement)
  /-- The SSD write of a lodging body completes, or fails (R373). -/
  | pageoutComplete (q : Nat) (ok : Bool)
  /-- The SSD read of a lodging body completes, or fails (R373). -/
  | pageinComplete (q : Nat) (ok : Bool)
  /-- An engine stops at a boundary under the halt line and writes a stop record (R360). -/
  | engineStop (ctx : Nat) (e : Engine)
  /-- An uncorrectable soft error raises ECCFATAL (R68). -/
  | eccUncorrectable (ctx addr : Nat)
  /-- Each sensor is sampled every 1,000 ticks and CLTEMP updated (R427). -/
  | sensorSample (die sensor : Nat) (reading : BitVec 16)
  /-- Analog comparators at 120 °C remove every compute rail (R428). -/
  | hardTrip (die sensor : Nat)
  /-- Setting LRAIL.OFF turns the logic rail off (R436). -/
  | lrailOff (c : Nat) (mv : Nat)
  /-- Sets the logic rail's target, or is refused out of range (R424). -/
  | lrailMv (c : Nat) (mv : Nat)
  /-- Lane training ends UP or DEGRADED and the peer ID is exchanged (R389). -/
  | portTrainingDone (p lanes peer : Nat)
  /-- A module steers its tick counter to the tick master's (R393). -/
  | tickSync (t : DWord)
  /-- Arms the module stop at TICK, or sets MISSED (R401). -/
  | stopctlArm (v : Bool)
  /-- A replay gate admits an entry of the head issuer and checks the chunk hash (R415). -/
  | gateAdmit (ctx strm : Nat)
  /-- A missing head issuer for GATEWAIT ticks is an ISSUER divergence (R416). -/
  | replayIssuerTimeout (ctx strm : Nat)
  /-- A log chunk closes 1,000,000 ticks after its first record (R412). -/
  | chunkCloseTimeout (ctx strm : Nat)
  /-- Boot stage 2 brings up DRAM, vaults, storage and the steward cores (R442). -/
  | stewardBringup (ok : Bool)
  /-- A write to a register with no row of its own stores or clears its fields under their Access (R6). -/
  | registerWrite (r : RegAddr) (v : DWord)
  /-- A load request or SYS SC ticket request from another module of the domain arrives over a port and is served at this module (R111). -/
  | apauxRequest (src : Nat) (x : ApauxReq)
  /-- A wave or sequencer issues a word whose OP or OP and FN pair is unassigned, or OP 0x00 or 0xFF, and takes ILLOP (R177). -/
  | illegalWordIssue (w : BitVec 128)
  /-- A long-latency producer's data or fault arrives and fills, or makes LOST, its destination (R48). -/
  | producerDataArrival
  /-- The bench unseats the longest-waiting SEATWAIT wave to seat a ready one (R331). -/
  | unseat
  /-- A stall of 4,096 bench clocks force-unseats the wave with every entry saved (R55). -/
  | forcedUnseat
  /-- A wave parked past PARKLIMIT is force-unseated (R385). -/
  | parklimitExpiry
  /-- A courier reads a source line and writes it into its destination level (R124). -/
  | courierLine
  /-- The arrival carried by a copy is applied after the copy's last line (R126). -/
  | carriedArrival
  /-- A porter serves one request at an address, or holds it during an open phase (R105). -/
  | porterServe
  /-- The last MMA or MZA on a tile completes and the tile becomes FULL (R132). -/
  | matrixComplete
  /-- ACRD slices are delivered and the read hold is released (R294). -/
  | acrdDelivery
  /-- All staging acknowledgements arrive and APPLY is sent (R114). -/
  | sysStageAck
  /-- All APPLY acknowledgements arrive and host-homed bytes are posted (R114). -/
  | sysApplyAck
  /-- The innkeeper loads one group of 64 rooms and serves ready packets by PRISEL code (R372). -/
  | innkeeperSweepGroup
  /-- Writes the QUERYALL summary into a buffer (R365). -/
  | queryallPacket
  /-- Writes an 8-byte value as one device-level entry (R370). -/
  | signal
  /-- Waits until an 8-byte word satisfies a condition (R370). -/
  | waitval
  /-- The innkeeper re-reads a WAITVAL word after it changes (R370). -/
  | waitvalRecheck
  /-- Accepts a launch, checks the descriptor and grid, and starts placing (R321). -/
  | launchPacket
  /-- A packet that finishes when parsed (R370). -/
  | nopPacket
  /-- A wave of an evicting gang is saved into the image (R336). -/
  | waveSave
  /-- A block of an evicting gang takes its save point and writes its section (R334). -/
  | blockSave
  /-- The gang pool, tree state and header are written, with COMPLETE last (R335). -/
  | gangSaveComplete
  /-- An eviction not complete within 10,000,000 ticks is withdrawn (R335). -/
  | evictionWithdraw
  /-- The completion signal is written once every condition holds (R137). -/
  | kernelComplete
  /-- A gang's XBAR arrival reaches its die node and is forwarded (R351). -/
  | xbarDieArrival
  /-- The I/O die node completes the grid phase and sends completion down (R351). -/
  | xbarIodieComplete
  /-- The waiting waves of a completed tree barrier are released (R350). -/
  | barrierTreeRelease
  /-- The innkeeper copies a fault record into the ring and advances FWIDX (R382). -/
  | faultRingCopy
  /-- The innkeeper re-reads FRIDX while records wait (R382). -/
  | faultRingPoll
  /-- A mapped idle queue starts unmapping after QIDLE ticks (R373). -/
  | qidleExpiry
  /-- An idle queue starts paging out after QPAGEAGE ticks (R373). -/
  | qpageageExpiry
  /-- A waiting queue takes the lowest free room (R373). -/
  | roomGrant
  /-- A draining queue reaches D with every packet finished (R373). -/
  | drainComplete
  /-- An unmapping queue's body is stored and its room freed (R373). -/
  | unmapComplete
  /-- A key slot fails its integrity check and raises KEYFAULT (R359). -/
  | keySlotFault
  /-- When every emergency save is complete, the innkeeper removes the compute rails (R362). -/
  | emergencyRailRemoval
  /-- The compute rails return after every sensor reads below 95 °C for 1e9 ticks (R428). -/
  | railsRestore
  /-- Every 100,000 ticks the firmware re-chooses each cluster's voltage and budget (R426). -/
  | railTargetPass
  /-- Writing QREQ 1 starts a quiesce, or is refused with BUDDY (R436). -/
  | clqreqSet
  /-- Writing QREQ 0 returns the cluster to RUN (R436). -/
  | clqreqClear
  /-- An empty cluster hands its porter to its buddy and becomes QUIESCED (R436). -/
  | quiesceComplete
  /-- Starts saving the cluster's flip-flops into retention SRAM (R436). -/
  | retsaveGo
  /-- The retention save completes and the cluster is SAVED (R440). -/
  | retsaveComplete
  /-- GATE 1 stops the cluster clock (R436). -/
  | clkgateSet
  /-- GATE 0 restarts the cluster clock (R436). -/
  | clkgateClear
  /-- A falling rail goes below 100 mV and LRAILST.OFF sets (R435). -/
  | railOffReached
  /-- Writing WAKE starts the wake of an OFF cluster (R436). -/
  | clwakeWake
  /-- A waking rail settles and the retention load starts, or the cluster wakes cold (R440). -/
  | railSettled
  /-- The retention load completes and the cluster is RUN (R440). -/
  | retloadComplete
  /-- Writing 1 to a bit enables and trains a port (R389). -/
  | porten
  /-- Writing 1 to a bit fences a port (R389). -/
  | portfence
  /-- Training with fewer than 4 lanes times out and the port goes DOWN (R389). -/
  | portTrainingTimeout
  /-- A lane fails and the port degrades or goes down (R389). -/
  | portLaneFail
  /-- No flit or idle for 10,000 ticks takes the port DOWN (R389). -/
  | portIdleTimeout
  /-- More than 1,000 replays in 1,000,000 ticks fence the port (R389). -/
  | portReplayLimit
  /-- A flit with a CRC error is replayed from the sender's buffer (R390). -/
  | flitCrcError
  /-- A home still unreachable after LINKWAIT gives LINKLOST to its contexts (R394). -/
  | linkwaitExpiry
  /-- Every clock domain gates at the end of tick TICK (R402). -/
  | stopTickReached
  /-- Ungates every domain of a stopped module (R402). -/
  | stopctlResume
  /-- Snapshots every issue-slot counter at the end of one tick (R408). -/
  | cntsnap
  /-- Clears every issue-slot counter at the end of one tick (R408). -/
  | cntclr
  /-- Module reset ends every context and runs boot stage 1 in the boot ROM (R447). -/
  | moduleReset
  /-- Boot stage 3 verifies and loads the innkeeper image (R442). -/
  | innkeeperVerify
  /-- Boot stage 4 raises the compute rails and trains the enabled ports (R442). -/
  | computeRailRaise
  /-- Boot stage 5 starts accepting management commands and wakes (R442). -/
  | mgmtReady
  /-- Returns the boot stage, versions, MODID and module ID (R450). -/
  | status
  /-- Writes a flash image region for the next boot (R450). -/
  | flashwrite
  /-- Returns a signed attestation report for a nonce (R446). -/
  | attest
  /-- Creates a context from a descriptor and generates its key (R357). -/
  | ctxcreate
  /-- Resets a context through the steps of R364 (R364). -/
  | ctxreset
  /-- Resets a context and returns it to FREE (R357). -/
  | ctxdestroy
  /-- Raises HALTREQ on a context (R357). -/
  | ctxhalt
  /-- Releases a context halted by HALTREQ (R357). -/
  | ctxrelease
  /-- Resumes a context halted by THERMTRIP and restores its gangs (R362). -/
  | ctxresume
  /-- Returns stop-record counts and resets the drop limit (R361). -/
  | stopread
  /-- Returns and clears a context's event counters (R408). -/
  | evread
  /-- Assigns clusters to an empty partition (R358). -/
  | partassign
  /-- Adds a free cluster to a partition (R358). -/
  | partadd
  /-- Removes a cluster from a partition, evicting its gangs (R358). -/
  | partremove
  /-- Releases a partition that no context names (R358). -/
  | partrelease
  /-- Sets a context's L4 table root and invalidates its translations (R380). -/
  | setroot
  /-- Invalidates cached translations of a range and waits for their users (R387). -/
  | inval
  /-- Re-walks every access parked on a fault record (R384). -/
  | replay
  /-- Fails every access parked on a fault record with XLATE (R384). -/
  | deny
  /-- Sets or turns off a context's trace ring (R403). -/
  | traceset
  /-- Sets a context's record or replay mode and its log (R409). -/
  | recset
  /-- Creates a queue with its lodging (R374). -/
  | createq
  /-- Maps and pins a queue (R374). -/
  | mapq
  /-- Unpins and unmaps a queue (R374). -/
  | unmapq
  /-- Drains a mapped queue up to its current WIDX (R373). -/
  | drainq
  /-- Clears a queue's error and skips its pending packets (R373). -/
  | resetq
  /-- Discards an unmapped queue (R373). -/
  | destroyq
  /-- Management command that writes the full QUERYALL summary (R365). -/
  | queryallCmd
  /-- Runs cloff on a cluster outside every partition (R450). -/
  | clgate
  /-- Runs clon to wake a cluster (R450). -/
  | clungate
  /-- Each bench clock classifies its issue slot, advances the passed-over counts and moves the 256-tick current window, whether or not any wave issues (R89). -/
  | benchClock
  /-- Every 1,000 ticks a moving logic rail steps 10 mV toward its target, and the bench clock and LRAILST.MV follow the measured voltage (R425). -/
  | railSlew
  /-- A read of LINKST returns the port status and clears the read-to-clear REPLAYS count (R395). -/
  | linkstRead
  /-- A posted command slot with an unknown OPCODE is taken by the management wave and completes DONE with RESULT BADCMD (R449). -/
  | unknownOpcodeCommand
deriving DecidableEq, Repr

/-- The fields of an instruction word; none for an event. -/
def Instr.body? : Instr → Option Body
  | .nop x => some x
  | .bra x => some x
  | .brd x => some x
  | .join x => some x
  | .call x => some x
  | .ret x => some x
  | .jmpx x => some x
  | .exit x => some x
  | .seam x => some x
  | .yield x => some x
  | .voteAny x => some x
  | .voteAll x => some x
  | .voteBal x => some x
  | .voteEq x => some x
  | .iadd x => some x
  | .isub x => some x
  | .iaddc x => some x
  | .imul x => some x
  | .imulh x => some x
  | .imad x => some x
  | .imin x => some x
  | .imax x => some x
  | .iabs x => some x
  | .iclamp x => some x
  | .and x => some x
  | .or x => some x
  | .xor x => some x
  | .andn x => some x
  | .shl x => some x
  | .shr x => some x
  | .sar x => some x
  | .rot x => some x
  | .bfx x => some x
  | .bfi x => some x
  | .popc x => some x
  | .clz x => some x
  | .brev x => some x
  | .mov x => some x
  | .movw x => some x
  | .movq x => some x
  | .ldi x => some x
  | .lda x => some x
  | .aadd x => some x
  | .amov x => some x
  | .pset x => some x
  | .plog x => some x
  | .pmovPv x => some x
  | .pmovVp x => some x
  | .pmovSave x => some x
  | .pmovLoad x => some x
  | .sel x => some x
  | .prisel x => some x
  | .xlXor x => some x
  | .xlUp x => some x
  | .xlDown x => some x
  | .xlIdx x => some x
  | .qxH x => some x
  | .qxV x => some x
  | .qxD x => some x
  | .rstep x => some x
  | .red x => some x
  | .scan x => some x
  | .srd x => some x
  | .swr x => some x
  | .fadd x => some x
  | .fsub x => some x
  | .fmul x => some x
  | .ffma x => some x
  | .fmin x => some x
  | .fmax x => some x
  | .fminProp x => some x
  | .fmaxProp x => some x
  | .fcmp x => some x
  | .fclass x => some x
  | .frnd x => some x
  | .fscale x => some x
  | .hadd2 x => some x
  | .hmul2 x => some x
  | .hfma2 x => some x
  | .dot4 x => some x
  | .idot4 x => some x
  | .cvt x => some x
  | .cvts x => some x
  | .pack x => some x
  | .unpk x => some x
  | .bscale x => some x
  | .qnt x => some x
  | .dqnt x => some x
  | .rcp x => some x
  | .rsq x => some x
  | .sqrt x => some x
  | .exp2 x => some x
  | .log2 x => some x
  | .sin x => some x
  | .cos x => some x
  | .tanh x => some x
  | .wupd x => some x
  | .wmrg x => some x
  | .wfin x => some x
  | .rng x => some x
  | .ld x => some x
  | .ldTrk x => some x
  | .lds x => some x
  | .ldt x => some x
  | .pref x => some x
  | .st x => some x
  | .sts x => some x
  | .commitBlk x => some x
  | .commitGang x => some x
  | .commitDev x => some x
  | .commitSys x => some x
  | .commitChkBlk x => some x
  | .commitChkGangDev x => some x
  | .commitChkSys x => some x
  | .abortWave x => some x
  | .abortBlk x => some x
  | .abortGang x => some x
  | .fence x => some x
  | .atomAdd x => some x
  | .atomFadd x => some x
  | .atomMin x => some x
  | .atomMax x => some x
  | .atomAnd x => some x
  | .atomOr x => some x
  | .atomXor x => some x
  | .atomXchg x => some x
  | .atomCas x => some x
  | .atomIncw x => some x
  | .atomdAdd x => some x
  | .atomdFadd x => some x
  | .atomdMin x => some x
  | .atomdMax x => some x
  | .atomdAnd x => some x
  | .atomdOr x => some x
  | .atomdXor x => some x
  | .atomdXchg x => some x
  | .atomdCas x => some x
  | .atomdIncw x => some x
  | .redsAdd x => some x
  | .redsFadd x => some x
  | .redsMin x => some x
  | .redsMax x => some x
  | .redsAnd x => some x
  | .redsOr x => some x
  | .redsXor x => some x
  | .dphaseOpen x => some x
  | .dphaseClose x => some x
  | .wcnt x => some x
  | .cpyw x => some x
  | .bara x => some x
  | .barw x => some x
  | .bars x => some x
  | .gbar x => some x
  | .xbar x => some x
  | .cpy x => some x
  | .cpyq x => some x
  | .vsred x => some x
  | .vsrd x => some x
  | .vscl x => some x
  | .mres x => some x
  | .mrel x => some x
  | .mld x => some x
  | .mma x => some x
  | .mza x => some x
  | .mpred x => some x
  | .msig x => some x
  | .mwait x => some x
  | .mloopDec x => some x
  | .mloopJmp x => some x
  | .mloopSet x => some x
  | .mloopAdd x => some x
  | .mst x => some x
  | .mend x => some x
  | .obst x => some x
  | .acrd x => some x
  | .trap x => some x
  | .rtt x => some x
  | .halt x => some x
  | .icinv x => some x
  | .sleept x => some x
  | .wpset x => some x
  | .wpclr x => some x
  | .wprd x => some x
  | .hrd x => some x
  | .hwr x => some x
  | .hstep x => some x
  | .hrun x => some x
  | .hstat x => some x
  | .dbmw x => some x
  | .dbmr x => some x
  | .rmark x => some x
  | _ => none

end Sys2Proof
end

