-- ==== Sys2Proof/Machine/OpTag.lean ====
section
/-! DEFINITION. The words of the opcode map by name (R172 to R176), with their OP and FN, and the passage between a
named word with its fields and the constructor of `Instr`. -/

namespace Sys2Proof

/-- The names of the instruction words, one for each row of the opcode table that is a word. -/
inductive Op where
  | nop | bra | brd | join | call | ret | jmpx | exit | seam | yield | voteAny | voteAll | voteBal | voteEq
  | iadd | isub | iaddc | imul | imulh | imad | imin | imax | iabs | iclamp | and | or | xor | andn | shl | shr
  | sar | rot | bfx | bfi | popc | clz | brev | mov | movw | movq | ldi | lda | aadd | amov | pset | plog
  | pmovPv | pmovVp | pmovSave | pmovLoad | sel | prisel | xlXor | xlUp | xlDown | xlIdx | qxH | qxV | qxD
  | rstep | red | scan | srd | swr | fadd | fsub | fmul | ffma | fmin | fmax | fminProp | fmaxProp | fcmp
  | fclass | frnd | fscale | hadd2 | hmul2 | hfma2 | dot4 | idot4 | cvt | cvts | pack | unpk | bscale | qnt
  | dqnt | rcp | rsq | sqrt | exp2 | log2 | sin | cos | tanh | wupd | wmrg | wfin | rng | ld | ldTrk | lds
  | ldt | pref | st | sts | commitBlk | commitGang | commitDev | commitSys | commitChkBlk | commitChkGangDev
  | commitChkSys | abortWave | abortBlk | abortGang | fence | atomAdd | atomFadd | atomMin | atomMax | atomAnd
  | atomOr | atomXor | atomXchg | atomCas | atomIncw | atomdAdd | atomdFadd | atomdMin | atomdMax | atomdAnd
  | atomdOr | atomdXor | atomdXchg | atomdCas | atomdIncw | redsAdd | redsFadd | redsMin | redsMax | redsAnd
  | redsOr | redsXor | dphaseOpen | dphaseClose | wcnt | cpyw | bara | barw | bars | gbar | xbar | cpy | cpyq
  | vsred | vsrd | vscl | mres | mrel | mld | mma | mza | mpred | msig | mwait | mloopDec | mloopJmp | mloopSet
  | mloopAdd | mst | mend | obst | acrd | trap | rtt | halt | icinv | sleept | wpset | wpclr | wprd | hrd | hwr
  | hstep | hrun | hstat | dbmw | dbmr | rmark
deriving DecidableEq, Repr

namespace Machine

/-- The instruction that a named word with its fields is. -/
def mkInstr : Op → Body → Instr
  | .nop, x => .nop x
  | .bra, x => .bra x
  | .brd, x => .brd x
  | .join, x => .join x
  | .call, x => .call x
  | .ret, x => .ret x
  | .jmpx, x => .jmpx x
  | .exit, x => .exit x
  | .seam, x => .seam x
  | .yield, x => .yield x
  | .voteAny, x => .voteAny x
  | .voteAll, x => .voteAll x
  | .voteBal, x => .voteBal x
  | .voteEq, x => .voteEq x
  | .iadd, x => .iadd x
  | .isub, x => .isub x
  | .iaddc, x => .iaddc x
  | .imul, x => .imul x
  | .imulh, x => .imulh x
  | .imad, x => .imad x
  | .imin, x => .imin x
  | .imax, x => .imax x
  | .iabs, x => .iabs x
  | .iclamp, x => .iclamp x
  | .and, x => .and x
  | .or, x => .or x
  | .xor, x => .xor x
  | .andn, x => .andn x
  | .shl, x => .shl x
  | .shr, x => .shr x
  | .sar, x => .sar x
  | .rot, x => .rot x
  | .bfx, x => .bfx x
  | .bfi, x => .bfi x
  | .popc, x => .popc x
  | .clz, x => .clz x
  | .brev, x => .brev x
  | .mov, x => .mov x
  | .movw, x => .movw x
  | .movq, x => .movq x
  | .ldi, x => .ldi x
  | .lda, x => .lda x
  | .aadd, x => .aadd x
  | .amov, x => .amov x
  | .pset, x => .pset x
  | .plog, x => .plog x
  | .pmovPv, x => .pmovPv x
  | .pmovVp, x => .pmovVp x
  | .pmovSave, x => .pmovSave x
  | .pmovLoad, x => .pmovLoad x
  | .sel, x => .sel x
  | .prisel, x => .prisel x
  | .xlXor, x => .xlXor x
  | .xlUp, x => .xlUp x
  | .xlDown, x => .xlDown x
  | .xlIdx, x => .xlIdx x
  | .qxH, x => .qxH x
  | .qxV, x => .qxV x
  | .qxD, x => .qxD x
  | .rstep, x => .rstep x
  | .red, x => .red x
  | .scan, x => .scan x
  | .srd, x => .srd x
  | .swr, x => .swr x
  | .fadd, x => .fadd x
  | .fsub, x => .fsub x
  | .fmul, x => .fmul x
  | .ffma, x => .ffma x
  | .fmin, x => .fmin x
  | .fmax, x => .fmax x
  | .fminProp, x => .fminProp x
  | .fmaxProp, x => .fmaxProp x
  | .fcmp, x => .fcmp x
  | .fclass, x => .fclass x
  | .frnd, x => .frnd x
  | .fscale, x => .fscale x
  | .hadd2, x => .hadd2 x
  | .hmul2, x => .hmul2 x
  | .hfma2, x => .hfma2 x
  | .dot4, x => .dot4 x
  | .idot4, x => .idot4 x
  | .cvt, x => .cvt x
  | .cvts, x => .cvts x
  | .pack, x => .pack x
  | .unpk, x => .unpk x
  | .bscale, x => .bscale x
  | .qnt, x => .qnt x
  | .dqnt, x => .dqnt x
  | .rcp, x => .rcp x
  | .rsq, x => .rsq x
  | .sqrt, x => .sqrt x
  | .exp2, x => .exp2 x
  | .log2, x => .log2 x
  | .sin, x => .sin x
  | .cos, x => .cos x
  | .tanh, x => .tanh x
  | .wupd, x => .wupd x
  | .wmrg, x => .wmrg x
  | .wfin, x => .wfin x
  | .rng, x => .rng x
  | .ld, x => .ld x
  | .ldTrk, x => .ldTrk x
  | .lds, x => .lds x
  | .ldt, x => .ldt x
  | .pref, x => .pref x
  | .st, x => .st x
  | .sts, x => .sts x
  | .commitBlk, x => .commitBlk x
  | .commitGang, x => .commitGang x
  | .commitDev, x => .commitDev x
  | .commitSys, x => .commitSys x
  | .commitChkBlk, x => .commitChkBlk x
  | .commitChkGangDev, x => .commitChkGangDev x
  | .commitChkSys, x => .commitChkSys x
  | .abortWave, x => .abortWave x
  | .abortBlk, x => .abortBlk x
  | .abortGang, x => .abortGang x
  | .fence, x => .fence x
  | .atomAdd, x => .atomAdd x
  | .atomFadd, x => .atomFadd x
  | .atomMin, x => .atomMin x
  | .atomMax, x => .atomMax x
  | .atomAnd, x => .atomAnd x
  | .atomOr, x => .atomOr x
  | .atomXor, x => .atomXor x
  | .atomXchg, x => .atomXchg x
  | .atomCas, x => .atomCas x
  | .atomIncw, x => .atomIncw x
  | .atomdAdd, x => .atomdAdd x
  | .atomdFadd, x => .atomdFadd x
  | .atomdMin, x => .atomdMin x
  | .atomdMax, x => .atomdMax x
  | .atomdAnd, x => .atomdAnd x
  | .atomdOr, x => .atomdOr x
  | .atomdXor, x => .atomdXor x
  | .atomdXchg, x => .atomdXchg x
  | .atomdCas, x => .atomdCas x
  | .atomdIncw, x => .atomdIncw x
  | .redsAdd, x => .redsAdd x
  | .redsFadd, x => .redsFadd x
  | .redsMin, x => .redsMin x
  | .redsMax, x => .redsMax x
  | .redsAnd, x => .redsAnd x
  | .redsOr, x => .redsOr x
  | .redsXor, x => .redsXor x
  | .dphaseOpen, x => .dphaseOpen x
  | .dphaseClose, x => .dphaseClose x
  | .wcnt, x => .wcnt x
  | .cpyw, x => .cpyw x
  | .bara, x => .bara x
  | .barw, x => .barw x
  | .bars, x => .bars x
  | .gbar, x => .gbar x
  | .xbar, x => .xbar x
  | .cpy, x => .cpy x
  | .cpyq, x => .cpyq x
  | .vsred, x => .vsred x
  | .vsrd, x => .vsrd x
  | .vscl, x => .vscl x
  | .mres, x => .mres x
  | .mrel, x => .mrel x
  | .mld, x => .mld x
  | .mma, x => .mma x
  | .mza, x => .mza x
  | .mpred, x => .mpred x
  | .msig, x => .msig x
  | .mwait, x => .mwait x
  | .mloopDec, x => .mloopDec x
  | .mloopJmp, x => .mloopJmp x
  | .mloopSet, x => .mloopSet x
  | .mloopAdd, x => .mloopAdd x
  | .mst, x => .mst x
  | .mend, x => .mend x
  | .obst, x => .obst x
  | .acrd, x => .acrd x
  | .trap, x => .trap x
  | .rtt, x => .rtt x
  | .halt, x => .halt x
  | .icinv, x => .icinv x
  | .sleept, x => .sleept x
  | .wpset, x => .wpset x
  | .wpclr, x => .wpclr x
  | .wprd, x => .wprd x
  | .hrd, x => .hrd x
  | .hwr, x => .hwr x
  | .hstep, x => .hstep x
  | .hrun, x => .hrun x
  | .hstat, x => .hstat x
  | .dbmw, x => .dbmw x
  | .dbmr, x => .dbmr x
  | .rmark, x => .rmark x

/-- The name and fields of an instruction word; none for an event. -/
def opOf : Instr → Option (Op × Body)
  | .nop x => some (.nop, x)
  | .bra x => some (.bra, x)
  | .brd x => some (.brd, x)
  | .join x => some (.join, x)
  | .call x => some (.call, x)
  | .ret x => some (.ret, x)
  | .jmpx x => some (.jmpx, x)
  | .exit x => some (.exit, x)
  | .seam x => some (.seam, x)
  | .yield x => some (.yield, x)
  | .voteAny x => some (.voteAny, x)
  | .voteAll x => some (.voteAll, x)
  | .voteBal x => some (.voteBal, x)
  | .voteEq x => some (.voteEq, x)
  | .iadd x => some (.iadd, x)
  | .isub x => some (.isub, x)
  | .iaddc x => some (.iaddc, x)
  | .imul x => some (.imul, x)
  | .imulh x => some (.imulh, x)
  | .imad x => some (.imad, x)
  | .imin x => some (.imin, x)
  | .imax x => some (.imax, x)
  | .iabs x => some (.iabs, x)
  | .iclamp x => some (.iclamp, x)
  | .and x => some (.and, x)
  | .or x => some (.or, x)
  | .xor x => some (.xor, x)
  | .andn x => some (.andn, x)
  | .shl x => some (.shl, x)
  | .shr x => some (.shr, x)
  | .sar x => some (.sar, x)
  | .rot x => some (.rot, x)
  | .bfx x => some (.bfx, x)
  | .bfi x => some (.bfi, x)
  | .popc x => some (.popc, x)
  | .clz x => some (.clz, x)
  | .brev x => some (.brev, x)
  | .mov x => some (.mov, x)
  | .movw x => some (.movw, x)
  | .movq x => some (.movq, x)
  | .ldi x => some (.ldi, x)
  | .lda x => some (.lda, x)
  | .aadd x => some (.aadd, x)
  | .amov x => some (.amov, x)
  | .pset x => some (.pset, x)
  | .plog x => some (.plog, x)
  | .pmovPv x => some (.pmovPv, x)
  | .pmovVp x => some (.pmovVp, x)
  | .pmovSave x => some (.pmovSave, x)
  | .pmovLoad x => some (.pmovLoad, x)
  | .sel x => some (.sel, x)
  | .prisel x => some (.prisel, x)
  | .xlXor x => some (.xlXor, x)
  | .xlUp x => some (.xlUp, x)
  | .xlDown x => some (.xlDown, x)
  | .xlIdx x => some (.xlIdx, x)
  | .qxH x => some (.qxH, x)
  | .qxV x => some (.qxV, x)
  | .qxD x => some (.qxD, x)
  | .rstep x => some (.rstep, x)
  | .red x => some (.red, x)
  | .scan x => some (.scan, x)
  | .srd x => some (.srd, x)
  | .swr x => some (.swr, x)
  | .fadd x => some (.fadd, x)
  | .fsub x => some (.fsub, x)
  | .fmul x => some (.fmul, x)
  | .ffma x => some (.ffma, x)
  | .fmin x => some (.fmin, x)
  | .fmax x => some (.fmax, x)
  | .fminProp x => some (.fminProp, x)
  | .fmaxProp x => some (.fmaxProp, x)
  | .fcmp x => some (.fcmp, x)
  | .fclass x => some (.fclass, x)
  | .frnd x => some (.frnd, x)
  | .fscale x => some (.fscale, x)
  | .hadd2 x => some (.hadd2, x)
  | .hmul2 x => some (.hmul2, x)
  | .hfma2 x => some (.hfma2, x)
  | .dot4 x => some (.dot4, x)
  | .idot4 x => some (.idot4, x)
  | .cvt x => some (.cvt, x)
  | .cvts x => some (.cvts, x)
  | .pack x => some (.pack, x)
  | .unpk x => some (.unpk, x)
  | .bscale x => some (.bscale, x)
  | .qnt x => some (.qnt, x)
  | .dqnt x => some (.dqnt, x)
  | .rcp x => some (.rcp, x)
  | .rsq x => some (.rsq, x)
  | .sqrt x => some (.sqrt, x)
  | .exp2 x => some (.exp2, x)
  | .log2 x => some (.log2, x)
  | .sin x => some (.sin, x)
  | .cos x => some (.cos, x)
  | .tanh x => some (.tanh, x)
  | .wupd x => some (.wupd, x)
  | .wmrg x => some (.wmrg, x)
  | .wfin x => some (.wfin, x)
  | .rng x => some (.rng, x)
  | .ld x => some (.ld, x)
  | .ldTrk x => some (.ldTrk, x)
  | .lds x => some (.lds, x)
  | .ldt x => some (.ldt, x)
  | .pref x => some (.pref, x)
  | .st x => some (.st, x)
  | .sts x => some (.sts, x)
  | .commitBlk x => some (.commitBlk, x)
  | .commitGang x => some (.commitGang, x)
  | .commitDev x => some (.commitDev, x)
  | .commitSys x => some (.commitSys, x)
  | .commitChkBlk x => some (.commitChkBlk, x)
  | .commitChkGangDev x => some (.commitChkGangDev, x)
  | .commitChkSys x => some (.commitChkSys, x)
  | .abortWave x => some (.abortWave, x)
  | .abortBlk x => some (.abortBlk, x)
  | .abortGang x => some (.abortGang, x)
  | .fence x => some (.fence, x)
  | .atomAdd x => some (.atomAdd, x)
  | .atomFadd x => some (.atomFadd, x)
  | .atomMin x => some (.atomMin, x)
  | .atomMax x => some (.atomMax, x)
  | .atomAnd x => some (.atomAnd, x)
  | .atomOr x => some (.atomOr, x)
  | .atomXor x => some (.atomXor, x)
  | .atomXchg x => some (.atomXchg, x)
  | .atomCas x => some (.atomCas, x)
  | .atomIncw x => some (.atomIncw, x)
  | .atomdAdd x => some (.atomdAdd, x)
  | .atomdFadd x => some (.atomdFadd, x)
  | .atomdMin x => some (.atomdMin, x)
  | .atomdMax x => some (.atomdMax, x)
  | .atomdAnd x => some (.atomdAnd, x)
  | .atomdOr x => some (.atomdOr, x)
  | .atomdXor x => some (.atomdXor, x)
  | .atomdXchg x => some (.atomdXchg, x)
  | .atomdCas x => some (.atomdCas, x)
  | .atomdIncw x => some (.atomdIncw, x)
  | .redsAdd x => some (.redsAdd, x)
  | .redsFadd x => some (.redsFadd, x)
  | .redsMin x => some (.redsMin, x)
  | .redsMax x => some (.redsMax, x)
  | .redsAnd x => some (.redsAnd, x)
  | .redsOr x => some (.redsOr, x)
  | .redsXor x => some (.redsXor, x)
  | .dphaseOpen x => some (.dphaseOpen, x)
  | .dphaseClose x => some (.dphaseClose, x)
  | .wcnt x => some (.wcnt, x)
  | .cpyw x => some (.cpyw, x)
  | .bara x => some (.bara, x)
  | .barw x => some (.barw, x)
  | .bars x => some (.bars, x)
  | .gbar x => some (.gbar, x)
  | .xbar x => some (.xbar, x)
  | .cpy x => some (.cpy, x)
  | .cpyq x => some (.cpyq, x)
  | .vsred x => some (.vsred, x)
  | .vsrd x => some (.vsrd, x)
  | .vscl x => some (.vscl, x)
  | .mres x => some (.mres, x)
  | .mrel x => some (.mrel, x)
  | .mld x => some (.mld, x)
  | .mma x => some (.mma, x)
  | .mza x => some (.mza, x)
  | .mpred x => some (.mpred, x)
  | .msig x => some (.msig, x)
  | .mwait x => some (.mwait, x)
  | .mloopDec x => some (.mloopDec, x)
  | .mloopJmp x => some (.mloopJmp, x)
  | .mloopSet x => some (.mloopSet, x)
  | .mloopAdd x => some (.mloopAdd, x)
  | .mst x => some (.mst, x)
  | .mend x => some (.mend, x)
  | .obst x => some (.obst, x)
  | .acrd x => some (.acrd, x)
  | .trap x => some (.trap, x)
  | .rtt x => some (.rtt, x)
  | .halt x => some (.halt, x)
  | .icinv x => some (.icinv, x)
  | .sleept x => some (.sleept, x)
  | .wpset x => some (.wpset, x)
  | .wpclr x => some (.wpclr, x)
  | .wprd x => some (.wprd, x)
  | .hrd x => some (.hrd, x)
  | .hwr x => some (.hwr, x)
  | .hstep x => some (.hstep, x)
  | .hrun x => some (.hrun, x)
  | .hstat x => some (.hstat, x)
  | .dbmw x => some (.dbmw, x)
  | .dbmr x => some (.dbmr, x)
  | .rmark x => some (.rmark, x)
  | _ => none

/-- OP and FN of a named word (R172 to R176). -/
def opFn : Op → BitVec 8 × BitVec 6
  | .nop => (0x01, 0)
  | .bra => (0x02, 0)
  | .brd => (0x03, 0)
  | .join => (0x04, 0)
  | .call => (0x05, 0)
  | .ret => (0x06, 0)
  | .jmpx => (0x07, 0)
  | .exit => (0x08, 0)
  | .seam => (0x09, 0)
  | .yield => (0x0A, 0)
  | .voteAny => (0x0B, 0)
  | .voteAll => (0x0B, 1)
  | .voteBal => (0x0B, 2)
  | .voteEq => (0x0B, 3)
  | .iadd => (0x20, 0)
  | .isub => (0x20, 1)
  | .iaddc => (0x20, 2)
  | .imul => (0x21, 0)
  | .imulh => (0x21, 1)
  | .imad => (0x21, 2)
  | .imin => (0x22, 0)
  | .imax => (0x22, 1)
  | .iabs => (0x22, 2)
  | .iclamp => (0x22, 3)
  | .and => (0x23, 0)
  | .or => (0x23, 1)
  | .xor => (0x23, 2)
  | .andn => (0x23, 3)
  | .shl => (0x24, 0)
  | .shr => (0x24, 1)
  | .sar => (0x24, 2)
  | .rot => (0x24, 3)
  | .bfx => (0x25, 0)
  | .bfi => (0x25, 1)
  | .popc => (0x26, 0)
  | .clz => (0x26, 1)
  | .brev => (0x26, 2)
  | .mov => (0x40, 0)
  | .movw => (0x40, 1)
  | .movq => (0x40, 2)
  | .ldi => (0x41, 0)
  | .lda => (0x42, 0)
  | .aadd => (0x42, 1)
  | .amov => (0x42, 2)
  | .pset => (0x43, 0)
  | .plog => (0x43, 1)
  | .pmovPv => (0x43, 2)
  | .pmovVp => (0x43, 2)
  | .pmovSave => (0x43, 2)
  | .pmovLoad => (0x43, 2)
  | .sel => (0x43, 3)
  | .prisel => (0x43, 4)
  | .xlXor => (0x44, 0)
  | .xlUp => (0x44, 1)
  | .xlDown => (0x44, 2)
  | .xlIdx => (0x44, 3)
  | .qxH => (0x45, 0)
  | .qxV => (0x45, 1)
  | .qxD => (0x45, 2)
  | .rstep => (0x46, 0)
  | .red => (0x46, 1)
  | .scan => (0x46, 2)
  | .srd => (0x47, 0)
  | .swr => (0x47, 1)
  | .fadd => (0x60, 0)
  | .fsub => (0x60, 1)
  | .fmul => (0x60, 2)
  | .ffma => (0x60, 3)
  | .fmin => (0x61, 0)
  | .fmax => (0x61, 1)
  | .fminProp => (0x61, 2)
  | .fmaxProp => (0x61, 3)
  | .fcmp => (0x62, 0)
  | .fclass => (0x62, 1)
  | .frnd => (0x63, 0)
  | .fscale => (0x63, 1)
  | .hadd2 => (0x64, 0)
  | .hmul2 => (0x64, 1)
  | .hfma2 => (0x64, 2)
  | .dot4 => (0x65, 0)
  | .idot4 => (0x65, 1)
  | .cvt => (0x80, 0)
  | .cvts => (0x80, 1)
  | .pack => (0x80, 2)
  | .unpk => (0x80, 3)
  | .bscale => (0x81, 0)
  | .qnt => (0x81, 1)
  | .dqnt => (0x81, 2)
  | .rcp => (0x82, 0)
  | .rsq => (0x82, 1)
  | .sqrt => (0x82, 2)
  | .exp2 => (0x82, 3)
  | .log2 => (0x82, 4)
  | .sin => (0x82, 5)
  | .cos => (0x82, 6)
  | .tanh => (0x82, 7)
  | .wupd => (0x83, 0)
  | .wmrg => (0x83, 1)
  | .wfin => (0x83, 2)
  | .rng => (0x84, 0)
  | .ld => (0xA0, 0)
  | .ldTrk => (0xA0, 0)
  | .lds => (0xA2, 0)
  | .ldt => (0xA4, 0)
  | .pref => (0xA5, 0)
  | .st => (0xA1, 0)
  | .sts => (0xA3, 0)
  | .commitBlk => (0xC0, 0)
  | .commitGang => (0xC0, 0)
  | .commitDev => (0xC0, 0)
  | .commitSys => (0xC0, 0)
  | .commitChkBlk => (0xC0, 1)
  | .commitChkGangDev => (0xC0, 1)
  | .commitChkSys => (0xC0, 1)
  | .abortWave => (0xC0, 2)
  | .abortBlk => (0xC0, 2)
  | .abortGang => (0xC0, 2)
  | .fence => (0xC0, 3)
  | .atomAdd => (0xC1, 0)
  | .atomFadd => (0xC1, 1)
  | .atomMin => (0xC1, 2)
  | .atomMax => (0xC1, 3)
  | .atomAnd => (0xC1, 4)
  | .atomOr => (0xC1, 5)
  | .atomXor => (0xC1, 6)
  | .atomXchg => (0xC1, 7)
  | .atomCas => (0xC1, 8)
  | .atomIncw => (0xC1, 9)
  | .atomdAdd => (0xC2, 0)
  | .atomdFadd => (0xC2, 1)
  | .atomdMin => (0xC2, 2)
  | .atomdMax => (0xC2, 3)
  | .atomdAnd => (0xC2, 4)
  | .atomdOr => (0xC2, 5)
  | .atomdXor => (0xC2, 6)
  | .atomdXchg => (0xC2, 7)
  | .atomdCas => (0xC2, 8)
  | .atomdIncw => (0xC2, 9)
  | .redsAdd => (0xC3, 0)
  | .redsFadd => (0xC3, 1)
  | .redsMin => (0xC3, 2)
  | .redsMax => (0xC3, 3)
  | .redsAnd => (0xC3, 4)
  | .redsOr => (0xC3, 5)
  | .redsXor => (0xC3, 6)
  | .dphaseOpen => (0xC4, 0)
  | .dphaseClose => (0xC4, 1)
  | .wcnt => (0xC5, 0)
  | .cpyw => (0xC8, 2)
  | .bara => (0xC6, 0)
  | .barw => (0xC6, 1)
  | .bars => (0xC6, 2)
  | .gbar => (0xC7, 0)
  | .xbar => (0xC7, 1)
  | .cpy => (0xC8, 0)
  | .cpyq => (0xC8, 1)
  | .vsred => (0xC9, 0)
  | .vsrd => (0xC9, 1)
  | .vscl => (0xC9, 2)
  | .mres => (0xE0, 0)
  | .mrel => (0xE0, 1)
  | .mld => (0xE1, 0)
  | .mma => (0xE2, 0)
  | .mza => (0xE2, 1)
  | .mpred => (0xE3, 0)
  | .msig => (0xE4, 0)
  | .mwait => (0xE4, 1)
  | .mloopDec => (0xE5, 0)
  | .mloopJmp => (0xE5, 0)
  | .mloopSet => (0xE5, 0)
  | .mloopAdd => (0xE5, 0)
  | .mst => (0xE6, 0)
  | .mend => (0xE7, 0)
  | .obst => (0xE8, 0)
  | .acrd => (0xE8, 1)
  | .trap => (0xF0, 0)
  | .rtt => (0xF0, 1)
  | .halt => (0xF1, 0)
  | .icinv => (0xF2, 0)
  | .sleept => (0xF3, 0)
  | .wpset => (0xF4, 0)
  | .wpclr => (0xF4, 1)
  | .wprd => (0xF4, 2)
  | .hrd => (0xF5, 0)
  | .hwr => (0xF5, 1)
  | .hstep => (0xF5, 2)
  | .hrun => (0xF5, 3)
  | .hstat => (0xF5, 4)
  | .dbmw => (0xF6, 0)
  | .dbmr => (0xF6, 1)
  | .rmark => (0xF7, 0)

end Machine
end Sys2Proof
end

