-- ==== Sys2Proof/Machine/Legal.lean ====
section
/-! DEFINITION. Which words are instructions: for each named word its AUX layout, its TYPE and MOD codes, the operand
fields it has and the levels they accept, and the two decode checks ILLFLD and ILLLEV of R164. -/

namespace Sys2Proof.Machine

/-! ### Codes of the fields -/

/-- The format of a 4-bit code (R138); 0xE and 0xF are reserved. -/
def fmtOf (c : BitVec 4) : Option Fmt :=
  match c.toNat with
  | 0 => some .u32 | 1 => some .i32 | 2 => some .f32 | 3 => some .f16 | 4 => some .bf16 | 5 => some .e4m3
  | 6 => some .e5m2 | 7 => some .e3m2 | 8 => some .e2m3 | 9 => some .e2m1 | 10 => some .i8 | 11 => some .u8
  | 12 => some .u64 | 13 => some .i64 | _ => none

/-- The 4-bit code of a format (R138). -/
def fmtCode : Fmt → BitVec 4
  | .u32 => 0 | .i32 => 1 | .f32 => 2 | .f16 => 3 | .bf16 => 4 | .e4m3 => 5 | .e5m2 => 6 | .e3m2 => 7 | .e2m3 => 8
  | .e2m1 => 9 | .i8 => 10 | .u8 => 11 | .u64 => 12 | .i64 => 13

/-- Width of a format in bits (R138). -/
def fmtBits : Fmt → Nat
  | .u32 | .i32 | .f32 => 32
  | .f16 | .bf16 => 16
  | .e4m3 | .e5m2 | .i8 | .u8 => 8
  | .e3m2 | .e2m3 => 6
  | .e2m1 => 4
  | .u64 | .i64 => 64

/-- A 64-bit format: an entry pair (R142). -/
def fmt64 : Fmt → Bool
  | .u64 | .i64 => true
  | _ => false

/-- A floating-point format (R139). -/
def isFloat : Fmt → Bool
  | .f32 | .f16 | .bf16 | .e4m3 | .e5m2 | .e3m2 | .e2m3 | .e2m1 => true
  | _ => false

/-- The special of a K index (R162). -/
def specialOf (i : Nat) : Option Special :=
  match i with
  | 0 => some .zero | 1 => some .lane | 2 => some .quad | 3 => some .wave | 4 => some .nwave | 5 => some .width
  | 6 => some .tidx | 7 => some .tidy | 8 => some .tidz | 9 => some .bidx | 10 => some .bidy | 11 => some .bidz
  | 12 => some .gblk | _ => none

/-- The K index of a special (R162). -/
def specialIdx : Special → Nat
  | .zero => 0 | .lane => 1 | .quad => 2 | .wave => 3 | .nwave => 4 | .width => 5 | .tidx => 6 | .tidy => 7
  | .tidz => 8 | .bidx => 9 | .bidy => 10 | .bidz => 11 | .gblk => 12

/-- Whether a special is uniform (R162). -/
def specialUniform : Special → Bool
  | .lane | .quad | .tidx | .tidy | .tidz => false
  | _ => true

/-- The operand that a 12-bit field of a wave word names (R20). -/
def waveOpd (f : BitVec 12) : Option Opd :=
  let i := (f.extractLsb' 0 9).toNat
  match (f.extractLsb' 9 3).toNat with
  | 0 => if h : i < 8 then some (.h ⟨i, h⟩) else none
  | 1 => if h : i < 32 then some (.n ⟨i, h⟩) else none
  | 2 => if h : i < 512 then some (.m ⟨i, h⟩) else none
  | 3 => if h : i < 128 then some (.w ⟨i, h⟩) else none
  | 4 => if h : i < 512 then some (.s ⟨i, h⟩) else none
  | 5 => (specialOf i).map .k
  | 6 => some (.lit (f.extractLsb' 0 9))
  | _ => none

/-- The operand that a 12-bit field of a sequencer word names (R163). -/
def seqOpd (f : BitVec 12) : Option Opd :=
  let i := (f.extractLsb' 0 9).toNat
  match (f.extractLsb' 9 3).toNat with
  | 0 => if h : i < 8 then some (.q ⟨i, h⟩) else none
  | 1 => if h : i < 32 then some (.o ⟨i, h⟩) else none
  | 2 => if h : i < 64 then some (.t ⟨i, h⟩) else none
  | 6 => some (.lit (f.extractLsb' 0 9))
  | _ => none

/-- The 12-bit field that names an operand: level code in [11:9], index in [8:0] (R20, R163). -/
def opdField : Opd → BitVec 12
  | .h i => BitVec.ofNat 12 i.val
  | .n i => BitVec.ofNat 12 (0x200 + i.val)
  | .m i => BitVec.ofNat 12 (0x400 + i.val)
  | .w i => BitVec.ofNat 12 (0x600 + i.val)
  | .s i => BitVec.ofNat 12 (0x800 + i.val)
  | .k x => BitVec.ofNat 12 (0xA00 + specialIdx x)
  | .lit v => BitVec.ofNat 12 (0xC00 + v.toNat)
  | .q i => BitVec.ofNat 12 i.val
  | .o i => BitVec.ofNat 12 (0x200 + i.val)
  | .t i => BitVec.ofNat 12 (0x400 + i.val)

/-! ### AUX layouts -/

/-- The AUX layouts of R168. -/
inductive Layout where
  | z | i | b | m | s | p | g | f | v | q | x
deriving DecidableEq, Repr

/-- The sub-fields that a layout reads from AUX; none when a bit that the layout does not name is set (R168). -/
def auxOf (l : Layout) (w : BitVec 46) : Option Aux :=
  match l with
  | .z => if w = 0 then some .z else none
  | .i => if w.extractLsb' 33 13 = 0 then some (.i (w.extractLsb' 0 32) (w.getLsbD 32)) else none
  | .b => some (.b (w.extractLsb' 23 23) (w.extractLsb' 0 23))
  | .m => some (.m (w.extractLsb' 43 3).toFin (w.extractLsb' 11 32) (w.getLsbD 10) (w.extractLsb' 7 3)
      (w.extractLsb' 0 7))
  | .s => some (.s (w.extractLsb' 38 8) (w.extractLsb' 6 32) (w.extractLsb' 0 6))
  | .p => if w.extractLsb' 13 33 = 0 then
      some (.p (w.extractLsb' 9 4) (w.extractLsb' 6 3).toFin (w.extractLsb' 3 3).toFin (w.extractLsb' 0 3).toFin)
    else none
  | .g => if w.extractLsb' 12 34 = 0 then some (.g (w.extractLsb' 0 12)) else none
  | .f => if w.extractLsb' 4 42 = 0 then (fmtOf (w.extractLsb' 0 4)).map .f else none
  | .v => if w.extractLsb' 4 42 = 0 then some (.v (w.extractLsb' 0 4)) else none
  | .q => some (.q (w.extractLsb' 23 23) (w.extractLsb' 0 23))
  | .x => some (.x w)

/-- The 46 AUX bits of its sub-fields (R168). -/
def auxBits : Aux → BitVec 46
  | .z => 0
  | .i imm brk => (0 : BitVec 13) ++ (BitVec.ofBool brk ++ imm)
  | .b tgt join => tgt ++ join
  | .m base imm xp order sub => BitVec.ofFin base ++ (imm ++ (BitVec.ofBool xp ++ (order ++ sub)))
  | .s sh sn sub => sh ++ (sn ++ sub)
  | .p tt pb pa pd => (0 : BitVec 33) ++ (tt ++ (BitVec.ofFin (w := 3) pb ++ (BitVec.ofFin (w := 3) pa ++ BitVec.ofFin (w := 3) pd)))
  | .g reg => (0 : BitVec 34) ++ reg
  | .f sfmt => (0 : BitVec 42) ++ fmtCode sfmt
  | .v vs => (0 : BitVec 42) ++ vs
  | .q tgt sub => tgt ++ sub
  | .x bits => bits

/-- Which layout a set of sub-fields is in. -/
def auxLayout : Aux → Layout
  | .z => .z | .i _ _ => .i | .b _ _ => .b | .m _ _ _ _ _ => .m | .s _ _ _ => .s | .p _ _ _ _ => .p | .g _ => .g
  | .f _ => .f | .v _ => .v | .q _ _ => .q | .x _ => .x

/-- The AUX layout of a named word (R172 to R176). -/
def layoutOf : Op → Layout
  | .bra | .brd | .call => .b
  | .seam | .wcnt | .bara | .barw | .bars | .gbar | .xbar | .cpyw => .s
  | .voteAny | .voteAll | .voteBal | .voteEq | .iaddc | .pset | .plog | .pmovPv | .pmovVp | .pmovSave | .pmovLoad
  | .sel | .prisel | .fcmp => .p
  | .ldi | .trap | .rmark => .i
  | .lda | .aadd | .amov | .ld | .ldTrk | .st | .lds | .sts | .ldt | .pref | .fence
  | .atomAdd | .atomFadd | .atomMin | .atomMax | .atomAnd | .atomOr | .atomXor | .atomXchg | .atomCas | .atomIncw
  | .atomdAdd | .atomdFadd | .atomdMin | .atomdMax | .atomdAnd | .atomdOr | .atomdXor | .atomdXchg | .atomdCas
  | .atomdIncw | .redsAdd | .redsFadd | .redsMin | .redsMax | .redsAnd | .redsOr | .redsXor | .cpy | .cpyq => .m
  | .srd | .swr => .g
  | .cvt | .cvts | .pack | .unpk | .bscale | .qnt | .dqnt => .f
  | .vsred | .vsrd | .vscl => .v
  | .mres | .mrel | .mld | .mma | .mza | .mpred | .msig | .mwait | .mloopDec | .mloopJmp | .mloopSet | .mloopAdd
  | .mst | .mend => .q
  | .obst | .acrd | .wpset | .wpclr | .wprd | .hrd | .hwr | .hstep | .hrun | .hstat | .dbmw | .dbmr => .x
  | _ => .z

/-- A word that a sequencer fetches (R176, R178); NOP is valid in both streams. -/
def isSeqOp : Op → Bool
  | .mres | .mrel | .mld | .mma | .mza | .mpred | .msig | .mwait | .mloopDec | .mloopJmp | .mloopSet | .mloopAdd
  | .mst | .mend => true
  | _ => false

/-- A privileged word (R176). -/
def isPrivOp : Op → Bool
  | .icinv | .wpset | .wpclr | .hrd | .hwr | .hstep | .hrun | .hstat => true
  | _ => false

/-! ### Access to the sub-fields -/

end Sys2Proof.Machine

namespace Sys2Proof

def Aux.mImm : Aux → BitVec 32 | .m _ v0 _ _ _ => v0 | _ => 0
def Aux.mBase : Aux → Fin 8 | .m v0 _ _ _ _ => v0 | _ => 0
def Aux.mXp : Aux → Bool | .m _ _ v0 _ _ => v0 | _ => false
def Aux.mOrder : Aux → Nat | .m _ _ _ v0 _ => v0.toNat | _ => 0
def Aux.mSub : Aux → BitVec 7 | .m _ _ _ _ v0 => v0 | _ => 0
def Aux.sSub : Aux → BitVec 6 | .s _ _ v0 => v0 | _ => 0
def Aux.sSh : Aux → BitVec 8 | .s v0 _ _ => v0 | _ => 0
def Aux.sSn : Aux → BitVec 32 | .s _ v0 _ => v0 | _ => 0
def Aux.pTt : Aux → BitVec 4 | .p v0 _ _ _ => v0 | _ => 0
def Aux.pPb : Aux → Fin 8 | .p _ v0 _ _ => v0 | _ => 0
def Aux.pPa : Aux → Fin 8 | .p _ _ v0 _ => v0 | _ => 0
def Aux.pPd : Aux → Fin 8 | .p _ _ _ v0 => v0 | _ => 0
def Aux.gReg : Aux → Nat | .g v0 => v0.toNat | _ => 0
def Aux.fFmt : Aux → Fmt | .f v0 => v0 | _ => .u32
def Aux.vIdx : Aux → Nat | .v v0 => v0.toNat | _ => 0
def Aux.qTgt : Aux → BitVec 23 | .q v0 _ => v0 | _ => 0
def Aux.qSub : Aux → BitVec 23 | .q _ v0 => v0 | _ => 0
def Aux.xBits : Aux → BitVec 46 | .x v0 => v0 | _ => 0
def Aux.iImm : Aux → Word | .i v0 _ => v0 | _ => 0
def Aux.iBrk : Aux → Bool | .i _ v0 => v0 | _ => false
def Aux.bTgt : Aux → BitVec 23 | .b v0 _ => v0 | _ => 0
def Aux.bJoin : Aux → BitVec 23 | .b _ v0 => v0 | _ => 0

end Sys2Proof

namespace Sys2Proof.Machine

/-- MOD[49:47] of class 110: the SCOPE code (R165, R167). -/
def scopeOf (md : BitVec 4) : Nat := (md.extractLsb' 1 3).toNat
/-- MOD[46] of class 110: O64 (R165). -/
def o64c (md : BitVec 4) : Bool := md.getLsbD 0
/-- MOD[47] of class 101: O64 (R165). -/
def o64m (md : BitVec 4) : Bool := md.getLsbD 1
/-- MOD[49]: SAT (R165). -/
def satOf (md : BitVec 4) : Bool := md.getLsbD 3
/-- MOD[48:46]: RM (R165). -/
def rmOf (md : BitVec 4) : Nat := (md.extractLsb' 0 3).toNat
/-- The number of survivors that SH and SN name (R170). -/
def survivorCount (a : Aux) : Nat :=
  (List.range 8).countP (fun i => a.sSh.getLsbD i) + (List.range 32).countP (fun i => a.sSn.getLsbD i)
/-- Elements of a narrow format in one entry (R233). -/
def perEntry : Fmt → Nat
  | .f16 | .bf16 => 2
  | .e2m1 => 8
  | .e4m3 | .e5m2 | .i8 | .u8 | .e3m2 | .e2m3 => 4
  | _ => 1
/-- VEC of LD, ST, LDS and STS: elements of a vector access (R249). -/
def vecCount (sub : BitVec 7) : Nat := 2 ^ (sub.extractLsb' 0 2).toNat
/-- N of ACRD: slices read (R294). -/
def acrdCount (x : BitVec 46) : Nat := 4 ^ (x.extractLsb' 6 2).toNat

/-! ### What each word accepts -/

/-- Levels an operand field accepts. `u` stands for a uniform special. -/
inductive Lev where
  | h | n | m | w | s | k | u | lit | q | o | t
deriving DecidableEq, Repr

/-- One operand field: the levels it accepts, the entries it spans, whether it names a 64-bit pair (R142, R218). -/
structure Lv where
  allow : List Lev
  span : Nat
  pair : Bool
deriving DecidableEq, Repr

/-- How a destination meets W and S (R161). -/
inductive DstUni where
  | listed     -- exactly the listed levels
  | laneWise   -- W and S too when every source is uniform
  | laneW      -- W too when every source is uniform (R202, R235)
deriving DecidableEq, Repr

/-- What one word, at given TYPE, MOD and AUX, accepts. -/
structure Sig where
  types : List Fmt
  modOk : Bool
  keepOk : Bool
  guard7 : Bool
  d : Option Lv
  dUni : DstUni
  a : Option Lv
  b : Option Lv
  c : Option Lv
  extra : Bool
deriving DecidableEq, Repr

def anySrc : List Lev := [.h, .n, .m, .w, .s, .k, .lit]
def uniSrc : List Lev := [.w, .s, .u, .lit]
def entryLev : List Lev := [.h, .n, .m, .w, .s]
def hnm : List Lev := [.h, .n, .m]
def hnmw : List Lev := [.h, .n, .m, .w]
def hnmws : List Lev := [.h, .n, .m, .w, .s]
def qlit : List Lev := [.q, .lit]

def src1 : Option Lv := some ⟨anySrc, 1, false⟩
def srcP (p : Bool) : Option Lv := some ⟨anySrc, 1, p⟩
def uni1 : Option Lv := some ⟨uniSrc, 1, false⟩
def dst1 : Option Lv := some ⟨hnm, 1, false⟩
def dstP (p : Bool) : Option Lv := some ⟨hnm, 1, p⟩
def lv (l : List Lev) : Option Lv := some ⟨l, 1, false⟩
def lvs (l : List Lev) (n : Nat) : Option Lv := some ⟨l, n, false⟩
def lvp (l : List Lev) : Option Lv := some ⟨l, 1, true⟩

/-- A word with no operands whose TYPE and MOD are reserved. -/
def Sig.base : Sig :=
  ⟨[], false, false, false, none, .listed, none, none, none, true⟩

def reservedMod (md : BitVec 4) : Bool := md = 0

/-- A class 001 word (R205): KEEP accepted, MOD is SAT alone. -/
def sigInt (types : List Fmt) (sat : Bool) (n : Nat) (ty : Fmt) (md : BitVec 4) : Sig :=
  { Sig.base with
    types, keepOk := true, dUni := .laneWise
    modOk := md.extractLsb' 0 3 = 0 && (sat || !satOf md)
    d := dstP (fmt64 ty), a := srcP (fmt64 ty)
    b := if 2 ≤ n then srcP (fmt64 ty) else none
    c := if 3 ≤ n then srcP (fmt64 ty) else none }

/-- RM and SAT as the table of R221 accepts them: rounding modes up to `rm`, SAT or not. -/
def fpMod (rm : Nat) (sat : Bool) (md : BitVec 4) : Bool := rmOf md ≤ rm && (sat || !satOf md)

/-- A class 011 or 100 word with n single-entry sources (R221). -/
def sigFp (types : List Fmt) (rm : Nat) (sat : Bool) (n : Nat) (md : BitVec 4) : Sig :=
  { Sig.base with
    types, keepOk := true, dUni := .laneWise, modOk := fpMod rm sat md
    d := dst1, a := src1
    b := if 2 ≤ n then src1 else none
    c := if 3 ≤ n then src1 else none }

/-- A P-layout word: which of TT, PB, PA, PD it leaves reserved. -/
def pReserved (aux : Aux) (tt pb pa pd : Bool) : Bool :=
  (!tt || aux.pTt = 0) && (!pb || aux.pPb = 0) && (!pa || aux.pPa = 0) && (!pd || aux.pPd = 0)

def narrow8 : List Fmt := [.e4m3, .e5m2, .e3m2, .e2m3, .e2m1, .i8]
def intFmt : Fmt → Bool := fun t => t ∈ [Fmt.u32, .i32, .u64, .i64, .i8, .u8]

/-- Element types of LD, ST, LDS and STS (R249). -/
def memTypes : List Fmt := [.u8, .i8, .e4m3, .e5m2, .f16, .bf16, .u32, .i32, .f32, .u64, .i64]

/-- Entries that the data operand of a load or store spans (R249). -/
def memSpan (ty : Fmt) (sub : BitVec 7) : Nat := if fmt64 ty then 2 * vecCount sub else vecCount sub

/-- LD, LDS, ST and STS: checks of R249 and R253 on SUB, ORDER, VEC and O64. -/
def memExtra (ty : Fmt) (md : BitVec 4) (aux : Aux) : Bool :=
  aux.mOrder = 0 && aux.mSub.extractLsb' 2 5 = 0 && aux.mSub.extractLsb' 0 2 ≠ 3 &&
  (aux.mSub.extractLsb' 0 2 = 0 || 32 ≤ fmtBits ty) && (aux.mXp || !o64m md)

def offOpd (xp o64 : Bool) : Option Lv := if xp then srcP o64 else none

def sigLoad (trk : Bool) (ty : Fmt) (md : BitVec 4) (aux : Aux) : Sig :=
  { Sig.base with
    types := memTypes, modOk := md.getLsbD 3 = false && md.getLsbD 2 = false && md.getLsbD 0 = trk
    d := some ⟨if aux.mXp then hnm else hnmw, memSpan ty aux.mSub, fmt64 ty⟩
    a := offOpd aux.mXp (o64m md), extra := memExtra ty md aux }

def sigStore (ty : Fmt) (md : BitVec 4) (aux : Aux) : Sig :=
  { Sig.base with
    types := memTypes, modOk := md.getLsbD 3 = false && md.getLsbD 2 = false && md.getLsbD 0 = false
    a := offOpd aux.mXp (o64m md), b := some ⟨anySrc, memSpan ty aux.mSub, fmt64 ty⟩
    extra := memExtra ty md aux }

/-- ATOM and ATOMD (R262): `wide` for ATOMD. -/
def sigAtom (wide cas : Bool) (types : List Fmt) (md : BitVec 4) (aux : Aux) : Sig :=
  { Sig.base with
    types, modOk := 1 ≤ scopeOf md && scopeOf md ≤ 4
    d := if aux.mSub.getLsbD 0 then dstP wide else none
    a := offOpd aux.mXp (o64c md), b := srcP wide, c := if cas then srcP wide else none
    extra := aux.mOrder ≤ 4 && aux.mSub.extractLsb' 2 5 = 0 && (aux.mXp || !o64c md) }

def sigReds (types : List Fmt) (md : BitVec 4) (aux : Aux) : Sig :=
  { Sig.base with
    types, modOk := scopeOf md = 3 || scopeOf md = 4
    a := offOpd aux.mXp (o64c md), b := src1
    extra := (aux.mOrder = 0 || aux.mOrder = 2) && aux.mSub = 0 && (aux.mXp || !o64c md) }

/-- CPY (`q` false) and CPYQ (R272). -/
def sigCopy (q : Bool) (md : BitVec 4) (aux : Aux) : Sig :=
  let dd := aux.mSub.extractLsb' 0 2 = 2
  { Sig.base with
    modOk := scopeOf md = 0
    d := if aux.mSub.getLsbD 2 then lv [.w] else none
    a := if q then offOpd aux.mXp (o64c md) else none
    b := if q then src1 else some ⟨uniSrc, 1, dd && o64c md⟩
    c := if q then src1 else uni1
    extra := aux.mOrder = 0 && aux.mSub.extractLsb' 0 2 ≠ 3 && (aux.mSub.getLsbD 2 || aux.mSub.extractLsb' 3 4 = 0) &&
      (if q then aux.mXp || !o64c md else !aux.mXp && (dd || !o64c md)) }

/-- Seams: at most eight survivors, and which SUB bits are reserved (R170). -/
def seamExtra (aux : Aux) (subOk : Bool) : Bool := survivorCount aux ≤ 8 && subOk

def waveUni (types : List Fmt) (d a b c : Option Lv) (modOk extra : Bool) : Sig :=
  { Sig.base with types, d, a, b, c, modOk, extra }

/-- A sequencer word (R179): MOD reserved unless named. -/
def sigSeq (types : List Fmt) (d a b c : Option Lv) (modOk extra : Bool) : Sig :=
  { Sig.base with types, d, a, b, c, modOk, extra, guard7 := true }

/-- Accepted pairs of CVT (R231) with their RM and SAT. -/
def cvtOk (dst src : Fmt) (md : BitVec 4) : Bool :=
  dst ≠ src &&
  (if isFloat src then (if isFloat dst then fpMod 4 true md else fpMod 4 false md)
   else (if isFloat dst then fpMod 4 true md else fpMod 0 true md))

/-- Accepted pairs of PACK (R234). -/
def packOk (dst src : Fmt) (md : BitVec 4) : Bool :=
  if dst = src then dst ∈ ([.e4m3, .e5m2, .e3m2, .e2m3, .e2m1, .i8, .u8] : List Fmt) && md = 0
  else if src = .f32 then dst ∈ ([.f16, .bf16, .e4m3, .e5m2, .e3m2, .e2m3, .e2m1] : List Fmt) && fpMod 4 true md
  else src = .i32 && (dst = .i8 || dst = .u8) && fpMod 0 true md

/-- Accepted pairs of UNPK (R221, R235). -/
def unpkOk (dst src : Fmt) (md : BitVec 4) : Bool :=
  src ∈ ([.e4m3, .e5m2, .e3m2, .e2m3, .e2m1, .i8, .u8] : List Fmt) && fpMod 4 true md &&
  (if src = .i8 || src = .u8 then dst = .i32 else true)

/-- Entries that UNPK writes (R235). -/
def unpkSpan (dst src : Fmt) : Nat := max 1 (perEntry src / perEntry dst)

/-- A system register of R171 that SRD reads. -/
def srdReg (r : Nat) : Bool := r ∈ [0x000, 0x001, 0x002, 0x003, 0x004, 0x008, 0x009, 0x010, 0x011, 0x020]

/-- A per-lane system register (R171). -/
def laneReg (r : Nat) : Bool := r = 0x008 || r = 0x020

/-- What each word accepts, by its name, TYPE, MOD and AUX. That the scale-record pair B of QNT and DQNT may name an odd index, as
BSCALE's D may, is the model's choice (log 16). -/
def sig (o : Op) (ty : Fmt) (md : BitVec 4) (aux : Aux) : Sig :=
  let z := reservedMod md
  let i32s : List Fmt := [.u32, .i32]
  let i64s : List Fmt := [.u32, .i32, .u64, .i64]
  let x := aux.xBits
  let q0 := aux.qSub = 0
  match o with
  -- class 000 (R186 to R194)
  | .nop | .exit => { Sig.base with modOk := z }
  | .bra => { Sig.base with modOk := z, extra := aux.bJoin = 0 }
  | .brd => { Sig.base with modOk := z }
  | .join | .yield => { Sig.base with modOk := z, guard7 := true }
  | .call => { Sig.base with modOk := z, d := dst1, extra := aux.bJoin = 0 }
  | .ret | .jmpx => { Sig.base with modOk := z, a := src1 }
  | .seam => { Sig.base with
      modOk := z, a := if aux.sSub.getLsbD 0 then lv hnmw else none
      extra := seamExtra aux (aux.sSub.extractLsb' 1 5 = 0) }
  | .voteAny | .voteAll | .voteEq => { Sig.base with modOk := z, extra := pReserved aux true true false false }
  | .voteBal => { Sig.base with modOk := z, d := lvp hnmw, extra := pReserved aux true true false true }
  -- class 001 (R206)
  | .iadd | .isub | .imul => sigInt i64s true 2 ty md
  | .iaddc => { sigInt [.u32] false 2 ty md with extra := pReserved aux true true false false }
  | .imulh => sigInt i32s false 2 ty md
  | .imad => sigInt i32s true 3 ty md
  | .imin | .imax => sigInt i64s false 2 ty md
  | .iabs => sigInt [.i32, .i64] true 1 ty md
  | .iclamp => sigInt i32s false 3 ty md
  | .and | .or | .xor | .andn => sigInt [.u32, .u64] false 2 ty md
  | .shl | .shr | .rot => sigInt [.u32] false 2 ty md
  | .sar => sigInt [.i32] false 2 ty md
  | .bfx => sigInt i32s false 2 ty md
  | .bfi => sigInt [.u32] false 3 ty md
  | .popc | .clz | .brev => sigInt [.u32] false 1 ty md
  -- class 010 (R195 to R216)
  | .mov => { Sig.base with
      types := [.u32, .u64], modOk := z, keepOk := true, d := dstP (fmt64 ty), dUni := .laneWise
      a := srcP (fmt64 ty) }
  | .movw => waveUni [] (lv [.w]) src1 none none z true
  | .movq => { Sig.base with modOk := z, d := lvs hnm 4, dUni := .laneW, a := lvs entryLev 4 }
  | .ldi => waveUni [] (lv hnmws) none none none z (!aux.iBrk)
  | .lda => waveUni [] none (lvs [.w] 3) none none z
      (!aux.mXp && aux.mOrder = 0 && aux.mSub = 0)
  | .aadd => waveUni [] none (if aux.mXp then uni1 else none) none none z
      (aux.mOrder = 0 && aux.mSub.extractLsb' 3 4 = 0)
  | .amov => waveUni [] (lvs [.w] 3) none none none z
      (!aux.mXp && aux.mOrder = 0 && aux.mSub.extractLsb' 3 4 = 0 && aux.mBase = 0 && aux.mImm = 0)
  | .pset => { Sig.base with
      types := i64s, modOk := md.toNat ≤ 5, keepOk := true, a := srcP (fmt64 ty), b := srcP (fmt64 ty)
      extra := pReserved aux true true true false }
  | .plog => { Sig.base with modOk := z }
  | .pmovPv => { Sig.base with
      modOk := z, d := dst1, dUni := .laneWise, extra := aux.pTt = 0 && pReserved aux false true false true }
  | .pmovVp => { Sig.base with modOk := z, a := src1, extra := aux.pTt = 1 && pReserved aux false true true false }
  | .pmovSave => { Sig.base with
      modOk := z, d := dst1, dUni := .laneWise, extra := aux.pTt = 2 && pReserved aux false true true true }
  | .pmovLoad => { Sig.base with modOk := z, a := src1, extra := aux.pTt = 3 && pReserved aux false true true true }
  | .sel => { Sig.base with
      types := [.u32, .u64], modOk := z, keepOk := true, d := dstP (fmt64 ty), dUni := .laneWise
      a := srcP (fmt64 ty), b := srcP (fmt64 ty), extra := pReserved aux true true false true }
  | .prisel => { Sig.base with modOk := z, d := lv hnmw, a := src1, extra := pReserved aux true true true false }
  | .xlXor | .xlUp | .xlDown => { Sig.base with modOk := z, d := dst1, dUni := .laneWise, a := src1, b := uni1 }
  | .xlIdx => { Sig.base with modOk := z, d := dst1, dUni := .laneWise, a := src1, b := src1 }
  | .qxH | .qxV | .qxD => { Sig.base with modOk := z, d := dst1, dUni := .laneWise, a := src1 }
  | .rstep => { Sig.base with
      types := [.u32, .i32, .f32], modOk := md.toNat ≤ (if ty = .f32 then 2 else 5)
      d := dst1, dUni := .laneWise, a := src1, b := uni1 }
  | .red => { Sig.base with
      types := [.u32, .i32, .f32], modOk := md.toNat ≤ (if ty = .f32 then 2 else 5), d := lv hnmw, a := src1 }
  | .scan => { Sig.base with
      types := [.u32, .i32, .f32], modOk := md.toNat ≤ (if ty = .f32 then 2 else 5)
      d := dst1, dUni := .laneWise, a := src1 }
  | .srd => waveUni [] (if laneReg aux.gReg then dst1 else lv hnmws) none none none z (srdReg aux.gReg)
  | .swr => waveUni [] none (if aux.gReg = 0x009 then uni1 else src1) none none z
      (aux.gReg = 0x008 || aux.gReg = 0x009)
  -- class 011 (R221)
  | .fadd | .fsub | .fmul => sigFp [.f32] 4 true 2 md
  | .ffma => sigFp [.f32] 4 true 3 md
  | .fmin | .fmax | .fminProp | .fmaxProp => sigFp [.f32] 0 false 2 md
  | .fcmp => { Sig.base with
      types := [.f32], modOk := md.toNat ≤ 7, keepOk := true, a := src1, b := src1
      extra := pReserved aux true true true false }
  | .fclass => sigFp [.f32] 0 false 1 md
  | .frnd => sigFp [.f32] 4 false 1 md
  | .fscale => sigFp [.f32] 4 true 2 md
  | .hadd2 | .hmul2 => sigFp [.f16, .bf16] 4 true 2 md
  | .hfma2 => sigFp [.f16, .bf16] 4 true 3 md
  | .dot4 => sigFp [.e4m3, .e5m2, .f16, .bf16] 4 true 3 md
  | .idot4 => sigFp [.i8, .u8] 0 true 3 md
  -- class 100 (R221, R231 to R246)
  | .cvt => { sigFp [ty] 4 true 1 md with
      modOk := cvtOk ty aux.fFmt md, d := dstP (fmt64 ty), a := srcP (fmt64 aux.fFmt) }
  | .cvts => { sigFp [ty] 4 true 2 md with
      modOk := isFloat aux.fFmt && fpMod 4 (isFloat ty) md && (isFloat ty || ty ∈ ([.i32, .u32, .i8, .u8] : List Fmt)) }
  | .pack => { sigFp [ty] 4 true 1 md with
      modOk := packOk ty aux.fFmt md, a := lvs entryLev (perEntry ty) }
  | .unpk => { sigFp [.f32, .f16, .bf16, .e4m3, .e5m2, .i32] 4 true 1 md with
      modOk := unpkOk ty aux.fFmt md, dUni := .laneW, d := lvs hnm (unpkSpan ty aux.fFmt)
      b := if aux.fFmt = .e2m1 then some ⟨[.h, .n, .m, .w, .s, .lit, .u], 1, false⟩ else none }
  | .bscale => { sigFp narrow8 0 false 1 md with
      keepOk := false, dUni := .listed, d := lvs hnm 2, b := lv [.lit], extra := aux.fFmt = .f32 }
  | .qnt => { sigFp narrow8 4 true 1 md with b := lvs entryLev 2, extra := aux.fFmt = .f32 }
  | .dqnt => { sigFp [.f32, .f16, .bf16] 4 true 1 md with b := lvs entryLev 2, extra := aux.fFmt ∈ narrow8 }
  | .rcp | .rsq | .exp2 | .log2 | .sin | .cos | .tanh => sigFp [.f32] 0 false 1 md
  | .sqrt => sigFp [.f32] 4 false 1 md
  | .wupd => { sigFp [.f32] 0 false 1 md with dUni := .listed, d := lvs hnm 3 }
  | .wmrg => { sigFp [.f32] 0 false 1 md with dUni := .listed, d := lvs hnm 3, a := lvs hnmw 3 }
  | .wfin => { sigFp [.f32] 0 false 2 md with dUni := .listed, d := lvs hnm 2, a := lvs entryLev 3 }
  | .rng => { sigFp [.u32, .f32] 0 false 1 md with keepOk := false, dUni := .listed, a := none }
  -- class 101 (R249 to R257)
  | .ld => sigLoad false ty md aux
  | .ldTrk => sigLoad true ty md aux
  | .lds => sigLoad false ty md aux
  | .ldt => { Sig.base with
      types := [.u8, .i8, .e4m3, .e5m2, .e3m2, .e2m3, .e2m1, .f16, .bf16, .u32, .i32, .f32], modOk := z
      d := dst1, b := uni1, extra := !aux.mXp && aux.mOrder = 0 && aux.mSub.extractLsb' 1 6 = 0 }
  | .pref => { Sig.base with
      modOk := md.getLsbD 3 = false && md.getLsbD 2 = false && md.getLsbD 0 = false
      a := offOpd aux.mXp (o64m md)
      extra := aux.mOrder = 0 && aux.mSub.extractLsb' 1 6 = 0 && (aux.mXp || !o64m md) }
  | .st | .sts => sigStore ty md aux
  -- class 110 (R258 to R275)
  | .commitBlk => { Sig.base with modOk := md = 0b0010 }
  | .commitGang => { Sig.base with modOk := md = 0b0100 }
  | .commitDev => { Sig.base with modOk := md = 0b0110 }
  | .commitSys => { Sig.base with modOk := md = 0b1000 }
  | .commitChkBlk => { Sig.base with modOk := md = 0b0010, d := lv hnmw }
  | .commitChkGangDev => { Sig.base with modOk := md = 0b0100 || md = 0b0110, d := lv hnmw }
  | .commitChkSys => { Sig.base with modOk := md = 0b1000, d := lv hnmw }
  | .abortWave => { Sig.base with modOk := md = 0b0000 }
  | .abortBlk => { Sig.base with modOk := md = 0b0010 }
  | .abortGang => { Sig.base with modOk := md = 0b0100 }
  | .fence => { Sig.base with
      modOk := scopeOf md ≤ 4 && !o64c md
      extra := aux.mBase = 0 && aux.mImm = 0 && !aux.mXp && aux.mSub = 0 && 1 ≤ aux.mOrder && aux.mOrder ≤ 4 }
  | .atomAdd | .atomMin | .atomMax => sigAtom false false i32s md aux
  | .atomFadd => sigAtom false false [.f32] md aux
  | .atomAnd | .atomOr | .atomXor | .atomIncw => sigAtom false false [.u32] md aux
  | .atomXchg => sigAtom false false [.u32, .f32] md aux
  | .atomCas => sigAtom false true [.u32] md aux
  | .atomdAdd | .atomdMin | .atomdMax => sigAtom true false [.u64, .i64] md aux
  | .atomdFadd => sigAtom true false [.f32] md aux
  | .atomdAnd | .atomdOr | .atomdXor | .atomdXchg | .atomdIncw => sigAtom true false [.u64] md aux
  | .atomdCas => sigAtom true true [.u64] md aux
  | .redsAdd | .redsMin | .redsMax => sigReds i32s md aux
  | .redsFadd => sigReds [.f32] md aux
  | .redsAnd | .redsOr | .redsXor => sigReds [.u32] md aux
  | .dphaseOpen => { Sig.base with modOk := z }
  | .dphaseClose => { Sig.base with modOk := z, d := lv hnmw }
  | .wcnt => { Sig.base with
      modOk := z, a := uni1
      extra := seamExtra aux (aux.sSub.extractLsb' 3 3 = 0 && (aux.sSub.extractLsb' 0 3).toNat ≤ 4) }
  | .cpyw => { Sig.base with modOk := z, a := uni1, extra := seamExtra aux (aux.sSub = 0) }
  | .bara => { Sig.base with
      modOk := z, a := uni1, extra := aux.sSh = 0 && aux.sSn = 0 && aux.sSub.extractLsb' 4 2 = 0 }
  | .barw => { Sig.base with modOk := z, extra := seamExtra aux (aux.sSub.extractLsb' 4 2 = 0) }
  | .bars => { Sig.base with modOk := z, a := uni1, extra := seamExtra aux (aux.sSub.extractLsb' 4 2 = 0) }
  | .gbar | .xbar => { Sig.base with modOk := z, a := uni1, extra := seamExtra aux (aux.sSub = 0) }
  | .cpy => sigCopy false md aux
  | .cpyq => sigCopy true md aux
  | .vsred => { Sig.base with types := [.f32, .u32], modOk := z, b := src1 }
  | .vsrd => { Sig.base with modOk := z, d := lv hnmw }
  | .vscl => { Sig.base with modOk := z }
  -- sequencer words (R282 to R291)
  | .mres => sigSeq [.e4m3, .e5m2, .e3m2, .e2m3, .e2m1, .i8, .f16, .bf16] (lv [.o]) (lv qlit) (lv qlit)
      (if aux.qSub.extractLsb' 0 2 = 0 then none else lv qlit) z
      (aux.qTgt = 0 && aux.qSub.extractLsb' 2 21 = 0 && (aux.qSub.extractLsb' 0 2 = 0 || (ty ≠ .f16 && ty ≠ .bf16)))
  | .mrel => sigSeq [] (lv [.o]) none none none z (aux.qTgt = 0 && q0)
  | .mld => sigSeq [] (lv [.o]) (lv qlit) (if aux.qSub.getLsbD 1 then none else lv qlit) (lv qlit) z
      (aux.qTgt = 0 && aux.qSub.extractLsb' 2 21 = 0 && aux.qSub.extractLsb' 0 2 ≠ 3)
  | .mma => sigSeq [] (lv [.t]) (lv [.o]) (lv [.o]) (lv qlit) z (aux.qTgt = 0 && q0)
  | .mza => sigSeq [] (lv [.t]) none none none z (aux.qTgt = 0 && q0)
  | .mpred => sigSeq [] none (lv qlit) (lv qlit) (lv qlit) z (aux.qTgt = 0 && q0)
  | .msig => sigSeq [] none (lv qlit) none none z (aux.qTgt = 0 && aux.qSub.extractLsb' 4 19 = 0)
  | .mwait => sigSeq [] none none none none z (aux.qTgt = 0 && aux.qSub.extractLsb' 4 19 = 0)
  | .mloopDec => sigSeq [] (lv [.q]) none none none z q0
  | .mloopJmp => sigSeq [] none none none none z (aux.qSub = 1)
  | .mloopSet => sigSeq [] (lv [.q]) (lv qlit) none none z (aux.qTgt = 0 && aux.qSub = 2)
  | .mloopAdd => sigSeq [] (lv [.q]) (lv qlit) none none z (aux.qTgt = 0 && aux.qSub = 3)
  | .mst => sigSeq [.f32, .f16, .bf16, .e4m3, .e5m2] none (lv [.t]) (lv qlit) (lv qlit) (fpMod 3 true md)
      (aux.qTgt = 0 && aux.qSub.extractLsb' 1 22 = 0)
  | .mend => sigSeq [] none none none none z (aux.qTgt = 0 && q0)
  -- class 111, wave words (R293 to R316)
  | .obst => waveUni [] none (some ⟨hnm, 1, x.getLsbD 5⟩) uni1 none z (x.extractLsb' 6 40 = 0)
  | .acrd => waveUni [] (lvs [.m] (acrdCount x)) none uni1 none z
      (x.extractLsb' 8 38 = 0 && x.extractLsb' 6 2 ≠ 3)
  | .trap => waveUni [] none none none none z true
  | .rtt | .halt | .icinv => waveUni [] none none none none z true
  | .sleept => waveUni [] none uni1 none none z true
  | .wpset => waveUni [] none (lvs [.w] 8) none none z (x.extractLsb' 4 42 = 0)
  | .wpclr => waveUni [] none uni1 none none z (x.extractLsb' 4 42 = 0)
  | .wprd => waveUni [] (lv hnmw) uni1 none none z
      (x.extractLsb' 8 38 = 0 && (x.extractLsb' 4 4).toNat ≤ 9)
  | .hrd => waveUni [] (lv hnmw) (lv [.w, .s, .u]) uni1 none z (x = 0)
  | .hwr => waveUni [] (lv hnmw) (lv [.w, .s, .u]) uni1 src1 z (x = 0)
  | .hstep | .hrun => waveUni [] (lv hnmw) (lv [.w, .s, .u]) uni1 none z (x = 0)
  | .hstat => waveUni [] (lvs [.w] 16) (lv [.w, .s, .u]) none none z (x = 0)
  | .dbmw => waveUni [] none (srcP true) none none z (x.extractLsb' 4 42 = 0)
  | .dbmr => waveUni [] (lvp hnmw) none none none z (x.extractLsb' 4 42 = 0)
  | .rmark => waveUni [] none none none none z (!aux.iBrk)

/-! ### The checks of R164 -/

/-- What the decoder knows of the issuer: its stream, its context's privilege, and its kernel's allocations. -/
structure DecEnv where
  seq : Bool
  priv : Bool
  mAlloc : Nat
  sWords : Nat
  tiles : Nat
deriving DecidableEq, Repr

/-- The widest environment: a privileged wave with every entry allocated. -/
def DecEnv.full (seq : Bool) : DecEnv := ⟨seq, true, 512, 512, 64⟩

/-- The decode faults, in the order of R164. -/
inductive DecFault where
  | illop | illctx | illfld | illlev
deriving DecidableEq, Repr

/-- The level code of an operand field: H, N, M and W entries carry full/empty state (R25, R48). -/
def carriesState (f : BitVec 12) : Bool := (f.extractLsb' 9 3).toNat ≤ 3

/-- The empty-behaviour bits of R25: each set bit belongs to a source that is present and carries state; a sequencer word has
none (R179). ACRD's bit 56 is its tile's (R294). -/
def ebOk (o : Op) (g : Sig) (eb : BitVec 3) (fa fb fc : BitVec 12) : Bool :=
  (eb = 0 || !isSeqOp o) && (!eb.getLsbD 2 || o = .acrd || (g.a.isSome && carriesState fa)) &&
  (!eb.getLsbD 1 || (g.b.isSome && carriesState fb)) && (!eb.getLsbD 0 || (g.c.isSome && carriesState fc))

/-- KEEP names a source that is present, and a target that is no H entry that the instruction writes (R26, R218). DESIGN CHOICE
(log 70): words of classes 110 and 111 take no KEEP. -/
def keepOk (g : Sig) (keep : Option (KeepSel × Fin 8)) (pair : Bool) (fd : BitVec 12) : Bool :=
  match keep with
  | none => true
  | some (x, tgt) =>
    g.keepOk &&
    (match x with | .a => g.a.isSome | .b => g.b.isSome | .c => g.c.isSome) &&
    (match g.d with
     | none => true
     | some l => !((fd.extractLsb' 9 3).toNat = 0 && (fd.extractLsb' 0 9).toNat ≤ tgt.val &&
         tgt.val < (fd.extractLsb' 0 9).toNat + (if pair && l.span = 1 then 2 else l.span)))

/-- Checks that one word makes on a field beyond its signature: BSCALE's literal L (R236), SEAM's survivor source
(R192). -/
def extraFld (o : Op) (aux : Aux) (fa fb : BitVec 12) : Bool :=
  match o with
  | .bscale => fb = 0xC10 || fb = 0xC20 || fb = 0xC40
  | .seam => !aux.sSub.getLsbD 0 ||
      (match waveOpd fa with
       | some (.h i) => aux.sSh.getLsbD i.val
       | some (.n i) => aux.sSn.getLsbD i.val
       | _ => true)
  | _ => true

/-- Step 3 of R164: the word holds no field value that it does not accept. -/
def fieldsOk (o : Op) (gd : Guard) (keep : Option (KeepSel × Fin 8)) (eb : BitVec 3) (ty : Fmt) (md : BitVec 4)
    (aux : Aux) (fd fa fb fc : BitVec 12) : Bool :=
  let g := sig o ty md aux
  !(gd.neg && gd.p = 7) && (!g.guard7 || (gd.p = 7 && !gd.neg)) &&
  (if g.types = [] then ty = .u32 else ty ∈ g.types) && g.modOk && g.extra &&
  (g.d.isSome || fd = 0) && (g.a.isSome || fa = 0) && (g.b.isSome || fb = 0) && (g.c.isSome || fc = 0) &&
  keepOk g keep (match g.d with | some l => l.pair | none => false) fd && ebOk o g eb fa fb fc && extraFld o aux fa fb

/-- The level of an operand, a uniform special counting as both k and u. -/
def levIn (l : List Lev) : Opd → Bool
  | .h _ => .h ∈ l
  | .n _ => .n ∈ l
  | .m _ => .m ∈ l
  | .w _ => .w ∈ l
  | .s _ => .s ∈ l
  | .k x => .k ∈ l || (specialUniform x && .u ∈ l)
  | .lit _ => .lit ∈ l
  | .q _ => .q ∈ l
  | .o _ => .o ∈ l
  | .t _ => .t ∈ l

/-- The index and the range of an operand that names entries (R161); none for K, literals and handles. -/
def opdRange (e : DecEnv) : Opd → Option (Nat × Nat)
  | .h i => some (i.val, 8)
  | .n i => some (i.val, 32)
  | .m i => some (i.val, e.mAlloc)
  | .w i => some (i.val, 128)
  | .s i => some (i.val, e.sWords)
  | .t i => some (i.val, e.tiles)
  | _ => none

/-- An operand within its level, its range and its span, with an even index when it names a pair (R142, R161, R218). -/
def opdOk (e : DecEnv) (l : Lv) (p : Opd) : Bool :=
  levIn l.allow p &&
  (match opdRange e p with
   | none => true
   | some (i, n) => i + (if l.pair && l.span = 1 then 2 else l.span) ≤ n && (!l.pair || i % 2 = 0))

/-- A source that makes a lane-wise result uniform (R161). -/
def uniformOpd : Opd → Bool
  | .w _ | .s _ | .lit _ => true
  | .k x => specialUniform x
  | _ => false

def optOk (e : DecEnv) (l : Option Lv) (p : Option Opd) : Bool :=
  match l, p with
  | none, none => true
  | some l, some p => opdOk e l p
  | _, _ => false

/-- Step 4 of R164: every operand field obeys R161 or R163. -/
def levelsOk (e : DecEnv) (g : Sig) (d a b c : Option Opd) : Bool :=
  let uniform := [a, b, c].all fun x => match x with | some y => uniformOpd y | none => true
  optOk e g.a a && optOk e g.b b && optOk e g.c c &&
  (match g.d, d with
   | none, none => true
   | some l, some p =>
     (match g.dUni with
      | .listed => opdOk e l p
      | .laneWise => opdOk e { l with allow := .w :: .s :: l.allow } p && (levIn l.allow p || uniform)
      | .laneW => opdOk e { l with allow := .w :: l.allow } p && (levIn l.allow p || uniform))
   | _, _ => false)

/-- The 12-bit field of an operand that may be absent (R160). -/
def optField : Option Opd → BitVec 12
  | none => 0
  | some p => opdField p

/-- Steps 2 to 4 of R164 on a named word with its fields: the first fault, or none. -/
def legal (e : DecEnv) (o : Op) (x : Body) : Option DecFault :=
  if (isSeqOp o != e.seq && o ≠ .nop) || (isPrivOp o && !e.priv) then some .illctx
  else if !fieldsOk o x.guard x.keep x.eb x.ty x.md x.aux (optField x.d) (optField x.a) (optField x.b) (optField x.c)
      || auxLayout x.aux ≠ layoutOf o then some .illfld
  else if !levelsOk e (sig o x.ty x.md x.aux) x.d x.a x.b x.c then some .illlev
  else none

end Sys2Proof.Machine
end

