-- ==== Sys2Proof/WellFormed.lean ====
section
/-! DEFINITION. When an instruction is well formed: a word whose fields pass the decode checks of R164 in the issuer's
environment. The checks themselves are `Machine.legal`; an event carries no encoded field and is always well formed. -/

namespace Sys2Proof

/-- A word that breaks no rule of R164 in environment `e`. -/
def Instr.wellFormed (e : Machine.DecEnv) (i : Instr) : Bool :=
  match Machine.opOf i with
  | none => true
  | some (o, x) => Machine.legal e o x = none

end Sys2Proof
end

