-- ==== Sys2Proof/Decode.lean ====
section
/-! DEFINITION. From 16 little-endian bytes to an instruction or to the one fault of R164 that the word takes, and
back: the fields of R159, the opcode map of R172 to R176, and the encoder written from the same tables. -/

namespace Sys2Proof

/-- The named words under an OP and FN, by the key 64 × OP + FN (R172 to R176); none where the pair is unassigned
(R177). -/
def opsAt (key : Nat) : List Op :=
  match key with
  | 64 => [.nop]
  | 128 => [.bra]
  | 192 => [.brd]
  | 256 => [.join]
  | 320 => [.call]
  | 384 => [.ret]
  | 448 => [.jmpx]
  | 512 => [.exit]
  | 576 => [.seam]
  | 640 => [.yield]
  | 704 => [.voteAny]
  | 705 => [.voteAll]
  | 706 => [.voteBal]
  | 707 => [.voteEq]
  | 2048 => [.iadd]
  | 2049 => [.isub]
  | 2050 => [.iaddc]
  | 2112 => [.imul]
  | 2113 => [.imulh]
  | 2114 => [.imad]
  | 2176 => [.imin]
  | 2177 => [.imax]
  | 2178 => [.iabs]
  | 2179 => [.iclamp]
  | 2240 => [.and]
  | 2241 => [.or]
  | 2242 => [.xor]
  | 2243 => [.andn]
  | 2304 => [.shl]
  | 2305 => [.shr]
  | 2306 => [.sar]
  | 2307 => [.rot]
  | 2368 => [.bfx]
  | 2369 => [.bfi]
  | 2432 => [.popc]
  | 2433 => [.clz]
  | 2434 => [.brev]
  | 4096 => [.mov]
  | 4097 => [.movw]
  | 4098 => [.movq]
  | 4160 => [.ldi]
  | 4224 => [.lda]
  | 4225 => [.aadd]
  | 4226 => [.amov]
  | 4288 => [.pset]
  | 4289 => [.plog]
  | 4290 => [.pmovPv, .pmovVp, .pmovSave, .pmovLoad]
  | 4291 => [.sel]
  | 4292 => [.prisel]
  | 4352 => [.xlXor]
  | 4353 => [.xlUp]
  | 4354 => [.xlDown]
  | 4355 => [.xlIdx]
  | 4416 => [.qxH]
  | 4417 => [.qxV]
  | 4418 => [.qxD]
  | 4480 => [.rstep]
  | 4481 => [.red]
  | 4482 => [.scan]
  | 4544 => [.srd]
  | 4545 => [.swr]
  | 6144 => [.fadd]
  | 6145 => [.fsub]
  | 6146 => [.fmul]
  | 6147 => [.ffma]
  | 6208 => [.fmin]
  | 6209 => [.fmax]
  | 6210 => [.fminProp]
  | 6211 => [.fmaxProp]
  | 6272 => [.fcmp]
  | 6273 => [.fclass]
  | 6336 => [.frnd]
  | 6337 => [.fscale]
  | 6400 => [.hadd2]
  | 6401 => [.hmul2]
  | 6402 => [.hfma2]
  | 6464 => [.dot4]
  | 6465 => [.idot4]
  | 8192 => [.cvt]
  | 8193 => [.cvts]
  | 8194 => [.pack]
  | 8195 => [.unpk]
  | 8256 => [.bscale]
  | 8257 => [.qnt]
  | 8258 => [.dqnt]
  | 8320 => [.rcp]
  | 8321 => [.rsq]
  | 8322 => [.sqrt]
  | 8323 => [.exp2]
  | 8324 => [.log2]
  | 8325 => [.sin]
  | 8326 => [.cos]
  | 8327 => [.tanh]
  | 8384 => [.wupd]
  | 8385 => [.wmrg]
  | 8386 => [.wfin]
  | 8448 => [.rng]
  | 10240 => [.ld, .ldTrk]
  | 10368 => [.lds]
  | 10496 => [.ldt]
  | 10560 => [.pref]
  | 10304 => [.st]
  | 10432 => [.sts]
  | 12288 => [.commitBlk, .commitGang, .commitDev, .commitSys]
  | 12289 => [.commitChkBlk, .commitChkGangDev, .commitChkSys]
  | 12290 => [.abortWave, .abortBlk, .abortGang]
  | 12291 => [.fence]
  | 12352 => [.atomAdd]
  | 12353 => [.atomFadd]
  | 12354 => [.atomMin]
  | 12355 => [.atomMax]
  | 12356 => [.atomAnd]
  | 12357 => [.atomOr]
  | 12358 => [.atomXor]
  | 12359 => [.atomXchg]
  | 12360 => [.atomCas]
  | 12361 => [.atomIncw]
  | 12416 => [.atomdAdd]
  | 12417 => [.atomdFadd]
  | 12418 => [.atomdMin]
  | 12419 => [.atomdMax]
  | 12420 => [.atomdAnd]
  | 12421 => [.atomdOr]
  | 12422 => [.atomdXor]
  | 12423 => [.atomdXchg]
  | 12424 => [.atomdCas]
  | 12425 => [.atomdIncw]
  | 12480 => [.redsAdd]
  | 12481 => [.redsFadd]
  | 12482 => [.redsMin]
  | 12483 => [.redsMax]
  | 12484 => [.redsAnd]
  | 12485 => [.redsOr]
  | 12486 => [.redsXor]
  | 12544 => [.dphaseOpen]
  | 12545 => [.dphaseClose]
  | 12608 => [.wcnt]
  | 12802 => [.cpyw]
  | 12672 => [.bara]
  | 12673 => [.barw]
  | 12674 => [.bars]
  | 12736 => [.gbar]
  | 12737 => [.xbar]
  | 12800 => [.cpy]
  | 12801 => [.cpyq]
  | 12864 => [.vsred]
  | 12865 => [.vsrd]
  | 12866 => [.vscl]
  | 14336 => [.mres]
  | 14337 => [.mrel]
  | 14400 => [.mld]
  | 14464 => [.mma]
  | 14465 => [.mza]
  | 14528 => [.mpred]
  | 14592 => [.msig]
  | 14593 => [.mwait]
  | 14656 => [.mloopDec, .mloopJmp, .mloopSet, .mloopAdd]
  | 14720 => [.mst]
  | 14784 => [.mend]
  | 14848 => [.obst]
  | 14849 => [.acrd]
  | 15360 => [.trap]
  | 15361 => [.rtt]
  | 15424 => [.halt]
  | 15488 => [.icinv]
  | 15552 => [.sleept]
  | 15616 => [.wpset]
  | 15617 => [.wpclr]
  | 15618 => [.wprd]
  | 15680 => [.hrd]
  | 15681 => [.hwr]
  | 15682 => [.hstep]
  | 15683 => [.hrun]
  | 15684 => [.hstat]
  | 15744 => [.dbmw]
  | 15745 => [.dbmr]
  | 15808 => [.rmark]
  | _ => []

/-- The fields of a 128-bit word (R159). -/
structure RawWord where
  op : BitVec 8
  fn : BitVec 6
  guard : BitVec 4
  d : BitVec 12
  a : BitVec 12
  b : BitVec 12
  c : BitVec 12
  keep : BitVec 2
  ktgt : BitVec 3
  eb : BitVec 3
  ty : BitVec 4
  md : BitVec 4
  aux : BitVec 46
deriving DecidableEq, Repr

/-- Cuts a word into its fields (R159). -/
def rawOf (w : BitVec 128) : RawWord where
  op := w.extractLsb' 120 8
  fn := w.extractLsb' 114 6
  guard := w.extractLsb' 110 4
  d := w.extractLsb' 98 12
  a := w.extractLsb' 86 12
  b := w.extractLsb' 74 12
  c := w.extractLsb' 62 12
  keep := w.extractLsb' 60 2
  ktgt := w.extractLsb' 57 3
  eb := w.extractLsb' 54 3
  ty := w.extractLsb' 50 4
  md := w.extractLsb' 46 4
  aux := w.extractLsb' 0 46

/-- Puts the fields together into a word (R159). -/
def rawWord (r : RawWord) : BitVec 128 :=
  r.op ++ (r.fn ++ (r.guard ++ (r.d ++ (r.a ++ (r.b ++ (r.c ++ (r.keep ++ (r.ktgt ++ (r.eb ++ (r.ty ++ (r.md ++ r.aux)))))))))))

/-- Among the named words of one OP and FN, the one that a sub-field picks: PMOV by TT (R197), LD by TRK (R253),
COMMIT, COMMIT.CHK and ABORT by SCOPE (R258 to R260), MLOOP by SUB (R289). -/
def picks (o : Op) (r : RawWord) : Bool :=
  match o with
  | .pmovPv => r.aux.extractLsb' 9 4 = 0
  | .pmovVp => r.aux.extractLsb' 9 4 = 1
  | .pmovSave => r.aux.extractLsb' 9 4 = 2
  | .pmovLoad => r.aux.extractLsb' 9 4 = 3
  | .ld => r.md.getLsbD 0 = false
  | .ldTrk => r.md.getLsbD 0
  | .commitBlk | .commitChkBlk | .abortBlk => r.md.extractLsb' 1 3 = 1
  | .commitGang | .abortGang => r.md.extractLsb' 1 3 = 2
  | .commitChkGangDev => r.md.extractLsb' 1 3 = 2 || r.md.extractLsb' 1 3 = 3
  | .commitDev => r.md.extractLsb' 1 3 = 3
  | .commitSys | .commitChkSys => r.md.extractLsb' 1 3 = 4
  | .abortWave => r.md.extractLsb' 1 3 = 0
  | .mloopDec => r.aux.extractLsb' 0 2 = 0
  | .mloopJmp => r.aux.extractLsb' 0 2 = 1
  | .mloopSet => r.aux.extractLsb' 0 2 = 2
  | .mloopAdd => r.aux.extractLsb' 0 2 = 3
  | _ => true

/-- The KEEP clause of a word (R26); a target without a clause is not an instruction. -/
def keepOf (keep : BitVec 2) (tgt : BitVec 3) : Option (Option (KeepSel × Fin 8)) :=
  match keep.toNat with
  | 0 => if tgt = 0 then some none else none
  | 1 => some (some (.a, tgt.toFin))
  | 2 => some (some (.b, tgt.toFin))
  | _ => some (some (.c, tgt.toFin))

/-- The KEEP bits and target of a clause (R26). -/
def keepBits : Option (KeepSel × Fin 8) → BitVec 2 × BitVec 3
  | none => (0, 0)
  | some (.a, t) => (1, BitVec.ofFin t)
  | some (.b, t) => (2, BitVec.ofFin t)
  | some (.c, t) => (3, BitVec.ofFin t)

/-- The operand that a present field names, in the levels of the word's stream (R20, R163). -/
def opdOf (seq : Bool) (l : Option Machine.Lv) (f : BitVec 12) : Option (Option Opd) :=
  match l with
  | none => some none
  | some _ => (if seq then Machine.seqOpd f else Machine.waveOpd f).map some

/-- Decodes one word in an environment, or gives the one fault of R164 that it takes. -/
def decodeWord (e : Machine.DecEnv) (w : BitVec 128) : Except Machine.DecFault Instr :=
  let r := rawOf w
  let ops := opsAt (64 * r.op.toNat + r.fn.toNat)
  match ops with
  | [] => .error .illop
  | o0 :: _ =>
    if (Machine.isSeqOp o0 != e.seq && o0 ≠ .nop) || (Machine.isPrivOp o0 && !e.priv) then .error .illctx else
    match ops.find? (fun o => picks o r) with
    | none => .error .illfld
    | some o =>
      match Machine.fmtOf r.ty, Machine.auxOf (Machine.layoutOf o) r.aux, keepOf r.keep r.ktgt with
      | some ty, some aux, some keep =>
        let gd : Guard := ⟨r.guard.getLsbD 3, (r.guard.extractLsb' 0 3).toFin⟩
        if !Machine.fieldsOk o gd keep r.eb ty r.md aux r.d r.a r.b r.c then .error .illfld else
        let g := Machine.sig o ty r.md aux
        let q := Machine.isSeqOp o
        match opdOf q g.d r.d, opdOf q g.a r.a, opdOf q g.b r.b, opdOf q g.c r.c with
        | some d, some a, some b, some c =>
          if Machine.levelsOk e g d a b c then .ok (Machine.mkInstr o ⟨gd, d, a, b, c, keep, r.eb, ty, r.md, aux⟩)
          else .error .illlev
        | _, _, _, _ => .error .illlev
      | _, _, _ => .error .illfld

/-- The word of a named word with its fields (R159). -/
def encodeOp (o : Op) (x : Body) : BitVec 128 :=
  let k := keepBits x.keep
  rawWord {
    op := (Machine.opFn o).1, fn := (Machine.opFn o).2
    guard := BitVec.ofBool x.guard.neg ++ BitVec.ofFin (w := 3) x.guard.p
    d := Machine.optField x.d, a := Machine.optField x.a, b := Machine.optField x.b, c := Machine.optField x.c
    keep := k.1, ktgt := k.2, eb := x.eb, ty := Machine.fmtCode x.ty, md := x.md, aux := Machine.auxBits x.aux }

/-- The word of an instruction; none for an event. ILLEGAL_WORD_ISSUE carries its own word. -/
def encode (i : Instr) : Option (BitVec 128) :=
  match Machine.opOf i, i with
  | some (o, x), _ => some (encodeOp o x)
  | none, .illegalWordIssue w => some w
  | none, _ => none

/-- The instruction that a word issues: the named word, or ILLEGAL_WORD_ISSUE where its OP and FN are unassigned
(R177). -/
def issueWord (e : Machine.DecEnv) (w : BitVec 128) : Except Machine.DecFault Instr :=
  match decodeWord e w with
  | .error .illop => .ok (.illegalWordIssue w)
  | r => r

/-- The number that bytes form, least significant first (R5). -/
def leNat : List Byte → Nat
  | [] => 0
  | b :: t => b.toNat + 256 * leNat t

/-- The n low bytes of a number, least significant first (R5). -/
def leBytes : Nat → Nat → List Byte
  | 0, _ => []
  | n + 1, v => BitVec.ofNat 8 v :: leBytes n (v / 256)

/-- Decodes the instruction at the head of a list of bytes and gives the bytes after it; rejects fewer than 16 bytes
as no instruction. -/
def decodeBytes (e : Machine.DecEnv) (bs : List Byte) : Except Machine.DecFault (Instr × List Byte) :=
  if bs.length < 16 then .error .illop
  else (issueWord e (BitVec.ofNat 128 (leNat (bs.take 16)))).map (fun i => (i, bs.drop 16))

/-- A word of the opcode map stands in the sequencer's stream when its OP is one of 0xE0 to 0xE7 (R176). -/
def seqWord (w : BitVec 128) : Bool :=
  let op := (w.extractLsb' 120 8).toNat
  0xE0 ≤ op && op ≤ 0xE7

/-- The instruction that the decoder reads from the word whose bits are `w`, bits at and above `nbits` zero, in the
stream that its OP names and the widest environment. -/
def decodeTableWord (nbits w : Nat) : Option Instr :=
  let v := w % 2 ^ min nbits 128
  match decodeBytes (Machine.DecEnv.full (seqWord (BitVec.ofNat 128 v))) (leBytes 16 v) with
  | .ok (i, _) => some i
  | .error _ => none

end Sys2Proof
end

