-- ==== Sys2Proof/Machine/State.lean ====
section
/-! DEFINITION. The state of one SC-C1 module as plain data: the module, its clusters, contexts, queues, grids, gangs,
blocks, waves and ports; and the state after module reset. Registers for which the manual gives no reset value hold
zero (log 1). -/

namespace Sys2Proof.Machine

/-! ### Faults and refusals of the model -/

/-- Why the machine stops with a fault. The manual's own faults (R180) are never one of these: they are next states. -/
inductive Fault where
  /-- A word is executed with no wave slot or sequencer issuing it. Raised by every meaning of a word when `cur` names
  no live issuer: only an agenda that holds a word as an event reaches it. Safe: the model stops. -/
  | noIssuer
deriving DecidableEq, Repr

/-- Why the model gives an instruction no meaning. -/
inductive Refusal where
  /-- The instruction has no meaning yet. Raised by the arms of `exec` alone. Safe: the model stops. -/
  | notModelled (mnemonic : String)
deriving DecidableEq, Repr

/-! ### One wave -/

/-- State of one entry in one lane (R48): FULL, EMPTY with its attached producer, LOST. -/
inductive CellSt where
  | full | empty (p : Nat) | lost
deriving DecidableEq, Repr

/-- One entry in one lane. The bits stay under EMPTY and LOST: HRD of an EMPTY entry reads them (R310). -/
structure Cell where
  val : Word
  st : CellSt
deriving DecidableEq, Repr

/-- What a seam waits for (R192, R269, R270, R271). -/
inductive WaitCond where
  | ready
  | source (ent : Nat) (lanes : Mask)
  | path (k thr : Nat)
  | bar (n : Nat)
  | gbar (phase : Nat)
  | xbar (phase : Nat)
deriving DecidableEq, Repr

/-- Why a live slot does not issue (R276, R301, R383, R306). `inspect` is an inspector whose HSTEP waits for a stepped
seam of a target's slot: the lane that it steps, its destination, its executing lanes and the tick since which it waits (R312). -/
inductive Hold where
  | none
  | join
  | seam (c : WaitCond)
  | sleep (till : Nat)
  | sysCommit (cid : Nat)
  | inspect (w sl : Nat) (lane : Option Nat) (d : Option Opd) (ex : Mask) (since : Nat)
  | parked
deriving DecidableEq, Repr

/-- One PC slot (R59): PC as byte offset from the code base (R62), lane mask, STEPPED mask (R312), the bench clocks
for which it has not been able to issue (R55); `stalled` holds until the word may be tried again, `starved` says that
the stall is that of R51 step 3, `capped` that it is that of a full path counter (R252); `denied` are the pages that
DENY has refused to the word at PC (R384); `entry` says that the word has begun to enter an order and waits there, which
holds the wave's other memory words back (R72, R93, R267), and how many steps of its commit it has entered;
`starveClocks` counts the bench clocks of its stall under R51 step 3; `again` says that REPLAY has let the word go and that it has
yet to walk again, until when the wave's parking goes on (R385). -/
structure Slot where
  live : Bool
  pc : Word
  mask : Mask
  hold : Hold
  stepped : Mask
  stalled : Bool
  starved : Bool
  clocks : Nat
  denied : List Nat
  capped : Bool
  entry : Option Nat
  starveClocks : Nat
  again : Bool
deriving DecidableEq, Repr

/-- One divergence stack entry (R62). -/
structure StkEntry where
  mask : Mask
  pc : Word
  join : Word
deriving DecidableEq, Repr

/-- States of a wave (R330). -/
inductive WaveSt where
  | seated | seatwait | parked | lodged | ready | forced | halted | saved | ended
deriving DecidableEq, Repr

/-- The tracked set (R78 to R80): bytes by virtual and physical address, and what has befallen it. -/
structure Track where
  bytes : List (Nat × Nat)
  overflow : Bool
  escalated : Bool
  evicted : Bool
  abortedBlk : Bool
  abortedGang : Bool
  confBlk : Bool
  confGang : Bool
  confDev : Bool
deriving DecidableEq, Repr

/-- A T-class fault waiting for the wave's next issue attempt (R57, R280, R304); `slot` is the slot whose word met it, none for
the sequencer's, and `exec` holds the lanes in which that word executed (R404). -/
structure Late where
  code : Nat
  fpc : Word
  lanes : Mask
  ea : Nat
  info : Word
  isSeq : Bool
  late : Bool
  slot : Option Nat
  exec : Mask
deriving DecidableEq, Repr

/-- The debug halt of a wave (R299, R308): REASON, watch unit, MATCH, INFO, tick. -/
structure HaltInfo where
  reason : Nat
  unit : Nat
  mat : Mask
  info : Word
  tick : DWord
deriving DecidableEq, Repr

/-- One wave (R47, R330); `whole` says that an emergency has saved it with every H and N entry (R362). Entries are keyed
64 × e + lane, e being 0–7 H, 8–39 N, 40–551 M, 552–679 W (lane 0). `parkTime` counts the ticks of its parking, which
stand still under a halt (R58, R385); `haltDue` is a debug halt that waits until the wave is seated (R330). `frame` holds its private slot by offset: the trap frame (R296) and, from 12 KiB on,
the divergence stack's table (R62), which `stack` mirrors up to DEPTH, top first. `kept` is what its latest restore found in its
section of the image, by offset, what a write has made dirty taken out: a bank or line that does not agree with it is dirty (R340).
`frameDenied0` and `frameDenied1` are the pages that DENY has refused to the words of the slots that the frame holds, `forced`
says that a forced unseat has taken its seat and it has not been seated since (R55, R330), and `privPa` is where its private
slot lay when that was last translated (R64). -/
structure Wave where
  ctx : Nat
  grid : Nat
  gang : Nat
  blk : Nat
  idx : Nat
  place : Place
  priv : Nat
  age : Nat
  st : WaveSt
  seat : Option Nat
  passed : Nat
  yielded : Bool
  waitSince : Nat
  parkTime : Option Nat
  whole : Bool
  helper : Mask
  slot0 : Slot
  slot1 : Slot
  lastSlot : Nat
  stack : List StkEntry
  ents : KMap Cell
  preds : Vector Mask 7
  bases : Vector VA 8
  flags : KMap (BitVec 6)
  fpen : BitVec 6
  rng : DWord
  tickCap : DWord
  paths : Vector Nat 5
  bufD : KMap Byte
  bufS : KMap Byte
  trk : Track
  hash : DWord
  frame : KMap Byte
  frameAtt : KMap Nat
  frameHold0 : Hold
  frameHold1 : Hold
  inHandler : Bool
  late : List Late
  halt : HaltInfo
  haltDue : Option HaltInfo
  gangHalt : Option Nat
  denied : List Nat
  kept : Option (KMap Byte)
  frameDenied0 : List Nat
  frameDenied1 : List Nat
  forced : Bool
  privPa : Option Nat
deriving DecidableEq, Repr

/-! ### Producers, requests, copies -/

/-- How a load's bits become an entry (R249): size in bytes, sign extension, or the bits of an LDT element (R255). -/
inductive LoadExt where
  | zext (n : Nat)
  | sext (n : Nat)
  | bits (off n : Nat)
deriving DecidableEq, Repr

/-- One element that a load will write: lane, entry, space, address, bytes taken from the wave's own buffer at issue
(R66), the value once it has been sampled, whether it has been delivered, whether watch units have seen its address, and
whether it waits on a fault record (R254). -/
structure LoadItem where
  lane : Nat
  ent : Nat
  scratch : Bool
  ea : Nat
  own : List (Option Byte)
  ext : LoadExt
  data : Option DWord
  dead : Bool
  seen : Bool
  held : Bool
deriving DecidableEq, Repr

/-- What a long-latency producer delivers (R50): a load's elements; an atomic's old values, one per lane, filled as
they are served; a scalar's value; tile slices. -/
inductive ProdKind where
  | load (items : List LoadItem) (tracked : Bool)
  | value (vals : KMap DWord) (wide : Bool) (ent : Nat)
  | acrd (tile first count ent : Nat)
deriving DecidableEq, Repr

/-- What an instruction lets a watch unit see (R303, R396): its executing lanes, accesses as (lane, space, address, bytes,
write), values written by lane, FP flags, NaN and infinity results, register fields with writes, and its address; `exec` adds the
helper lanes to the executing ones (R404). -/
structure Seen where
  lanes : Mask
  mem : List (Nat × Nat × Nat × Nat × Bool)
  vals : List (Nat × Word)
  fl : KMap (BitVec 6)
  nan : Mask
  inf : Mask
  regs : List (Nat × Bool)
  pc : Option Nat
  exec : Mask
deriving DecidableEq, Repr

def Seen.none : Seen := ⟨0, [], [], [], 0, 0, [], Option.none, 0⟩

/-- A long-latency producer (R48 to R50): its wave and slot, path, PC, the lanes not yet completed, what its word
showed to watch units at issue (R397), and whether an acquire of the wave orders it before every later access (R100). -/
structure Prod where
  wave : Nat
  slot : Nat
  path : Nat
  pc : Word
  lanes : Mask
  helper : Mask
  kind : ProdKind
  shown : Seen
  fenced : Bool
deriving DecidableEq, Repr

/-- Where a request acts (R103, R135): the device level at a physical address, a gang's pool at a virtual address, a
versioned scalar. -/
inductive ReqHome where
  | dev (pa : Nat)
  | gang (g va pa : Nat)
  | scalar (n : Nat)
deriving DecidableEq, Repr

/-- One lane's request in a porter's hall, or held by a phase (R104, R106); `holds` marks the classes that a phase holds,
`acq` an atomic with acquire order. `seqNo` is the issue sequence of R106, `issuer` the index of its lane and `first` that of its
word's lowest executing lane, which the logs name (R410). -/
structure Req where
  id : Nat
  ctx : Nat
  wave : Nat
  slot : Nat
  lane : Nat
  pc : Word
  issuer : Word
  seqNo : Nat
  home : Nat
  at_ : ReqHome
  op : AtomOp
  ty : Fmt
  wide : Bool
  b : DWord
  c : DWord
  ret : Option Nat
  holds : Bool
  acq : Bool
  hash : DWord
  first : Word
deriving DecidableEq, Repr

/-- A copy in flight (R124, R272): direction 0 .DS, 1 .SD, 2 .DD; the bytes done; the arrival it carries. `group` is
shared by the copies of one CPYQ. -/
structure Copy where
  wave : Nat
  slot : Nat
  blk : Nat
  ctx : Nat
  pc : Word
  dir : Nat
  src : Nat
  dst : Nat
  len : Nat
  done : Nat
  group : Nat
  arrive : Option (Nat × BitVec 17)
  parked : Option Nat
  counted : Bool
  place : Place
  issuer : Word
  hash : DWord
deriving DecidableEq, Repr

/-- A COMMIT.SYS of this module under way (R114): its wave, slot and PC, the domain bytes by physical address, the host
bytes, the gang pool that it carries, the homes asked, whether APPLY has been sent, and whether the last step is done, so that the word that waits for it
goes on when it issues again. A release that its word has performed and whose own effect waits stands here as finished.
`check` is a COMMIT.CHK.SYS, whose check and steps are made when every home has acknowledged (R97, R116). `iss` and `hash` are
the issuer index and the store hash that the log gives its entries (R411, R413). -/
structure SysCommit where
  wave : Nat
  slot : Nat
  pc : Word
  ctx : Nat
  share : KMap Byte
  host : KMap Byte
  pool : KMap Byte
  homes : List Nat
  applied : Bool
  finished : Bool
  check : Bool
  iss : Word
  hash : DWord
deriving DecidableEq, Repr

/-- A share staged here by another module (R114). -/
structure Staged where
  src : Nat
  cid : Nat
  share : List (Nat × Byte)
deriving DecidableEq, Repr

/-- What is held on a fault record (R383); `slot` is a store, atomic or fetch, `carry` a commit. -/
inductive Holder where
  | lanes (p : Nat) (m : Mask)
  | slot (w sl : Nat)
  | carry (w sl : Nat)
  | seq (b : Nat)
  | copy (c : Nat)
  | req (r : Nat)
  | lane (q : Nat)
  | grid (g : Nat)
deriving DecidableEq, Repr

/-- A fault record (R381) and what is held on it; `pend` is an answer that waits for the context's release (R384): 1
REPLAY, 2 DENY. -/
structure FaultRec where
  seq : Nat
  tick : DWord
  va : Nat
  kind : Nat
  ctx : Nat
  place : Word
  issuer : Word
  write : Bool
  page : Nat
  copied : Bool
  answered : Bool
  pend : Nat
  holders : List Holder
deriving DecidableEq, Repr

/-! ### Blocks -/

/-- A block barrier word (R346). -/
structure BarWord where
  phase : BitVec 13
  pending : BitVec 17
  arrived : BitVec 17
  mask : BitVec 17
deriving DecidableEq, Repr

/-- A GBAR or XBAR arrival word (R347). -/
structure ArrWord where
  phase : BitVec 13
  bmask : BitVec 8
  waves : BitVec 16
deriving DecidableEq, Repr

/-- GMASK, GARR and PHASE of a tree slot (R349). -/
structure TreeFld where
  gmask : BitVec 8
  garr : BitVec 8
  phase : BitVec 13
deriving DecidableEq, Repr

/-- An operand-buffer reservation record (R281). -/
structure Resv where
  soff : Nat
  len : Nat
  base : Nat
  live : Bool
  blk : Nat
  fmt : Fmt
deriving DecidableEq, Repr

/-- State of an accumulator tile (R132). -/
inductive TileSt where
  | lost | empty | full
deriving DecidableEq, Repr

/-- An accumulator tile: state, queued steps, read holds, elements keyed 32 × row + column. -/
structure Tile where
  st : TileSt
  queued : Nat
  holds : Nat
  elems : KMap Word
deriving DecidableEq, Repr

/-- State of a block's sequencer (R278, R280, R291). -/
inductive SeqSt where
  | absent | run | waitBar (n : Nat) | ended | stopped
deriving DecidableEq, Repr

/-- A block's sequencer (R278): PC offset, Q0 to Q7, the row, column and K predicates, whether it is parked at a fetch or halted by a
watch unit, and whether its word waits (R278, R279, R290). -/
structure Sequencer where
  st : SeqSt
  pc : Word
  q : Vector Word 8
  rowP : Word
  colP : Word
  kP : Word
  parked : Bool
  halted : Bool
  waits : Bool
deriving DecidableEq, Repr

/-- States of a block (R334). -/
inductive BlockSt where
  | resident | saving | saved | restoring | retired
deriving DecidableEq, Repr

/-- A block (R69, R345, R281). The pre-image store (R130) holds the
lines that count in it in `saved`, and in `pre` each overwritten line's earlier bytes with the entry's stamp in the
block's order; `doneAt` is the stamp of each barrier's latest completing arrival, `snapAt` the snapshot point
(R129); `kept` is what its latest restore found in its section of the image (R340). -/
structure Block where
  ctx : Nat
  grid : Nat
  gang : Nat
  gblk : Nat
  bx : Nat
  byy : Nat
  bz : Nat
  die : Nat
  cl : Nat
  core : Nat
  st : BlockSt
  waves : List Nat
  scratch : KMap Byte
  pool : KMap Byte
  bars : Vector BarWord 16
  gbar : ArrWord
  xbar : ArrWord
  window : Bool
  pre : KMap (List (Nat × List Byte))
  saved : List Nat
  stamp : Nat
  doneAt : Vector Nat 16
  snapAt : Nat
  seq : Sequencer
  handles : Vector Resv 32
  obuf : KMap Byte
  tiles : KMap Tile
  kept : Option (KMap Byte)
deriving DecidableEq, Repr

/-- States of a gang (R335). -/
inductive GangSt where
  | pending | resident | evicting | saved | restoring | retired
deriving DecidableEq, Repr

/-- A gang (R91, R335, R341); `kept` is what its latest restore found before its blocks' sections (R340). -/
structure Gang where
  ctx : Nat
  grid : Nat
  idx : Nat
  die : Nat
  cl : Nat
  st : GangSt
  pool : KMap Byte
  tree : Nat
  gb : TreeFld
  xb : TreeFld
  xbDie : Bool
  blocks : List Nat
  firstTick : DWord
  resident : DWord
  saveStart : DWord
  evictTicks : Nat
  image : Option Nat
  castle : Option Placement
  savedOrder : Nat
  withdrawn : Bool
  kept : Option (KMap Byte)
deriving DecidableEq, Repr

/-! ### Grids, contexts, queues -/

/-- A kernel descriptor (R320). -/
structure Desc where
  hasTrap : Bool
  hasMs : Bool
  bmode : Bool
  dstk : Nat
  scratch : Nat
  obk : Nat
  tiles : Nat
  mbanks : Nat
  gx : Nat
  gy : Nat
  gz : Nat
  bx : Nat
  byy : Nat
  bz : Nat
  seed : DWord
  trapOff : Word
  msOff : Word
  entry : Word
  code : VA
deriving DecidableEq, Repr

/-- States of a kernel (R328). -/
inductive GridSt where
  | placing | placed | ending | flushing | done
deriving DecidableEq, Repr

/-- A launched grid (R320 to R329). -/
structure Grid where
  ctx : Nat
  queue : Option Nat
  st : GridSt
  desc : Desc
  nx : Nat
  ny : Nat
  nz : Nat
  sync : Bool
  params : List Word
  cpl : Nat
  pending : List Nat
  gangs : List Nat
  status : Nat
  fcode : Nat
  issuer : Word
  xbArr : List Nat
  xbDies : List Nat
  recNo : Nat
deriving DecidableEq, Repr

/-- States of a context (R357). -/
inductive CtxSt where
  | free | live | halted | resetting | emergency | lost
deriving DecidableEq, Repr

/-- The trace ring of a context (R403). -/
structure Trace where
  base : Nat
  log2len : Nat
  kinds : BitVec 6
  wrap : Bool
  written : Nat
  dropped : Nat
deriving DecidableEq, Repr

/-- An open stream of a context's log (R410 to R412): chunk ordinal, grid, the records of the open chunk, the tick of
its first record and of the last record's first entry, the running CRC of R414, and in REPLAY the gate: head record
left to run, records left (the records done are in `recs`), log offset of the next record, entries waiting (issuer and S), the issuer admitted by
GATE_ADMIT, ticks for which the head issuer has been missing, and a HASH found to differ at the admission, with CHUNK, record
index, the log's value and the run's (R416, R423). -/
structure LogStream where
  key : Nat
  grid : Nat
  chunk : Nat
  recs : List DWord
  firstTick : DWord
  lastTick : DWord
  crc : DWord
  headIss : Word
  headRun : Nat
  left : Nat
  at_ : Nat
  logHash : DWord
  waiting : List (Word × DWord)
  admitted : Option Word
  missing : Nat
  verdict : Option (Nat × Nat × DWord × DWord)
deriving DecidableEq, Repr

/-- Record and replay of a context (R409): MODE 0 OFF, 1 RECORD, 2 REPLAY; `due` holds the chunks that have closed in this
tick, which enter the log at its end in the order of R422. -/
structure RecMode where
  mode : Nat
  base : Nat
  len : Nat
  free : Bool
  gateWait : Nat
  start : DWord
  bytes : Nat
  chunks : Nat
  full : Bool
  diverged : Bool
  grids : Nat
  streams : List LogStream
  due : List LogStream
deriving DecidableEq, Repr

/-- A context (R355 to R364). `haltTick` is the tick of its halt and `stopped` the engines that have written their stop
record since (R360); `saved` is the course of its emergency save (R362): 0 not begun, 1 under way, 2
complete, 3 none to make, since the context was LOST; `causeRank` and `causeAt` are the rank of the cause among the faults of
its tick and the number of its stop record (R361). -/
structure Ctx where
  st : CtxSt
  cause : Nat
  faults : List Nat
  key : Nat
  privN : Nat
  privVa : VA
  poolBase : Nat
  poolLen : Nat
  dbgCtx : Nat
  dbgEn : Bool
  priv : Bool
  cls : Nat
  part : Nat
  root : Option (Nat × Nat)
  vsOpen : Vector Word 16
  vsShut : Vector Word 16
  phase : Bool
  dropped : Nat
  mailbox : Vector DWord 16
  stops : Nat
  stopsPrev : Nat
  stopsDropped : Nat
  events : Vector Nat 10
  trace : Trace
  rec_ : RecMode
  poolUsed : List (Nat × Nat)
  haltTick : DWord
  stopped : List Engine
  saved : Nat
  causeRank : Nat
  causeAt : Option Nat
deriving DecidableEq, Repr

/-- A packet that has been accepted and not finished (R370): a launched grid, or a WAITVAL with its address, value and
COND. -/
inductive PktWork where
  | grid (g : Nat)
  | wait (addr : Nat) (v : DWord) (eq : Bool)
deriving DecidableEq, Repr

/-- A queue's lodging (R367), its drain mark D (R373), the packets accepted and not finished by index, and the packet
that its lane holds with its bytes (R370); `idle` is the tick since which it has had nothing to do; `after` is what
follows a transfer that a context reset or a destroy waits for (R373): 1 IDLE, 2 FREE; `denied` is the page of the lane's
miss that DENY has answered, and whether it is a write (R384). -/
structure Queue where
  st : Nat
  wakePend : Bool
  pinned : Bool
  pagedOut : Bool
  room : Option Nat
  ctx : Nat
  widx : Word
  ridx : Word
  ring : VA
  logsize : Nat
  ridxAddr : VA
  err : Nat
  tick : DWord
  drain : Word
  busy : List (Nat × PktWork)
  cur : Option (Nat × List Byte)
  idle : DWord
  after : Nat
  denied : Option (Nat × Bool)
deriving DecidableEq, Repr

/-! ### Hardware of the module -/

/-- A watch unit (R302, R305). -/
structure WatchUnit where
  c : Vector Word 8
  count : Word
  matched : Bool
deriving DecidableEq, Repr

/-- A step queued in a core's matrix unit (R278): block, tile, whether it is MZA, operand handles, K-steps, the
predicates at its issue (R287), the offset of its word, and the bench clocks for which it has executed (R430). -/
structure MatStep where
  blk : Nat
  tile : Nat
  zero : Bool
  oa : Nat
  ob : Nat
  n : Nat
  rowP : Word
  colP : Word
  kP : Word
  lostStart : Bool
  pc : Word
  ran : Nat
deriving DecidableEq, Repr

/-- The registers of a cluster's power block (R434, R435), the tick of its rail's last step (R425), its thermal clock hold (R428), the charges of its current
record (R431) and their sum as the current bench clock found it (R89), its porter's phase state (R107), its pending power writes (R441), its partition and whether it leaves it (R358),
the watch units that retention keeps (R436), whether it was RUN at a hard trip, the tick at which the latest save or load of its
retention began and the handshake writes, as offset and value, that wait for the save's end (R440). -/
structure Cluster where
  qreq : Bool
  qack : Bool
  retValid : Bool
  cold : Bool
  buddy : Bool
  order : Bool
  st : Nat
  rsDone : Bool
  saving : Bool
  rlDone : Bool
  rlBusy : Bool
  gate : Bool
  off : Bool
  mv : Nat
  refused : Bool
  settled : Bool
  offNow : Bool
  mvNow : Nat
  slewAt : DWord
  budget : Word
  charges : List Nat
  recAt : Nat
  temp : Option (BitVec 16)
  hold : Bool
  energy : DWord
  held : List Req
  ovf : List Req
  ovfAddrs : List (Nat × ReqHome)
  pend : List Bool
  part : Option Nat
  saveWatch : KMap WatchUnit
  wasRun : Bool
  leaving : Bool
  busyAt : DWord
  heldOps : List (Nat × Nat)
deriving DecidableEq, Repr

/-- An Apaux port (R389, R395): `replayed` holds the ticks of its latest replays, `since` is the tick at which it began to
train, `lostAt` that at which it last left UP and DEGRADED. -/
structure Port where
  st : Nat
  peer : Nat
  replays : Nat
  lanes : Nat
  replayed : List DWord
  trainFail : Nat
  since : DWord
  lostAt : DWord
deriving DecidableEq, Repr

/-- A management command slot (R449); `phase` is how far the management wave has come with its command (R437). -/
structure CmdSlot where
  opcode : Nat
  st : Nat
  result : Nat
  tick : DWord
  phase : Nat
  arg : KMap Byte
deriving DecidableEq, Repr

/-- The configuration record that this boot runs with (R444). -/
structure CfgRec where
  version : Word
  minver : Word
  modid : Nat
  porten : BitVec 16
  wakeBase : Nat
  pwrBase : Nat
  mgmtBase : Nat
  faultRing : Nat
  qidle : Nat
  qpageage : Nat
  parklimit : Nat
  linkwait : Nat
  castleTemp : Nat
  castleMargin : Nat
  paths : KMap (List Nat)
  vwin : Nat
deriving DecidableEq, Repr

/-- The module's debug stop and counter registers (R401, R408), the host endpoint's (R451), the coolant and energy
registers (R427), whether the compute rails are off (R428, R442), the tick since which every sensor has read below
95 °C (R428), and the module's power allocation in mW, which the firmware lowers (R429), and
the tick of the firmware's last pass (R426); the snapshot and the clearing of the counters asked for in this tick (R408), the steward
cores that a CLQREQ store holds until its end (R441), the ticks by which the counter is ahead of the master's (R393), and the
tick of each sensor's latest reading (R427); whether the counter follows the tick master's (R395), and the 8-byte words of memory that read with an
uncorrectable error (R377); the clusters' bench clocks as the snapshot has them (R408). -/
structure ModRegs where
  stopTick : DWord
  missed : Bool
  stopped : Bool
  arm : Bool
  snapTick : DWord
  snap : KMap Nat
  h2dBase : BitVec 12
  h2dEn : Bool
  h2dCtx : Nat
  coolIn : Option (BitVec 16)
  coolOut : Option (BitVec 16)
  modEnergy : DWord
  railsOff : Bool
  coolSince : Option Nat
  alloc : Nat
  passAt : Option DWord
  snapDue : Bool
  clrDue : Bool
  coreHold : List Nat
  ahead : Nat
  sampled : KMap Nat
  tsync : Bool
  badEcc : List Nat
  snapClocks : KMap Nat
deriving DecidableEq, Repr

/-- A cached translation: context, page base, size in bytes as a power of two, physical base, R W X rights (R378). -/
structure Tlb where
  ctx : Nat
  va : Nat
  bits : Nat
  pa : Nat
  r : Bool
  w : Bool
  x : Bool
deriving DecidableEq, Repr

/-! ### The module -/

/-- Whose turn it is: a wave's slot, a block's sequencer, an event at a unit, an inspector's step of a target's slot
(R312: one lane or the slot; the inspector's wave and slot), the steps of HRUN and then its release (R314: slots still to
step as 2 × wave + slot, target context, target wave, scope, the inspector's wave and slot),
one clock of the benches, or the passing of ticks. -/
inductive Turn where
  | wave (w sl : Nat)
  | seq (b : Nat)
  | event (unit : Nat) (i : Instr)
  | hstep (w sl : Nat) (lane : Option Nat) (insp isl : Nat)
  | hrun (pend : List Nat) (c : Nat) (w : Option Nat) (scope insp isl : Nat)
  | clock
  | elapse (n : Nat)
deriving DecidableEq, Repr

/-- The issuer of the word being executed: none, a wave's slot with the lanes it may execute in (all, or one for a lane
step of R312) and whether it is an inspector's step, or a block's sequencer. -/
inductive Issuer where
  | none
  | wave (w sl : Nat) (lanes : Mask) (stepping : Bool)
  | seq (b : Nat)
deriving DecidableEq, Repr

/-- The state of one module. `booted` holds the images that the module has booted (R446), and `clocks` the bench clocks that each cluster
has run since the counters were cleared (R406); `routes` holds the port of the path in use to each module (R391); `fmiss` holds the misses that have found the fault buffer full (R381); `waiting` holds what agents beyond the waves have sent and what waits at a staged byte or behind
such an access, in the order in which it came (R114, R119, R120). -/
structure State where
  tick : DWord
  stage : Nat
  recovery : Bool
  cfg : CfgRec
  flash : KMap (List Byte)
  booted : KMap (List Byte)
  minver : Word
  mem : List Host.Cell
  memKey : KMap Nat
  keyGen : Nat
  tlb : List Tlb
  waves : KMap Wave
  blocks : KMap Block
  gangs : KMap Gang
  grids : KMap Grid
  ctxs : KMap Ctx
  queues : KMap Queue
  rooms : KMap Nat
  clusters : KMap Cluster
  sensors : KMap (BitVec 16)
  watch : KMap WatchUnit
  matrix : KMap (List MatStep)
  slots : KMap CmdSlot
  ports : Vector Port 16
  unreach : List Nat
  routes : KMap Nat
  parts : KMap Unit
  prods : KMap Prod
  hall : List Req
  copies : KMap Copy
  sysCommits : KMap SysCommit
  staged : List Staged
  waiting : List Instr
  fbuf : List FaultRec
  fmiss : List FaultRec
  fseq : Nat
  fwidx : Word
  fridx : Word
  counters : KMap Nat
  clocks : KMap Nat
  refill : KMap Nat
  mods : ModRegs
  tickets : Nat
  nextId : Nat
  -- the model's own fields
  agenda : List Turn
  unit : Nat
  cur : Issuer
  bus : DWord
  free : Nat
deriving DecidableEq, Repr

/-! ### The state after module reset -/

/-- A cluster at module reset (R434, R435). -/
def Cluster.reset : Cluster where
  qreq := false
  qack := false
  retValid := false
  cold := false
  buddy := false
  order := false
  st := 0
  rsDone := false
  saving := false
  rlDone := false
  rlBusy := false
  gate := false
  off := false
  mv := 800
  refused := false
  settled := true
  offNow := false
  mvNow := 800
  slewAt := 0
  budget := 0x00600000
  charges := []
  recAt := 0
  temp := none
  hold := false
  energy := 0
  held := []
  ovf := []
  ovfAddrs := []
  pend := []
  part := none
  saveWatch := []
  wasRun := true
  leaving := false
  busyAt := 0
  heldOps := []

/-- A port at module reset: DOWN (R395). -/
def Port.reset : Port := ⟨0, 0, 0, 0, [], 0, 0, 0⟩

/-- The configuration record of the model (R444): every field that the record may leave zero at its default, the window
bases of the example of chapter 28 (log 4). -/
def CfgRec.default : CfgRec where
  version := 0
  minver := 0
  modid := 0
  porten := 0
  wakeBase := 0xD000000000
  pwrBase := 0xE000000000
  mgmtBase := 0xF000000000
  faultRing := 0
  qidle := 1000000
  qpageage := 10000000000
  parklimit := 100000
  linkwait := 2000000
  castleTemp := 6400
  castleMargin := 640
  paths := []
  vwin := 8

/-- Module registers at reset (R401, R408, R427, R451); the allocation is the 3,600 W that the module sustains (R429). -/
def ModRegs.reset : ModRegs := ⟨0, false, false, false, 0, [], 0, false, 0, none, none, 0, true, none, 3600000, none, false, false, [], 0, [], false, [], []⟩

/-- The machine right after module reset (R442, R447): boot stage 1, no context, no queue, no work, nothing listed in
memory. -/
def State.reset : State where
  tick := 0
  stage := 1
  recovery := false
  cfg := CfgRec.default
  flash := []
  booted := []
  minver := 0
  mem := []
  memKey := []
  keyGen := 0
  tlb := []
  waves := []
  blocks := []
  gangs := []
  grids := []
  ctxs := []
  queues := []
  rooms := []
  clusters := []
  sensors := []
  watch := []
  matrix := []
  slots := []
  ports := Vector.replicate 16 Port.reset
  unreach := []
  routes := []
  parts := []
  prods := []
  hall := []
  copies := []
  sysCommits := []
  staged := []
  waiting := []
  fbuf := []
  fmiss := []
  fseq := 0
  fwidx := 0
  fridx := 0
  counters := []
  clocks := []
  refill := []
  mods := ModRegs.reset
  tickets := 0
  nextId := 0
  agenda := []
  unit := 0
  cur := .none
  bus := 0
  free := 0

end Sys2Proof.Machine
end

