-- ==== Sys2Proof/Machine/Maps.lean ====
section
/-! DEFINITION. Sparse tables with rising keys, and the canonical byte memory in which an unlisted address reads as
zero (log 2). -/

namespace Sys2Proof

/-- The value at a key. -/
def kget {α : Type} (m : KMap α) (k : Nat) : Option α :=
  match m with
  | [] => none
  | (j, v) :: t => if j = k then some v else kget t k

/-- The value at a key, or a default. -/
def kgetD {α : Type} (m : KMap α) (k : Nat) (d : α) : α := (kget m k).getD d

/-- Writes the value at a key, keeping keys rising. -/
def kput {α : Type} (m : KMap α) (k : Nat) (v : α) : KMap α :=
  match m with
  | [] => [(k, v)]
  | (j, u) :: t => if k < j then (k, v) :: (j, u) :: t else if k = j then (k, v) :: t else (j, u) :: kput t k v

/-- Removes a key. -/
def kdel {α : Type} (m : KMap α) (k : Nat) : KMap α :=
  match m with
  | [] => []
  | (j, u) :: t => if j = k then kdel t k else (j, u) :: kdel t k

/-- Applies a function to the value at a key, if there is one. -/
def kmod {α : Type} (m : KMap α) (k : Nat) (f : α → α) : KMap α :=
  match m with
  | [] => []
  | (j, u) :: t => if j = k then (j, f u) :: t else (j, u) :: kmod t k f

/-- Applies a function to every value. -/
def kmap {α : Type} (m : KMap α) (f : Nat → α → α) : KMap α := m.map fun (j, u) => (j, f j u)

/-- The keys whose values meet a condition, rising. -/
def kfind {α : Type} (m : KMap α) (p : Nat → α → Bool) : List Nat :=
  (m.filter fun (j, u) => p j u).map Prod.fst

/-- The byte of memory at an address; 0 where nothing is listed (log 2). -/
def memGet (m : List Host.Cell) (a : Nat) : Byte := (kget m a).getD 0

/-- Writes one byte, keeping the canonical form. -/
def memPut (m : List Host.Cell) (a : Nat) (b : Byte) : List Host.Cell := if b = 0 then kdel m a else kput m a b

/-- Addresses above a bound, strictly rising, and no listed byte zero. -/
def memAbove (lo : Nat) : List Host.Cell → Bool
  | [] => true
  | (a, b) :: t => decide (lo ≤ a) && decide (b ≠ 0) && memAbove (a + 1) t

/-- The canonical form of memory: addresses strictly rising, no entry equal to what an unlisted address reads as. -/
def Memory.wf (m : List Host.Cell) : Bool := memAbove 0 m

end Sys2Proof
end

