-- ==== Sys2Proof/Machine/Num.lean ====
section
/-! DEFINITION. Number formats and exact arithmetic (R138 to R158): codes as exact values, exact operations, the five
rounding modes, NaNs and infinities, conversion to integers, the special functions of R239 and the stream of R245. -/

namespace Sys2Proof.Machine

/-! ### Flags (R151) -/

/-- FP flags in FPFLAGS bit order: NV 0, DZ 1, OF 2, UF 3, NX 4, DN 5. -/
abbrev FFlags := BitVec 6
def fNV : FFlags := 1
def fDZ : FFlags := 2
def fOF : FFlags := 4
def fUF : FFlags := 8
def fNX : FFlags := 16
def fDN : FFlags := 32
def fIf (b : Bool) (f : FFlags) : FFlags := if b then f else 0

/-! ### Exact values -/

/-- An exact value: NaN with sign, quiet bit and the 22 payload bits below it; infinity; or ±n ÷ d. -/
inductive Val where
  | nan (neg quiet : Bool) (pay : Nat)
  | inf (neg : Bool)
  | fin (neg : Bool) (n d : Nat)
deriving DecidableEq, Repr

namespace Val
def zero (neg : Bool) : Val := .fin neg 0 1
/-- The canonical quiet NaN (R153). -/
def qnan : Val := .nan false true 0
def isNan : Val → Bool | .nan _ _ _ => true | _ => false
def isSnan : Val → Bool | .nan _ q _ => !q | _ => false
def isInf : Val → Bool | .inf _ => true | _ => false
def isFin : Val → Bool | .fin _ _ _ => true | _ => false
def isZero : Val → Bool | .fin _ n _ => n = 0 | _ => false
def isNeg : Val → Bool | .nan s _ _ => s | .inf s => s | .fin s _ _ => s
def neg : Val → Val | .nan s q p => .nan s q p | .inf s => .inf (!s) | .fin s n d => .fin (!s) n d
def abs : Val → Val | .nan _ q p => .nan false q p | .inf _ => .inf false | .fin _ n d => .fin false n d
/-- An integer as an exact value. -/
def ofInt (i : Int) : Val := .fin (decide (i < 0)) i.natAbs 1
/-- n × 2^e with a sign. -/
def scaled (s : Bool) (n : Nat) (e : Int) : Val := .fin s (n * 2 ^ e.toNat) (2 ^ (-e).toNat)
/-- Signed numerator of a finite value. -/
def num : Val → Int | .fin s n _ => if s then -(n : Int) else n | _ => 0
def den : Val → Nat | .fin _ _ d => d | _ => 1
/-- a < b on values that are not NaN; −0 = +0. -/
def lt : Val → Val → Bool
  | .inf s, .inf t => s && !t
  | .inf s, .fin _ _ _ => s
  | .fin _ _ _, .inf t => !t
  | a, b => decide (a.num * b.den < b.num * a.den)
/-- a = b on values that are not NaN; −0 = +0. -/
def eqv : Val → Val → Bool
  | .inf s, .inf t => s == t
  | .inf _, .fin _ _ _ => false
  | .fin _ _ _, .inf _ => false
  | a, b => decide (a.num * b.den = b.num * a.den)
/-- Exact product; 0 × ∞ is NaN (R220 steps 2 and 3). -/
def mul : Val → Val → Val
  | .nan s q p, _ => .nan s q p
  | _, .nan s q p => .nan s q p
  | .inf s, b => if b.isZero then qnan else .inf (s != b.isNeg)
  | a, .inf t => if a.isZero then qnan else .inf (a.isNeg != t)
  | .fin s n d, .fin t m e => .fin (s != t) (n * m) (d * e)
/-- Exact quotient: x ÷ 0 infinite, 0 ÷ 0 and ∞ ÷ ∞ NaN, x ÷ ∞ zero (R237). -/
def div : Val → Val → Val
  | .nan s q p, _ => .nan s q p
  | _, .nan s q p => .nan s q p
  | .inf _, .inf _ => qnan
  | .inf s, b => .inf (s != b.isNeg)
  | a, .inf t => .zero (a.isNeg != t)
  | .fin s n d, .fin t m e =>
    if m = 0 then (if n = 0 then qnan else .inf (s != t)) else .fin (s != t) (n * e) (d * m)
/-- Exact sum of two finite values as a signed fraction. -/
def addQ (a b : Int × Nat) : Int × Nat :=
  if a.2 = b.2 then (a.1 + b.1, a.2)
  else if b.2 % a.2 = 0 then (a.1 * (b.2 / a.2 : Nat) + b.1, b.2)
  else if a.2 % b.2 = 0 then (a.1 + b.1 * (a.2 / b.2 : Nat), a.2)
  else (a.1 * b.2 + b.1 * a.2, a.2 * b.2)
/-- Exact sum of addends (R220 steps 2 and 4, R156); rd says whether the mode is RD. -/
def sum (rd : Bool) (l : List Val) : Val :=
  match l.find? isNan with
  | some x => x
  | none =>
    if l.any (fun x => x.isInf && x.isNeg) then
      (if l.any (fun x => x.isInf && !x.isNeg) then qnan else .inf true)
    else if l.any isInf then .inf false
    else
      let q := l.foldl (fun a x => addQ a (x.num, x.den)) (0, 1)
      if q.1 = 0 then .zero (l.all isNeg || (rd && !l.all (fun x => !x.isNeg)))
      else .fin (decide (q.1 < 0)) q.1.natAbs q.2
def add (rd : Bool) (a b : Val) : Val := sum rd [a, b]
/-- The quiet form of a NaN. -/
def quieten : Val → Val | .nan s _ p => .nan s true p | x => x
end Val

/-! ### Formats (R139 to R141) -/

/-- Exponent bits, mantissa bits, bias (R139). -/
def fmtEMB : Fmt → Nat × Nat × Nat
  | .f32 => (8, 23, 127) | .f16 => (5, 10, 15) | .bf16 => (8, 7, 127) | .e4m3 => (4, 3, 7) | .e5m2 => (5, 2, 15)
  | .e3m2 => (3, 2, 3) | .e2m3 => (2, 3, 1) | .e2m1 => (2, 1, 1) | _ => (0, 0, 1)

/-- The code without sign of the largest finite value (R139). -/
def fmtMax : Fmt → Nat
  | .f32 => 0x7F7FFFFF | .f16 => 0x7BFF | .bf16 => 0x7F7F | .e4m3 => 0x7E | .e5m2 => 0x7B | .e3m2 => 0x1F
  | .e2m3 => 0x1F | .e2m1 => 0x7 | _ => 0

/-- A format with infinities (R139). -/
def fmtInf : Fmt → Bool
  | .f32 | .f16 | .bf16 | .e5m2 => true
  | _ => false

/-- The exact value of a floating-point code; the special value sv gives E2M1's 0b1000 (R139 to R141). -/
def decodePlain (f : Fmt) (c : Nat) : Val :=
  let (e, m, b) := fmtEMB f
  let ef := c / 2 ^ m % 2 ^ e
  let mf := c % 2 ^ m
  let s := c / 2 ^ (m + e) % 2 = 1
  if fmtInf f && ef = 2 ^ e - 1 then
    (if mf = 0 then .inf s else .nan s (mf / 2 ^ (m - 1) = 1) (mf % 2 ^ (m - 1) * 2 ^ (23 - m)))
  else if f = .e4m3 && c % 128 = 127 then .nan s true 0
  else if ef = 0 then .fin s mf (2 ^ (m + b - 1))
  else .scaled s (2 ^ m + mf) ((ef : Int) - b - m)

def decodeSv (f : Fmt) (c sv : Nat) : Val :=
  if f = .e2m1 && c % 16 = 8 then decodePlain .e4m3 (sv % 256) else decodePlain f c

/-- The value of a code with no scale record: sv is 0x80 (R141). -/
def decodeF (f : Fmt) (c : Nat) : Val := decodeSv f c 0x80

/-- A finite non-zero code with a zero exponent field: subnormal in its format (R151 DN). Of E2M1's code 0b1000 the format is
E2M1, whatever its special value is: DESIGN CHOICE (log 75). -/
def subnormal (f : Fmt) (c : Nat) : Bool :=
  let (e, m, _) := fmtEMB f
  c / 2 ^ m % 2 ^ e = 0 && c % 2 ^ m ≠ 0

/-- Two's complement value of the low w bits. -/
def signed (w n : Nat) : Int := let v := n % 2 ^ w; if v < 2 ^ (w - 1) then v else (v : Int) - 2 ^ w

/-- The value of an integer code (R142). -/
def decodeI (f : Fmt) (c : Nat) : Int :=
  match f with
  | .i8 => signed 8 c
  | .i32 => signed 32 c
  | .i64 => signed 64 c
  | _ => (c % 2 ^ fmtBits f : Nat)

/-- Range of an integer format. -/
def intRange (f : Fmt) : Int × Int :=
  match f with
  | .i8 | .i32 | .i64 => (-(2 ^ (fmtBits f - 1)), 2 ^ (fmtBits f - 1) - 1)
  | _ => (0, 2 ^ fmtBits f - 1)

/-- The low w bits of an integer. -/
def wrap (w : Nat) (i : Int) : Nat := (i % (2 ^ w : Nat)).toNat

/-- SatInt (R155). -/
def satInt (f : Fmt) (i : Int) : Int := max (intRange f).1 (min (intRange f).2 i)

/-! ### Rounding (R148 to R155) -/

/-- Floor of log2 of n ÷ d, both positive. -/
def log2Q (n d : Nat) : Int :=
  let k : Int := (Nat.log2 n : Int) - Nat.log2 d
  if n * 2 ^ (-k).toNat < d * 2 ^ k.toNat then k - 1 else k

/-- Whether a magnitude t + r ÷ den is rounded up under a mode (R149). -/
def roundsUp (mode : Nat) (neg : Bool) (t r den draw : Nat) : Bool :=
  match mode with
  | 0 => den < 2 * r || (2 * r = den && t % 2 = 1)
  | 1 => false
  | 2 => 0 < r && !neg
  | 3 => 0 < r && neg
  | _ => draw < r * 2 ^ 32 / den

/-- The code of a sign over a magnitude code. -/
def signCode (f : Fmt) (neg : Bool) (c : Nat) : Nat :=
  let (e, m, _) := fmtEMB f
  if neg then 2 ^ (e + m) + c else c

/-- NaNInto (R153) with its flags. -/
def nanInto (f : Fmt) (neg : Bool) (pay : Nat) : Nat × FFlags :=
  let (e, m, _) := fmtEMB f
  if fmtInf f then (signCode f neg ((2 ^ e - 1) * 2 ^ m + 2 ^ (m - 1) + pay / 2 ^ (23 - m)), 0)
  else if f = .e4m3 then (signCode f neg 0x7F, 0)
  else (0, fNV)

/-- InfInto (R153) with its flags. -/
def infInto (f : Fmt) (neg sat : Bool) : Nat × FFlags :=
  let (e, m, _) := fmtEMB f
  if fmtInf f then (signCode f neg ((2 ^ e - 1) * 2 ^ m), 0)
  else if f = .e4m3 then (signCode f neg (if sat then 0x7E else 0x7F), fNV)
  else (signCode f neg (fmtMax f), fNV)

/-- A zero of a format; E2M1 has no −0 (R141, R149). -/
def zeroCode (f : Fmt) (neg : Bool) : Nat := if f = .e2m1 then 0 else signCode f neg 0

/-- RoundToFormat (R149): the code and the flags. -/
def roundTo (x : Val) (f : Fmt) (mode : Nat) (sat : Bool) (draw : Nat) : Nat × FFlags :=
  match x with
  | .nan s _ p => nanInto f s p
  | .inf s => infInto f s sat
  | .fin s n d =>
    if n = 0 then (zeroCode f s, 0) else
    let (_, m, b) := fmtEMB f
    let emin : Int := 1 - b
    let e := max (log2Q n d) emin
    let qe := e - m
    let num := n * 2 ^ (-qe).toNat
    let den := d * 2 ^ qe.toNat
    let t := num / den
    let r := num % den
    let t' := if roundsUp mode s t r den draw then t + 1 else t
    let c := (e - emin).toNat * 2 ^ m + t'
    let fl := fIf (decide (0 < r)) fNX ||| fIf (decide (0 < r) && decide (log2Q n d < emin)) fUF
    if fmtMax f < c then
      let toInf := (mode = 0 || mode = 4 || (mode = 2 && !s) || (mode = 3 && s)) && !sat
      (if toInf && fmtInf f then (infInto f s sat).1
       else if toInf && f = .e4m3 then signCode f s 0x7F
       else signCode f s (fmtMax f), fl ||| fOF ||| fNX)
    else (if c = 0 then zeroCode f s else signCode f s c, fl)

/-- RoundToFP32 under RN, without its flags. -/
def rnF32 (x : Val) : Nat := (roundTo x .f32 0 false 0).1

/-- The exact value rounded to an integer under a mode: the integer, and whether it is inexact (R155 with q = 1). -/
def roundInt (neg : Bool) (n d mode draw : Nat) : Int × Bool :=
  let t := n / d
  let r := n % d
  let t' := if roundsUp mode neg t r d draw then t + 1 else t
  (if neg then -(t' : Int) else t', decide (0 < r))

/-- ToInt (R155): the integer and the flags. -/
def toInt (x : Val) (f : Fmt) (mode draw : Nat) : Int × FFlags :=
  let (lo, hi) := intRange f
  match x with
  | .nan _ _ _ => (0, fNV)
  | .inf s => (if s then lo else hi, fNV)
  | .fin s n d =>
    let (i, ix) := roundInt s n d mode draw
    if i < lo then (lo, fNV) else if hi < i then (hi, fNV) else (i, fIf ix fNX)

/-- FirstNaN (R153): the first NaN of a list, quietened. -/
def firstNan (l : List Val) : Option Val := (l.find? Val.isNan).map Val.quieten

/-- NV for a signalling NaN among the sources (R153). -/
def snanFlag (l : List Val) : FFlags := fIf (l.any Val.isSnan) fNV

/-- Steps 1, 2 and the rounding of R220: sources in NaN order, the exact result of an operation that is NaN only where
it is invalid. -/
def finish (srcs : List Val) (v : Val) (f : Fmt) (mode : Nat) (sat : Bool) (draw : Nat) : Nat × FFlags :=
  match firstNan srcs with
  | some x => let r := roundTo x f mode sat draw; (r.1, r.2 ||| snanFlag srcs)
  | none => let r := roundTo v f mode sat draw; (r.1, r.2 ||| fIf v.isNan fNV)

/-- The minimum (mx false) or maximum of two values that are not NaN, −0 below +0 (R154): true when the first. -/
def minFirst (mx : Bool) (a b : Val) : Bool :=
  let below : Bool := Val.lt a b || (Val.eqv a b && a.isNeg && !b.isNeg)
  let above : Bool := Val.lt b a || (Val.eqv a b && b.isNeg && !a.isNeg)
  if mx then !below else !above

/-- FMinNum, FMaxNum, FMinProp, FMaxProp on F32 codes (R154): the code and the flags. -/
def fminmax (mx prop : Bool) (a b : Nat) : Nat × FFlags :=
  let va := decodeF .f32 a
  let vb := decodeF .f32 b
  let fl := snanFlag [va, vb]
  match va.isNan, vb.isNan with
  | true, false => (if prop then rnF32 va else b, fl)
  | false, true => (if prop then rnF32 vb else a, fl)
  | true, true => (rnF32 va, fl)
  | false, false => (if minFirst mx va vb then a else b, fl)

/-! ### Square root and special functions (R239, R240) -/

/-- Integer square root by 4^k digits from the top. -/
def isqrtGo : Nat → Nat → Nat → Nat
  | 0, _, r => r
  | k + 1, n, r =>
    let c := r + 2 ^ k
    isqrtGo k n (if c * c ≤ n then c else r)

def isqrt (n : Nat) : Nat := isqrtGo (Nat.log2 n / 2 + 1) n 0

/-- √(n ÷ d) as a fraction: exact when it is rational with a power-of-two scale, else a value strictly between its
neighbours on a grid 2^100 times finer than the result, so that it rounds as the root does. -/
def sqrtQ (n d : Nat) : Nat × Nat :=
  let k := 120 + Nat.log2 d
  let y := n * 4 ^ k / d
  let s := isqrt y
  if s * s * d = n * 4 ^ k then (s, 2 ^ k) else (2 * s + 1, 2 ^ (k + 1))

/-- One in fixed point with 256 fraction bits. -/
def fxOne : Int := 2 ^ 256
/-- π in fixed point. -/
def fxPi : Int := 363771576891766324280234942777729862653393377328392429958772151117938894466185
/-- The natural logarithm of 2 in fixed point. -/
def fxLn2 : Int := 80260960185991308862233904206310070533990667611589946606122867505419956976171

/-- Sum of the terms t, t × x ÷ (a+1), … of an exponential-like series, n of them: step k multiplies by x and divides
by `den k`. -/
def fxSeries (x : Int) (den : Nat → Nat) : Nat → Nat → Int → Int → Int
  | 0, _, _, acc => acc
  | n + 1, k, t, acc => fxSeries x den n (k + 1) (t * x / fxOne / (den k : Int)) (acc + t)

/-- e^y for 0 ≤ y < 1 in fixed point. -/
def fxExp (y : Int) : Int := fxSeries y (fun k => k + 1) 60 0 fxOne 0

/-- Sum of y^(2k+1) ÷ (2k+1): atanh. -/
def fxAtanhGo (y2 : Int) : Nat → Nat → Int → Int → Int
  | 0, _, _, acc => acc
  | n + 1, k, t, acc => fxAtanhGo y2 n (k + 2) (t * y2 / fxOne) (acc + t / (k : Int))

/-- 2^(n ÷ d) for a signed n as a fraction. -/
def exp2Q (s : Bool) (n d : Nat) : Nat × Nat :=
  let x : Int := if s then -(n : Int) else n
  let i := x / (d : Int)
  let fr := (x % (d : Int)) * fxOne / (d : Int)
  let v := (fxExp (fr * fxLn2 / fxOne)).toNat
  (v * 2 ^ i.toNat, 2 ^ (256 + (-i).toNat))

/-- log2 (n ÷ d) as a signed fraction over 2^256. -/
def log2Fx (n d : Nat) : Int :=
  let e := log2Q n d
  let a : Int := n * 2 ^ (-e).toNat
  let b : Int := d * 2 ^ e.toNat
  let y := (a - b) * fxOne / (a + b)
  e * fxOne + 2 * fxAtanhGo (y * y / fxOne) 90 1 y 0 * fxOne / fxLn2

/-- sin (c false) or cos (c true) of x as a signed fraction over 2^256. -/
def trigFx (c : Bool) (s : Bool) (n d : Nat) : Int :=
  let x : Int := (if s then -(n : Int) else n) * fxOne / (d : Int)
  let two := 2 * fxPi
  let k := (x + fxPi) / two
  let r := x - k * two
  let z := -(r * r / fxOne)
  if c then fxSeries z (fun j => (2 * j + 1) * (2 * j + 2)) 40 0 fxOne 0
  else fxSeries z (fun j => (2 * j + 2) * (2 * j + 3)) 40 0 r 0

/-- A magnitude below 2^-30, where the first two terms of a series stand for its value: what is left out is far smaller than
the distance of the value to a code (R239). -/
def tiny (n d : Nat) : Bool := n * 2 ^ 30 < d

/-- |sin x| of a tiny x: x − x³ ÷ 6. -/
def sinTiny (n d : Nat) : Nat × Nat := (6 * n * d ^ 2 - n ^ 3, 6 * d ^ 3)
/-- cos x of a tiny x: 1 − x² ÷ 2. -/
def cosTiny (n d : Nat) : Nat × Nat := (2 * d ^ 2 - n ^ 2, 2 * d ^ 2)

/-- tanh of a non-negative x as a fraction; of a tiny one x − x³ ÷ 3. -/
def tanhQ (n d : Nat) : Nat × Nat :=
  if tiny n d then (3 * n * d ^ 2 - n ^ 3, 3 * d ^ 3) else
  let (p, q) := exp2Q false (2 * n * 2 ^ 256) (d * fxLn2.toNat)
  (p - q, p + q)

/-- The unit in the last place at a positive magnitude, as a power of two (R239). -/
def ulpExp (n d : Nat) : Int := max (log2Q n d) (-126) - 23

/-- What the corner table of R240 says of a result by its kind: RCP of |x| > 2^126 is subnormal with the sign of x, EXP2 below
2^-126 a positive subnormal or 2^-126. -/
def cornerOk (fn : SpecialFn) (x p : Nat) : Bool :=
  match fn, decodeF .f32 x with
  | .rcp, .fin s n d => !decide (2 ^ 126 * d < n) || (subnormal .f32 p && decide (p / 2 ^ 31 % 2 = 1) = s)
  | .exp2, .fin s n d => !(s && decide (126 * d < n)) || (p < 2 ^ 31 && subnormal .f32 p) || p = 0x00800000
  | _, _ => true

/-- A special function's result at a non-exact value ±n ÷ d (which stands for the exact one), within k units: the
implementation's pick where it lies within the bound and the corner table admits it, else the nearest code; with NX, and UF
below 2^-126 (R239, R240). -/
def pickNear (fn : SpecialFn) (x : Nat) (neg : Bool) (n d k : Nat) : Nat × FFlags :=
  let p := (Config.specialPick fn (BitVec.ofNat 32 x)).toNat
  let v := decodeF .f32 p
  let u := ulpExp n d
  -- |v - n/d| ≤ k × 2^u
  let lhs : Nat := ((if v.isNeg = neg then (v.num.natAbs : Int) else -(v.num.natAbs : Int)) * d - (n : Int) * v.den).natAbs
  let ok := v.isFin && cornerOk fn x p && decide (lhs * 2 ^ (-u).toNat ≤ k * 2 ^ u.toNat * (v.den * d))
  (if ok then p else (roundTo (.fin neg n d) .f32 0 false 0).1,
   fNX ||| fIf (decide (log2Q n d < -126)) fUF)

/-- A result that is exact when it is an F32 value, else picked (R239). -/
def exactOrPick (fn : SpecialFn) (x : Nat) (neg : Bool) (n d k : Nat) : Nat × FFlags :=
  let r := roundTo (.fin neg n d) .f32 1 false 0
  if r.2 = 0 then (r.1, 0) else pickNear fn x neg n d k

/-- The class 100 functions of one F32 source (R239, R240): the code and the flags without DN. -/
def special (fn : SpecialFn) (x : Nat) : Nat × FFlags :=
  let inf (s : Bool) : Nat := signCode .f32 s 0x7F800000
  let one (s : Bool) : Nat := signCode .f32 s 0x3F800000
  let nanNV : Nat × FFlags := (0x7FC00000, fNV)
  match decodeF .f32 x with
  | .nan s q p => ((nanInto .f32 s p).1, fIf (!q) fNV)
  | .inf s =>
    match fn with
    | .rcp => (zeroCode .f32 s, 0)
    | .rsq => if s then nanNV else (0, 0)
    | .exp2 => (if s then 0 else inf false, 0)
    | .log2 => if s then nanNV else (inf false, 0)
    | .sin | .cos => nanNV
    | .tanh => (one s, 0)
  | .fin s n d =>
    match fn with
    | .rcp =>
      if n = 0 then (inf s, fDZ)
      else if n * 2 ^ 128 ≤ d then (inf s, fOF ||| fNX)
      else exactOrPick .rcp x s d n 1
    | .rsq =>
      if n = 0 then (inf s, fDZ) else if s then nanNV
      else let (a, b) := sqrtQ n d; exactOrPick .rsq x false b a 1
    | .exp2 =>
      if n % d = 0 && (if s then n / d ≤ 149 else n / d ≤ 127) then
        (rnF32 (if s then .scaled false 1 (-((n / d : Nat) : Int)) else .scaled false 1 ((n / d : Nat) : Int)), 0)
      else if !s && 128 * d ≤ n then (inf false, fOF ||| fNX)
      else if s && 150 * d ≤ n then (0, fUF ||| fNX)
      else let (a, b) := exp2Q s n d; pickNear .exp2 x false a b 2
    | .log2 =>
      if n = 0 then (inf true, fDZ) else if s then nanNV
      else
        let e := log2Q n d
        if n * 2 ^ (-e).toNat = d * 2 ^ e.toNat then (rnF32 (.ofInt e), 0)
        else let v := log2Fx n d; pickNear .log2 x (decide (v < 0)) v.natAbs (2 ^ 256) 2
    | .sin =>
      if n = 0 then (x, 0) else if 2 ^ 20 * d < n then nanNV
      else if tiny n d then let (a, b) := sinTiny n d; pickNear .sin x s a b 2
      else let v := trigFx false s n d; pickNear .sin x (decide (v < 0)) v.natAbs (2 ^ 256) 2
    | .cos =>
      if n = 0 then (one false, 0) else if 2 ^ 20 * d < n then nanNV
      else if subnormal .f32 x then (one false, fNX)
      else if tiny n d then let (a, b) := cosTiny n d; pickNear .cos x false a b 2
      else let v := trigFx true s n d; pickNear .cos x (decide (v < 0)) v.natAbs (2 ^ 256) 2
    | .tanh =>
      if n = 0 then (x, 0)
      else if 9 * d ≤ n then (one s, fNX)
      else let (a, b) := tanhQ n d; pickNear .tanh x s a b 2

/-- SQRT (R239, R240): correctly rounded under a mode. -/
def fsqrt (x mode draw : Nat) : Nat × FFlags :=
  match decodeF .f32 x with
  | .nan s q p => ((nanInto .f32 s p).1, fIf (!q) fNV)
  | .inf s => if s then (0x7FC00000, fNV) else (x, 0)
  | .fin s n d =>
    if n = 0 then (x, 0) else if s then (0x7FC00000, fNV)
    else let (a, b) := sqrtQ n d; roundTo (.fin false a b) .f32 mode false draw

/-! ### Random words (R245) -/

/-- One round of R245 on (x0, x1, x2, x3) and (k0, k1). -/
def philoxRounds : Nat → Word → Word → Word → Word → Word → Word → Word × Word × Word × Word
  | 0, x0, x1, x2, x3, _, _ => (x0, x1, x2, x3)
  | n + 1, x0, x1, x2, x3, k0, k1 =>
    let p := 0xD2511F53 * x0.toNat
    let s := 0xCD9E8D57 * x2.toNat
    let hi (v : Nat) : Word := BitVec.ofNat 32 (v / 2 ^ 32)
    let lo (v : Nat) : Word := BitVec.ofNat 32 v
    philoxRounds n (hi s ^^^ x1 ^^^ k0) (lo s) (hi p ^^^ x3 ^^^ k1) (lo p) (k0 + 0x9E3779B9) (k1 + 0xBB67AE85)

/-- PhiloxWord (R245). -/
def philox (seed : DWord) (iss : Word) (c : DWord) (j : Nat) : Word :=
  let r := philoxRounds 10 iss (c.extractLsb' 0 32) (c.extractLsb' 32 32) (BitVec.ofNat 32 (j / 4))
    (seed.extractLsb' 0 32) (seed.extractLsb' 32 32)
  match j % 4 with
  | 0 => r.1
  | 1 => r.2.1
  | 2 => r.2.2.1
  | _ => r.2.2.2

end Sys2Proof.Machine
end

