-- ==== Sys2Proof/Machine/Ops.lean ====
section
/-! DEFINITION. The named operations over a wave's state, the memory levels and the module: access to the parts of the
state, addresses and their homes, translation, the levels that a load reads, trace records and event counts, the
delivery of faults with the trap frame, and the return from a trap. -/

namespace Sys2Proof.Machine

/-- The outcome of one step of this machine. -/
abbrev Out := Host.Outcome State Fault Refusal

/-! ### Parts of the state -/

namespace State
def wave? (s : State) (w : Nat) : Option Wave := kget s.waves w
def putWave (s : State) (w : Nat) (v : Wave) : State := { s with waves := kput s.waves w v }
def modWave (s : State) (w : Nat) (f : Wave → Wave) : State := { s with waves := kmod s.waves w f }
def block? (s : State) (b : Nat) : Option Block := kget s.blocks b
def modBlock (s : State) (b : Nat) (f : Block → Block) : State := { s with blocks := kmod s.blocks b f }
def gang? (s : State) (g : Nat) : Option Gang := kget s.gangs g
def modGang (s : State) (g : Nat) (f : Gang → Gang) : State := { s with gangs := kmod s.gangs g f }
def grid? (s : State) (g : Nat) : Option Grid := kget s.grids g
def modGrid (s : State) (g : Nat) (f : Grid → Grid) : State := { s with grids := kmod s.grids g f }
def ctx? (s : State) (c : Nat) : Option Ctx := kget s.ctxs c
def modCtx (s : State) (c : Nat) (f : Ctx → Ctx) : State := { s with ctxs := kmod s.ctxs c f }
def cluster (s : State) (c : Nat) : Cluster := kgetD s.clusters c Cluster.reset
def modCluster (s : State) (c : Nat) (f : Cluster → Cluster) : State :=
  { s with clusters := kput s.clusters c (f (s.cluster c)) }
/-- Pushes turns before the agenda. -/
def push (s : State) (l : List Turn) : State := { s with agenda := l ++ s.agenda }
/-- Draws a free value (log 6). -/
def draw (s : State) : BitVec 64 × State := (Config.freeValue s.free, { s with free := s.free + 1 })
end State

/-- A cluster's number in the module: 16 × die + cluster (R31). -/
def clusterOf (p : Place) : Nat := 16 * p.die + p.cl
/-- A core's number in the module. -/
def coreOf (p : Place) : Nat := 8 * clusterOf p + p.core
/-- A bench's number in the module. -/
def benchOf (p : Place) : Nat := 4 * coreOf p + p.bench
/-- PLACEID (R44). -/
def placeId (p : Place) : Word :=
  BitVec.ofNat 32 (p.die % 4 * 2 ^ 17 + p.cl % 16 * 2 ^ 13 + p.core % 8 * 2 ^ 10 + p.bench % 4 * 2 ^ 8 + p.slot % 16 * 2 ^ 4)

/-- Adds a charge to a cluster's current record in this tick (R431). -/
def addCharge (s : State) (c n : Nat) : State :=
  if n = 0 then s else s.modCluster c fun k => { k with charges := match k.charges with | [] => [n] | h :: t => (h + n) :: t }

/-! ### Lanes, predicates, slots, entries -/

/-- Every lane. -/
def allLanes : Mask := BitVec.allOnes 64
/-- The lanes of a mask, ascending. -/
def lanesOf (m : Mask) : List Nat := (List.range 64).filter fun l => m.getLsbD l
/-- The mask of one lane. -/
def laneBit (l : Nat) : Mask := BitVec.ofNat 64 (2 ^ l)
/-- The mask of the lanes that meet a condition. -/
def maskOf (p : Nat → Bool) : Mask := (List.range 64).foldl (fun m l => if p l then m ||| laneBit l else m) 0
/-- The lowest lane of a mask. -/
def lowLane (m : Mask) : Nat := ((lanesOf m).head?).getD 0

namespace Wave
def slot (v : Wave) (sl : Nat) : Slot := if sl = 0 then v.slot0 else v.slot1
def setSlot (v : Wave) (sl : Nat) (x : Slot) : Wave := if sl = 0 then { v with slot0 := x } else { v with slot1 := x }
def modSlot (v : Wave) (sl : Nat) (f : Slot → Slot) : Wave := v.setSlot sl (f (v.slot sl))
/-- A predicate; p7 reads true in every lane (R22). -/
def pred (v : Wave) (p : Nat) : Mask := if h : p < 7 then v.preds[p] else allLanes
/-- Writes a predicate in the lanes of a mask; a write to p7 is discarded (R22). -/
def setPred (v : Wave) (p : Nat) (m x : Mask) : Wave :=
  if h : p < 7 then { v with preds := v.preds.set p ((v.preds[p] &&& ~~~m) ||| (x &&& m)) } else v
/-- The lanes in which a guard holds (R23). -/
def guard (v : Wave) (g : Guard) : Mask := if g.neg then ~~~(v.pred g.p.val) else v.pred g.p.val
/-- An address base (R204). -/
def base (v : Wave) (i : Fin 8) : VA := v.bases[i.val]
def setBase (v : Wave) (i : Fin 8) (x : VA) : Wave := { v with bases := v.bases.set i.val x }
/-- A uniform entry (W) is held once, at lane 0. -/
def cellKey (e l : Nat) : Nat := 64 * e + (if e < 552 then l else 0)
/-- One entry in one lane: an H or N entry that nothing has written is LOST, an M or W entry is FULL with zero (R15,
R48). -/
def cell (v : Wave) (e l : Nat) : Cell := kgetD v.ents (cellKey e l) ⟨0, if e < 40 then .lost else .full⟩
/-- Writes an entry FULL in one lane; an attached producer is detached (R48). -/
def put (v : Wave) (e l : Nat) (x : Word) : Wave := { v with ents := kput v.ents (cellKey e l) ⟨x, .full⟩ }
/-- Sets the state of an entry in one lane, its bits unchanged. -/
def mark (v : Wave) (e l : Nat) (st : CellSt) : Wave :=
  { v with ents := kput v.ents (cellKey e l) ⟨(v.cell e l).val, st⟩ }
/-- FPFLAGS of a lane (R151). -/
def flag (v : Wave) (l : Nat) : FFlags := kgetD v.flags l 0
/-- Sets sticky flags of a lane; the list holds no lane without a flag. -/
def setFlags (v : Wave) (l : Nat) (f : FFlags) : Wave :=
  { v with flags := if f = 0 then kdel v.flags l else kput v.flags l f }
def path (v : Wave) (k : Nat) : Nat := if h : k < 5 then v.paths[k] else 0
def addPath (v : Wave) (k n : Nat) : Wave := if h : k < 5 then { v with paths := v.paths.set k (v.paths[k] + n) } else v
/-- A path counter falls by one (R252). -/
def subPath (v : Wave) (k : Nat) : Wave := if h : k < 5 then { v with paths := v.paths.set k (v.paths[k] - 1) } else v
/-- A wave that has not ended. -/
def alive (v : Wave) : Bool := v.st ≠ .ended
/-- Live slot masks together. -/
def liveMask (v : Wave) : Mask :=
  (if v.slot0.live then v.slot0.mask else 0) ||| (if v.slot1.live then v.slot1.mask else 0)
/-- Every live slot waits at a seam (R54). -/
def waiting (v : Wave) : Bool :=
  [v.slot0, v.slot1].all fun x => !x.live || (match x.hold with | .seam _ => true | _ => false)
/-- The empty tracked set. -/
def noTrack (ev : Bool) : Track := ⟨[], false, false, ev, false, false, false, false, false⟩
end Wave

/-- A free PC slot (R59). -/
def Slot.free : Slot := ⟨false, 0, 0, .none, 0, false, false, 0, [], false, none, 0, false⟩
/-- A live slot at a PC with a mask. -/
def Slot.at_ (pc : Word) (m : Mask) : Slot := ⟨true, pc, m, .none, 0, false, false, 0, [], false, none, 0, false⟩

/-- A slot whose word has issued, or may be tried anew: nothing stalls it, and no clock counts against it (R55). -/
def Slot.awake (x : Slot) : Slot := { x with stalled := false, starved := false, capped := false, clocks := 0, starveClocks := 0 }

/-- A slot that stands at a PC, its word there not begun (R59). -/
def Slot.goTo (x : Slot) (pc : Word) : Slot := { x.awake with pc, stepped := 0, denied := [], entry := none }

/-- The first entry that an operand names: H from 0, N from 8, M from 40, W from 552. -/
def opdEnt : Opd → Option Nat
  | .h i => some i.val
  | .n i => some (8 + i.val)
  | .m i => some (40 + i.val)
  | .w i => some (552 + i.val)
  | _ => none

/-- The issuer index of a lane of a wave (R323). -/
def issuer (s : State) (v : Wave) (l : Nat) : Word :=
  let g := match s.gang? v.gang with | some g => g.idx | none => 0
  let b := match s.block? v.blk with | some b => b.gblk | none => 0
  BitVec.ofNat 32 (g * 2 ^ 14 + b % 8 * 2 ^ 11 + v.idx % 16 * 2 ^ 7 + l % 128)

/-- The descriptor of a wave's kernel. -/
def descOf (s : State) (grid : Nat) : Option Desc := (s.grid? grid).map (·.desc)
/-- Code base of a wave's kernel (R320). -/
def codeBase (s : State) (grid : Nat) : Nat := match descOf s grid with | some d => d.code.toNat | none => 0
/-- The scratchpad allocation of a block in bytes (R18). -/
def scratchSize (s : State) (grid : Nat) : Nat := match descOf s grid with | some d => 256 * d.scratch | none => 0
/-- Escalate mode (R76, BMODE of R320). -/
def escalates (s : State) (grid : Nat) : Bool := match descOf s grid with | some d => d.bmode | none => false

/-- The address of a wave's own slot in its context (R64). -/
def privAddr (s : State) (v : Wave) : Nat :=
  (match s.ctx? v.ctx with | some c => c.privVa.toNat | none => 0) + 2 ^ 15 * v.priv
/-- DSP, 12 KiB into the wave's own slot (R64). -/
def dspOf (s : State) (v : Wave) : Nat := privAddr s v + 12288
/-- LIMIT of the divergence stack (R62). -/
def stackLimit (s : State) (v : Wave) : Nat := match descOf s v.grid with | some d => d.dstk | none => 0

/-- The context of a block. -/
def ctxOfBlock (s : State) (b : Nat) : Nat := match s.block? b with | some x => x.ctx | none => 0

/-! ### Event counters (R408) -/

/-- Counts one event of a context; a counter stays at 2^32 − 1. -/
def countEvent (s : State) (c i : Nat) : State :=
  s.modCtx c fun x => if h : i < 10 then { x with events := x.events.set i (min (x.events[i] + 1) (2 ^ 32 - 1)) } else x

/-! ### Addresses and homes (R38 to R41, R109, R111) -/

/-- Where a physical address leads. -/
inductive Home where
  | here (cl : Nat)      -- DRAM or vault window of this module: the home cluster
  | module (m : Nat)     -- another module
  | host (a : Nat)       -- host memory, at its host address
  | wake | power | mgmt  -- the I/O windows
  | nothing              -- no memory
deriving DecidableEq, Repr

/-- The home of a physical address (R40, R111). Another module's window share and wake window are taken to lie where this
module's lie, and its power and management windows are no memory for an agent of this one (log 12). -/
def homeOf (s : State) (pa : Nat) : Home :=
  let a := pa % 2 ^ 48
  if a < 0x9000000000 || (0xA000000000 ≤ a && a < 0xA000000000 + s.cfg.vwin * 2 ^ 20 * 64) then
    (if pa / 2 ^ 48 % 256 = s.cfg.modid then .here (a / 4096 % 64) else .module (pa / 2 ^ 48 % 256))
  else if pa / 2 ^ 48 % 256 ≠ s.cfg.modid then
    (if 0x10000000000 ≤ a || (s.cfg.wakeBase ≤ a && a < s.cfg.wakeBase + 2 ^ 36) then .module (pa / 2 ^ 48 % 256) else .nothing)
  else if 0x10000000000 ≤ a then .host (a - 0x10000000000)
  else if s.cfg.wakeBase ≤ a && a < s.cfg.wakeBase + 2 ^ 36 then .wake
  else if s.cfg.pwrBase ≤ a && a < s.cfg.pwrBase + 2 ^ 36 then .power
  else if s.cfg.mgmtBase ≤ a && a < s.cfg.mgmtBase + 2 ^ 36 then .mgmt
  else .nothing

/-- A byte of this module's device memory (R377: tables lie here). -/
def isDevice (s : State) (pa : Nat) : Bool := match homeOf s pa with | .here _ => true | _ => false

/-- The number that the model gives the innkeeper's firmware context (R437): beyond every CTXID (log 8). -/
def firmwareCtx : Nat := 4096

/-! ### Queues and wakes (R368, R371, R373) -/

/-- Sets a queue's state, noting the tick. -/
def setQueue (s : State) (q : Nat) (f : Queue → Queue) : State :=
  { s with queues := kmod s.queues q fun x => let y := f x; if y.st = x.st then y else { y with tick := s.tick } }

/-- An error stops a mapped or draining queue and frees its room at once; in any other state it is ignored (R371, R373). -/
def queueError (s : State) (q code : Nat) : State :=
  match kget s.queues q with
  | none => s
  | some x =>
    if x.st ≠ 3 && x.st ≠ 4 then s else
    let s1 := setQueue s q fun x => { x with st := 9, err := code, room := none }
    match x.room with
    | some r => { s1 with rooms := kdel s1.rooms r }
    | none => s1

/-- The overrun check (R371). -/
def overrunCheck (s : State) (q : Nat) : State :=
  match kget s.queues q with
  | none => s
  | some x => if 2 ^ x.logsize < (x.widx - x.ridx).toNat then queueError s q 2 else s

/-- A wake of a queue from a context (R368, R373). The time for which RIDX = WIDX has held begins anew with a wake that makes
it hold, and runs on under one that leaves it so. -/
def wake (s : State) (q c : Nat) (v : Word) : State :=
  match kget s.queues q with
  | none => s
  | some x =>
    if x.ctx ≠ c then s else
    let s := if x.widx = x.ridx && v = x.ridx then s else { s with queues := kmod s.queues q fun x => { x with idle := s.tick } }
    match x.st with
    | 0 => s
    | 1 => setQueue s q fun x => { x with st := 2, widx := v }
    | 3 => overrunCheck (setQueue s q fun x => { x with widx := v }) q
    | 4 => overrunCheck (setQueue s q fun x => { x with widx := v, wakePend := true }) q
    | 5 | 6 => setQueue s q fun x => { x with widx := v, wakePend := true }
    | 7 => setQueue s q fun x => { x with st := 8, widx := v }
    | _ => setQueue s q fun x => { x with widx := v }

/-- The queue and the offset in its wake page of a physical address of the wake window (R368). -/
def wakeAddr (s : State) (pa : Nat) : Nat × Nat := let o := pa % 2 ^ 48 - s.cfg.wakeBase; (o / 2 ^ 16, o % 2 ^ 16)

/-- The wakes that one carry forms: the pages of which it brings all four of bytes 0 to 3 (R368). -/
def wakesOf (s : State) (bytes : List (Nat × Byte)) : List (Nat × Word) :=
  let ws := bytes.filterMap fun x => match homeOf s x.1 with | .wake => some (wakeAddr s x.1, x.2) | _ => none
  ((ws.map fun x => x.1.1).eraseDups).filterMap fun q =>
    ((List.range 4).mapM fun o => ((ws.filter fun x => x.1 = (q, o)).getLast?).map Prod.snd).map fun l =>
      (q, BitVec.ofNat 32 (leNat l))

/-- A byte of a queue's wake page as loads read it: RIDX in bytes 0 to 3 (R368). -/
def wakeByte (s : State) (pa : Nat) : Byte :=
  let a := wakeAddr s pa
  if a.2 < 4 then BitVec.ofNat 8 ((match kget s.queues a.1 with | some x => x.ridx.toNat | none => 0) / 256 ^ a.2) else 0

/-! ### The device level -/

/-- The key generation in a context's slot (R359). -/
def keyOf (s : State) (c : Nat) : Nat := match s.ctx? c with | some x => x.key | none => 0

/-- A byte as one key reads it (R359, log 3): one that was written under another key, or unencrypted, reads as a free value. What
nothing has written counts as a zero that stands there unencrypted (log 2), so that a context's key reads a free value in
it. -/
def readKeyed (s : State) (key pa : Nat) : Byte :=
  let b := memGet s.mem pa
  let k := (kget s.memKey pa).getD 0
  if k = key then b else Config.garble b k key pa

/-- A byte at the device level as a context reads it. A byte homed in another module is a free value; one homed in the host
is what was last posted there, unless the host has changed it (log 6). -/
def devByte (s : State) (c pa : Nat) : Byte :=
  match homeOf s pa with
  | .module _ => Config.remoteByte pa s.tick s.free
  | .host _ => (Config.hostByte pa s.tick s.free).getD (memGet s.mem pa)
  | .wake => wakeByte s pa
  | _ => readKeyed s (keyOf s c) pa

/-- n bytes at the device level as a little-endian number. -/
def devNat (s : State) (c pa n : Nat) : Nat := leNat ((List.range n).map fun i => devByte s c (pa + i))

/-- Writes one byte of this module's memory, or of the host's, under a key. -/
def rawWrite (key : Nat) (s : State) (pa : Nat) (b : Byte) : State :=
  { s with mem := memPut s.mem pa b, memKey := if key = 0 then kdel s.memKey pa else kput s.memKey pa key }

/-- Words that are written read without an error again. -/
def healEcc (s : State) (pas : List Nat) : State :=
  if s.mods.badEcc = [] then s else
  { s with mods := { s.mods with badEcc := s.mods.badEcc.filter fun k => !(pas.any fun p => p / 8 = k) } }

/-- Marks CONFLICT at the device level for every wave but one that tracks a written byte (R80, R97). -/
def devConflicts (s0 : State) (own : Option Nat) (pas : List Nat) : State :=
  if pas = [] then s0 else
  let s := healEcc s0 pas
  { s with waves := kmap s.waves fun w v =>
      if some w ≠ own && v.trk.bytes.any (fun t => pas.contains t.2) then
        { v with trk := { v.trk with confDev := true } }
      else v }

/-- One entry into the device level of this module: bytes by physical address, under a context's key (R95). Bytes
homed in the host are posted writes (R113); bytes homed in another module leave and change nothing here; bytes in the
wake window form wakes (R368). -/
def devEntry (s : State) (c : Nat) (own : Option Nat) (bytes : List (Nat × Byte)) : State :=
  let s1 := bytes.foldl (fun s x =>
    match homeOf s x.1 with
    | .here _ => rawWrite (keyOf s c) s x.1 x.2
    | .host _ => rawWrite 0 s x.1 x.2
    | _ => s) s
  devConflicts ((wakesOf s bytes).foldl (fun s x => wake s x.1 c x.2) s1) own (bytes.map Prod.fst)

/-- An entry of the innkeeper into the device level for a context; a byte in the wake window is dropped (R368). -/
def laneEntry (s : State) (c : Nat) (bytes : List (Nat × Byte)) : State :=
  devEntry s c none (bytes.filter fun x => match homeOf s x.1 with | .wake => false | _ => true)

/-- A number as bytes from a physical address. -/
def bytesAt (pa n v : Nat) : List (Nat × Byte) := (leBytes n v).zipIdx.map fun (b, i) => (pa + i, b)

/-! ### Translation (R375 to R379) -/

/-- The address of a word of a grid's code (R62). An offset counts from the code base; one that a branch has moved below it,
at most 2^26 bytes (R169), lies below it (log 61). -/
def codeVa (s : State) (gr : Nat) (pc : Word) : Nat :=
  (codeBase s gr + pc.toNat + (if 2 ^ 32 - 2 ^ 26 ≤ pc.toNat then 2 ^ 72 - 2 ^ 32 else 0)) % 2 ^ 72

/-- What a walk finds. -/
inductive Walk where
  | leaf (pa bits : Nat) (pres wu x w r : Bool)
  | absent
  | bad (pa : Nat)
deriving DecidableEq, Repr

/-- One level of the walk: (lowest VA bit, entries as bits, leaf allowed, leaf required). -/
def walkLevels : List (Nat × Nat × Bool × Bool) :=
  [(68, 4, false, false), (55, 13, false, false), (42, 13, true, false), (29, 13, true, false), (16, 13, true, true)]

/-- Walks the tables from one table base (R375 to R377); an entry that reads with an uncorrectable error is malformed. -/
def walkGo (s : State) (owner va : Nat) : List (Nat × Nat × Bool × Bool) → Nat → Walk
  | [], _ => .absent
  | (lo, n, leafOk, leafReq) :: t, base =>
    let ea := base + 8 * (va / 2 ^ lo % 2 ^ n)
    let e := devNat s owner ea 8
    let bit (i : Nat) : Bool := e.testBit i
    if s.mods.badEcc.contains (ea / 8) then .bad ea
    else if !bit 7 then .absent
    else if e / 2 ^ 56 ≠ 0 || e / 2 ^ 8 % 256 ≠ 0 || bit 0 then .bad ea
    else
      let addr := e / 2 ^ 16 % 2 ^ 40 * 2 ^ 16
      if bit 6 then
        if !leafOk || addr % 2 ^ lo ≠ 0 then .bad ea
        else .leaf (addr + va % 2 ^ lo) lo (bit 5) (bit 4) (bit 3) (bit 2) (bit 1)
      else if leafReq || e / 2 % 32 ≠ 0 || !isDevice s addr then .bad ea
      else walkGo s owner va t addr

/-- What an access meets. -/
inductive XRes where
  | hit (pa : Nat)
  | page | pageWrite | xlate
  | bad (pa : Nat)
deriving DecidableEq, Repr

/-- Kinds of access (R379). -/
inductive Acc where
  | read | write | both | fetch
deriving DecidableEq, Repr

/-- A leaf under an access (the table of R379). -/
def leafRes (k : Acc) (pa : Nat) (pres wu x w r : Bool) : XRes :=
  let writes := k = .write || k = .both
  if (k = .read && !r) || (k = .both && !r) || (k = .fetch && !x) || (writes && !w && !wu) then .xlate
  else if !pres then (if writes then .pageWrite else .page)
  else if writes && !w then .pageWrite
  else .hit pa

/-- The context's walk of an address (R378); a context without a root maps nothing. The firmware context maps the power
window at its own addresses (R437), and the management window, which it reaches (R448, log 79). -/
def walk (s : State) (c va : Nat) : Walk :=
  if c = firmwareCtx && (homeOf s va = .power || homeOf s va = .mgmt) then .leaf va 12 true false false true true else
  match s.ctx? c with
  | none => .absent
  | some x => match x.root with
    | none => .absent
    | some (root, owner) => walkGo s owner (va % 2 ^ 72) walkLevels root

/-- Whether a context reaches a home (R40, R392, R434, R448): the power and management windows are the firmware
context's, and another module lies in the domain when the configuration record gives a path to it. -/
def reaches (s : State) (c : Nat) (h : Home) : Bool :=
  match h with
  | .nothing => false
  | .power | .mgmt => c = firmwareCtx
  | .module m => (kget s.cfg.paths m).isSome
  | _ => true

/-- A cached translation lets an access through by the rights that were checked (R378). -/
def Tlb.lets (t : Tlb) (k : Acc) : Bool :=
  match k with | .read => t.r | .write => t.w | .both => t.r && t.w | .fetch => t.x

/-- The cached translation that an access hits (R378). -/
def cached (s : State) (c va : Nat) (k : Acc) : Option Tlb :=
  s.tlb.find? fun t => t.ctx = c && t.va = va / 2 ^ t.bits * 2 ^ t.bits && t.lets k

/-- Translates an address for an access: a cached translation with its rights, else a walk. A hit that the context does
not reach is XLATE (R40). -/
def xlate (s : State) (c va : Nat) (k : Acc) : XRes :=
  let res : XRes := match cached s c va k with
    | some t => .hit (t.pa + va % 2 ^ t.bits)
    | none => match walk s c va with
      | .absent => .xlate
      | .bad pa => .bad pa
      | .leaf pa _ pres wu x w r => leafRes k pa pres wu x w r
  match res with
  | .hit pa => if reaches s c (homeOf s pa) then .hit pa else .xlate
  | r => r

/-- The base of the page that an address lies in: its leaf's range (R379). -/
def pageOf (s : State) (c va : Nat) : Nat :=
  let bits := match walk s c va with | .leaf _ bits _ _ _ _ _ => bits | _ => 16
  va / 2 ^ bits * 2 ^ bits

/-- The physical address, where an access hits. -/
def XRes.pa? : XRes → Option Nat | .hit pa => some pa | _ => none

/-! ### The levels that a load reads (R66, R70, R92, R161) -/

/-- A byte of a block's scratchpad above the wave's own buffer. -/
def scratchByte (b : Block) (off : Nat) : Byte := kgetD b.scratch off 0

/-- A byte of scratchpad as a wave reads it: its own buffer first (R66, R70). -/
def ownScratch (s : State) (v : Wave) (off : Nat) : Byte :=
  match kget v.bufS off with
  | some b => b
  | none => match s.block? v.blk with | some b => scratchByte b off | none => 0

/-- A 32-bit word of scratchpad as an S source reads it (R161). -/
def ownWord (s : State) (v : Wave) (off : Nat) : Word :=
  BitVec.ofNat 32 (leNat ((List.range 4).map fun i => ownScratch s v (off + i)))

/-- A device byte from the pools or the device level (R92 places 2 to 4); none where translation does not hit. -/
def poolByte (s : State) (v : Wave) (va : Nat) : XRes × Byte :=
  let p := match s.block? v.blk with
    | some b => (match kget b.pool va with
      | some x => some x
      | none => match s.gang? v.gang with | some g => kget g.pool va | none => none)
    | none => none
  match xlate s v.ctx va .read with
  | .hit pa => (.hit pa, p.getD (devByte s v.ctx pa))
  | r => (r, 0)

/-! ### Trace records (R403 to R405) -/

/-- Writes one trace record of a context, if its ring takes that kind. -/
def trace (s : State) (c kind aux : Nat) (place iss pc : Word) (data : Nat) : State :=
  match s.ctx? c with
  | none => s
  | some x =>
    let t := x.trace
    if !(decide (1 ≤ kind) && t.kinds.getLsbD (kind - 1)) then s else
    let n := (2 ^ t.log2len - 64) / 32
    if !t.wrap && decide (n ≤ t.written) then
      let s1 := s.modCtx c fun x => { x with trace := { x.trace with dropped := x.trace.dropped + 1 } }
      devEntry s1 c none (bytesAt (t.base + 8) 8 (t.dropped + 1))
    else
      let rec_ := s.tick.toNat + 2 ^ 64 * (kind + 256 * aux + 2 ^ 16 * c + 2 ^ 32 * place.toNat)
        + 2 ^ 128 * (iss.toNat + 2 ^ 32 * pc.toNat + 2 ^ 64 * (data % 2 ^ 64))
      let s1 := devEntry s c none (bytesAt (t.base + 64 + 32 * (t.written % n)) 32 rec_)
      let s2 := s1.modCtx c fun x => { x with trace := { x.trace with written := x.trace.written + 1 } }
      devEntry s2 c none (bytesAt t.base 8 (t.written + 1))

/-- A trace record of a wave's word or event. -/
def traceWave (s : State) (w : Nat) (kind aux lane : Nat) (pc : Word) (data : Nat) : State :=
  match s.wave? w with
  | none => s
  | some v => trace s v.ctx kind aux (placeId v.place) (issuer s v lane) pc data

/-! ### Barrier words (R345 to R348) -/

/-- Bits of a barrier word that make its holder wait (R348). -/
def barWaits (b : BarWord) (party : Nat) : Bool := b.arrived.getLsbD party || b.pending.getLsbD party

/-- An arrival takes the word: stores the mask, joins, and completes the phase (R348). The issue checks are done. -/
def barArrive (b : BarWord) (party : Nat) (m : BitVec 17) : BarWord :=
  let a := (if b.mask = 0 then 0 else b.arrived) ||| BitVec.ofNat 17 (2 ^ party)
  if a = m then { b with mask := 0, arrived := 0, phase := b.phase + 1 } else { b with mask := m, arrived := a }

/-- The snapshot point moves to the latest completing arrival of a barrier, if that is later (R129): overwrites before it
are no longer needed. -/
def moveSnap (b : Block) (n : Fin 16) : Block :=
  if b.doneAt[n] ≤ b.snapAt then b else
  { b with
    snapAt := b.doneAt[n]
    pre := b.pre.filterMap fun x => match x.2.filter fun y => b.doneAt[n] < y.1 with
      | [] => none
      | l => some (x.1, l) }

/-- An arrival takes a block's barrier word (R348); a completing arrival wakes an MWAIT there, whose window opens at the
new snapshot point (R129, R130). -/
def barApply (b : Block) (n : Fin 16) (party : Nat) (m : BitVec 17) : Block :=
  let w := barArrive b.bars[n] party m
  let b1 : Block := { b with bars := b.bars.set n w, stamp := b.stamp + 1 }
  if w.phase = b.bars[n].phase then b1 else
  let b2 : Block := { b1 with doneAt := b1.doneAt.set n b1.stamp }
  if b2.seq.st = .waitBar n.val && !barWaits w 16 then
    { moveSnap { b2 with pre := [], saved := [] } n with
      window := true, seq := { b2.seq with st := .run, pc := b2.seq.pc + 16 } }
  else b2

/-- The issue checks of R86 on an arrival that name no stored mask: zero, own bit, members that exist, and a second
arrival. -/
def barIssueBad (b : BarWord) (party nw : Nat) (hasSeq : Bool) (m : BitVec 17) : Bool :=
  m = 0 || !m.getLsbD party || (m.toNat % 2 ^ 16) / 2 ^ nw ≠ 0 || (m.getLsbD 16 && !hasSeq) || barWaits b party

/-- The stored-mask check of R86. -/
def barMaskBad (b : BarWord) (m : BitVec 17) : Bool := b.mask ≠ 0 && b.mask ≠ m

/-! ### Ending waves, blocks, gangs and grids -/

/-- The members of a gang's slot whose blocks have not ended a wave without executing: whether a block arrives with
this arrival word (R350). -/
def blockArrives (s : State) (b : Block) (a : ArrWord) : Bool :=
  a.waves ≠ 0 && b.waves.all fun w => match s.wave? w with
    | some v => !v.alive || a.waves.getLsbD v.idx
    | none => true

/-- Completion of a gang's GBAR phase: the slot and every member block's word advance (R350). -/
def gbarComplete (s : State) (gk : Nat) (g : Gang) : State :=
  let s1 := s.modGang gk fun g => { g with gb := ⟨0, 0, g.gb.phase + 1⟩ }
  g.blocks.foldl (fun s b => s.modBlock b fun x =>
    if g.gb.gmask.getLsbD x.gblk then { x with gbar := ⟨x.gbar.phase + 1, 0, 0⟩ } else x) s1

/-- A block arrives at its gang's slot for GBAR or XBAR (R350, R351). A mask that differs from the slot's arrives
nowhere. -/
def treeArrive (s : State) (bk : Nat) (x : Bool) : State :=
  match s.block? bk with
  | none => s
  | some b => match s.gang? b.gang with
    | none => s
    | some g =>
      let m := (if x then b.xbar else b.gbar).bmask
      let f := if x then g.xb else g.gb
      if f.gmask ≠ 0 && f.gmask ≠ m then s else
      let f' : TreeFld := { f with gmask := if f.gmask = 0 then m else f.gmask, garr := f.garr ||| BitVec.ofNat 8 (2 ^ b.gblk) }
      let s1 := s.modGang b.gang fun g => if x then { g with xb := f' } else { g with gb := f' }
      if f'.garr = f'.gmask && !x then gbarComplete s1 b.gang { g with gb := f' } else s1

/-- After a wave ends, its block may arrive at the tree (R350). -/
def endArrivals (s : State) (bk : Nat) : State :=
  match s.block? bk with
  | none => s
  | some b =>
    let one (s : State) (x : Bool) : State :=
      let a := if x then b.xbar else b.gbar
      let done := match s.gang? b.gang with
        | some g => (if x then g.xb else g.gb).garr.getLsbD b.gblk
        | none => true
      if blockArrives s b a && !done then treeArrive s bk x else s
    one (one s false) true

/-- A gang retires when every block has retired: its pool is discarded, and a non-empty one counts (R99, R335). The
grid flushes after its last gang (R328). -/
def gangRetire (s : State) (gk : Nat) : State :=
  match s.gang? gk with
  | none => s
  | some g =>
    if g.st = .retired || !(g.blocks.all fun b => match s.block? b with | some x => x.st = .retired | none => true) then s else
    let s1 := if g.pool = [] then s else countEvent s g.ctx 6
    let s1 := match g.image with
      | some a => s1.modCtx g.ctx fun x => { x with poolUsed := x.poolUsed.filter fun u => u.1 ≠ a }
      | none => s1
    let s2 := s1.modGang gk fun g => { g with st := .retired, castle := none, pool := [], gb := ⟨0, 0, 0⟩, xb := ⟨0, 0, 0⟩, image := none, kept := none }
    match s2.grid? g.grid with
    | none => s2
    | some r =>
      if (r.st = .placed || r.st = .ending) && r.pending = [] &&
          (r.gangs.all fun k => match s2.gang? k with | some y => y.st = .retired | none => true) then
        s2.modGrid g.grid fun r => { r with st := .flushing }
      else s2

/-- A block retires when its waves have ended and its sequencer has stopped (R291, R334). -/
def blockRetire (s : State) (bk : Nat) : State :=
  match s.block? bk with
  | none => s
  | some b =>
    let ended := b.waves.all fun w => match s.wave? w with | some v => !v.alive | none => true
    let stopped := b.seq.st = .absent || b.seq.st = .ended || b.seq.st = .stopped
    if !ended || !stopped || b.st ≠ .resident then s else
    gangRetire (s.modBlock bk fun b => { b with st := .retired, pool := [], pre := [], saved := [], obuf := [], tiles := [], window := false, kept := none }) b.gang

/-- When the last wave of a block ends, its pool is discarded (R83) and a waiting sequencer is stopped, which counts
as an event (R291). -/
def blockLastWave (s : State) (bk : Nat) : State :=
  match s.block? bk with
  | none => s
  | some b =>
    let ended := b.waves.all fun w => match s.wave? w with | some v => !v.alive | none => true
    if !ended then s else
    let s1 := if b.pool = [] then s else countEvent s b.ctx 6
    let s2 := s1.modBlock bk fun b => { b with pool := [] }
    let waits := match b.seq.st with | .waitBar _ => true | .run => b.seq.waits | _ => false
    let s3 := if waits then countEvent (s2.modBlock bk fun b => { b with seq := { b.seq with st := .stopped }, window := false, pre := [], saved := [] }) b.ctx 9 else s2
    blockRetire s3 bk

/-- A wave ends: its buffer is discarded, and a non-empty one counts (R83, R191, R330). -/
def endWave (s : State) (w : Nat) : State :=
  match s.wave? w with
  | none => s
  | some v =>
    if !v.alive then s else
    let s1 := if v.bufD = [] && v.bufS = [] then s else countEvent s v.ctx 6
    let s2 := s1.putWave w { v with st := .ended, seat := none, slot0 := .free, slot1 := .free, stack := [], bufD := [], bufS := [], late := [], trk := Wave.noTrack false, parkTime := none }
    blockLastWave (endArrivals s2 v.blk) v.blk

/-- Every wave of an ENDING grid stops, its sequencers stop, and its gangs are freed (R328). DESIGN CHOICE (log 74): a COMMIT
that has begun its climb and waits at a higher step is cut there, and its pools are discarded with the gang. -/
def gridStop (s : State) (gr : Nat) : State :=
  match s.grid? gr with
  | none => s
  | some r =>
    if r.st ≠ .ending then s else
    let s2 := (kfind s.waves fun _ v => v.grid = gr).foldl endWave s
    let s3 := r.gangs.foldl (fun s g => match s.gang? g with
      | some x => x.blocks.foldl (fun s b => blockRetire (s.modBlock b fun y =>
          if y.st = .retired then y else { y with st := .resident, seq := { y.seq with st := if y.seq.st = .absent then .absent else .stopped } }) b) s
      | none => s) s2
    let s4 := r.gangs.foldl gangRetire s3
    if r.gangs = [] then s4.modGrid gr fun r => { r with st := .flushing } else s4

/-- A grid ends with STATUS FAULT (R295, R328): pending gangs are discarded and every wave issues nothing further; the
status records the fault of the lowest issuer index of those that fault in one tick, at whose end the grid stops. -/
def gridFault (s : State) (gr code : Nat) (iss : Word) : State :=
  match s.grid? gr with
  | none => s
  | some r =>
    if r.st = .placing || r.st = .placed || r.st = .ending then
      let lower := r.st = .ending && r.status = 1 && r.issuer.toNat ≤ iss.toNat
      s.modGrid gr fun r => { r with
        st := .ending, pending := [], status := 1
        fcode := if lower then r.fcode else code
        issuer := if lower then r.issuer else iss }
    else s

/-! ### The trap frame (R57, R296) -/

/-- Size of the frame (R296). -/
def frameSize : Nat := 12288

/-- Size of the frame with the table of the divergence stack after it (R64). -/
def privSize : Nat := frameSize + 8160

/-- The offset in the wave's private slot that an address names, if the trap frame or the divergence stack's table lies
there: the wave's accesses act on these directly, and no other agent sees them (R62, R296). That a program's own access
to the stack's table is direct as well is the model's reading (log 55). -/
def inFrame (s : State) (v : Wave) (ea : Nat) : Option Nat :=
  let a := privAddr s v
  if a ≤ ea && ea < a + privSize then some (ea - a) else none

/-- The 2-bit state of an entry in the frame. -/
def stateCode : CellSt → Nat
  | .full => 0 | .empty _ => 1 | .lost => 2

/-- What a trap records besides the wave's state. -/
structure TrapInfo where
  code : Nat
  seq : Bool
  late : Bool
  fslot : Nat
  info : Word
  fpc : Word
  resume : Word
  lanes : Mask
  ea : Nat
  fl : KMap FFlags
  exec : Mask
deriving DecidableEq, Repr

/-- A slot's state byte in the frame. -/
def slotByte (x : Slot) : Nat := (if x.live then 1 else 0) + (if x.hold = .join then 2 else 0)

/-- Bytes from an offset, zero bytes left out. -/
def segment (off n v : Nat) : List (Nat × Byte) := (bytesAt off n v).filter fun x => x.2 ≠ 0

/-- The frame's bytes in ascending order, zero bytes left out (R296). -/
def frameBytes (v : Wave) (t : TrapInfo) : KMap Byte :=
  let r (sl : Nat) : Nat := (if t.fslot = sl then t.resume else (v.slot sl).pc).toNat
  segment 0 1 t.code ++ segment 1 1 ((if t.seq then 1 else 0) + (if t.late then 2 else 0)) ++ segment 2 1 t.fslot ++
  segment 3 1 v.stack.length ++ segment 4 4 t.info.toNat ++ segment 8 4 t.fpc.toNat ++
  segment 0x10 4 (r 0) ++ segment 0x14 4 (r 1) ++ segment 0x18 8 v.slot0.mask.toNat ++ segment 0x20 8 v.slot1.mask.toNat ++
  segment 0x28 1 (slotByte v.slot0) ++ segment 0x29 1 (slotByte v.slot1) ++ segment 0x2A 1 (t.ea / 2 ^ 64) ++
  segment 0x2C 4 v.fpen.toNat ++ segment 0x30 8 t.lanes.toNat ++ segment 0x38 8 (t.ea % 2 ^ 64) ++
  ((List.range 8).map fun i => segment (0x40 + 16 * i) 9 ((v.bases.toList[i]?.map BitVec.toNat).getD 0)).flatten ++
  ((List.range 7).map fun i => segment (0xC0 + 8 * i) 8 (v.pred i).toNat).flatten ++
  ((List.range 64).map fun l => segment (0x100 + 4 * l) 4 (v.flag l).toNat).flatten ++
  ((List.range 64).map fun l => segment (0x200 + l) 1 (kgetD t.fl l 0).toNat).flatten ++
  ((List.range 40).map fun e => ((List.range 64).map fun l => segment (0x400 + 256 * e + 4 * l) 4 (v.cell e l).val.toNat).flatten).flatten ++
  ((List.range 40).map fun e => segment (0x2C00 + 16 * e) 16
    ((List.range 64).foldl (fun n l => n + stateCode (v.cell e l).st * 4 ^ l) 0)).flatten

/-- The number at an offset of a frame. -/
def frameNat (f : KMap Byte) (off n : Nat) : Nat := leNat ((List.range n).map fun i => kgetD f (off + i) 0)

/-- Writes one byte of a frame. -/
def framePut (f : KMap Byte) (off : Nat) (b : Byte) : KMap Byte := if b = 0 then kdel f off else kput f off b

/-- Entry i of the divergence stack as its table holds it (R62). -/
def stkAt (f : KMap Byte) (i : Nat) : StkEntry :=
  let a := frameSize + 32 * i
  ⟨BitVec.ofNat 64 (frameNat f a 8), BitVec.ofNat 32 (frameNat f (a + 16) 4), BitVec.ofNat 32 (frameNat f (a + 20) 4)⟩

/-- The lowest `depth` entries of the table, top first. -/
def stkOf (f : KMap Byte) (depth : Nat) : List StkEntry := ((List.range depth).map (stkAt f)).reverse

/-- Writes entry i of the table: its 32 bytes (R62). -/
def stkPut (f : KMap Byte) (i : Nat) (e : StkEntry) : KMap Byte :=
  (bytesAt (frameSize + 32 * i) 16 e.mask.toNat ++
    bytesAt (frameSize + 32 * i + 16) 16 (e.pc.toNat + 2 ^ 32 * e.join.toNat)).foldl (fun f y => framePut f y.1 y.2) f

/-- Pushes an entry onto the divergence stack (R60, R62). -/
def Wave.pushStk (v : Wave) (e : StkEntry) : Wave :=
  { v with stack := e :: v.stack, frame := stkPut v.frame v.stack.length e }

/-- Replaces the top entry, below which `t` stands (R61). -/
def Wave.swapStk (v : Wave) (e : StkEntry) (t : List StkEntry) : Wave :=
  { v with stack := e :: t, frame := stkPut v.frame t.length e }

/-- The 2-bit state of an entry in the trap frame. -/
def frameCode (v : Wave) (e l : Nat) : Nat := (kgetD v.frame (0x2C00 + 16 * e + l / 4) 0).toNat / 4 ^ (l % 4) % 4

/-- Sets the state of an entry in the trap frame, with which its producer is done. -/
def frameState (v : Wave) (e l c : Nat) : Wave :=
  let a := 0x2C00 + 16 * e + l / 4
  let b := (kgetD v.frame a 0).toNat
  let k := 4 ^ (l % 4)
  { v with frame := framePut v.frame a (BitVec.ofNat 8 (b - b / k % 4 * k + c * k)), frameAtt := kdel v.frameAtt (64 * e + l) }

/-- Puts a word into an entry of the trap frame, FULL. -/
def frameWord (v : Wave) (e l : Nat) (x : Word) : Wave :=
  frameState { v with frame := (bytesAt (0x400 + 256 * e + 4 * l) 4 x.toNat).foldl (fun f y => framePut f y.1 y.2) v.frame } e l 0

/-- What holds a slot: 0 and 1 the wave's own, 2 and 3 those that its trap frame holds (R57). -/
def Wave.holdAt (v : Wave) (k : Nat) : Hold :=
  match k with
  | 0 => v.slot0.hold
  | 1 => v.slot1.hold
  | 2 => v.frameHold0
  | _ => v.frameHold1

/-- Ends what holds a slot, numbered as in `holdAt`. -/
def Wave.letGo (v : Wave) (k : Nat) : Wave :=
  match k with
  | 0 => { v with slot0 := { v.slot0 with hold := .none } }
  | 1 => { v with slot1 := { v.slot1 with hold := .none } }
  | 2 => { v with frameHold0 := .none }
  | _ => { v with frameHold1 := .none }

/-- The lowest live slot. -/
def Wave.firstSlot (v : Wave) : Nat := if v.slot0.live then 0 else 1

/-- The guard field of a word (R159). -/
def guardField (w : BitVec 128) : Guard := ⟨w.getLsbD 113, (w.extractLsb' 110 3).toFin⟩

/-- The lanes in which the word at a slot's PC executes: those of the mask, and of the issue, in which the word's guard holds
(R23, R183); none where the word cannot be fetched. -/
def execLanes (s : State) (w sl : Nat) (v : Wave) : Mask :=
  let lanes : Mask := match s.cur with
    | .wave k n m _ => if k = w && n = sl then m else allLanes
    | _ => allLanes
  match xlate s v.ctx (codeVa s v.grid (v.slot sl).pc) .fetch with
  | .hit pa => (v.slot sl).mask &&& lanes &&& v.guard (guardField (BitVec.ofNat 128 (devNat s v.ctx pa 16)))
  | _ => 0

/-- Takes a T-class fault or a TRAP in a wave's slot (R57, R295, R296). The faulting instruction has had no effect. A
wave in its handler, or without one, ends its grid: the status names the lowest faulting lane, or, for a double fault and a
fault that names no lane, the wave's lowest live lane (R295, R329, log 68). The handler's H and N entries hold no bits (log 1).
The FAULT trace record names the lowest executing lane (R404). -/
def takeTrap (s : State) (w : Nat) (t : TrapInfo) : State :=
  match s.wave? w with
  | none => s
  | some v =>
    let s0 := traceWave s w 4 t.code (lowLane (if t.exec ≠ 0 then t.exec else if t.lanes ≠ 0 then t.lanes else v.liveMask)) t.fpc t.ea
    match descOf s v.grid with
    | none => s0
    | some d =>
      if v.inHandler || !d.hasTrap then
        gridFault s0 v.grid t.code (issuer s v (if v.inHandler || t.lanes = 0 then lowLane v.liveMask else lowLane t.lanes))
      else
        let att := (v.ents.filterMap fun x => match x.2.st with | .empty p => if x.1 < 64 * 40 then some (x.1, p) else none | _ => none)
        let v1 := { v with
          frame := frameBytes v t ++ v.frame.filter (fun x : Nat × Byte => frameSize ≤ x.1), frameAtt := att
          frameHold0 := v.slot0.hold, frameHold1 := v.slot1.hold
          frameDenied0 := v.slot0.denied, frameDenied1 := v.slot1.denied
          ents := v.ents.filter fun x => 64 * 40 ≤ x.1
          slot0 := .at_ d.trapOff v.liveMask, slot1 := .free, inHandler := true }
        s0.putWave w (v1.setBase 7 (BitVec.ofNat 72 (privAddr s v)))

/-- An entry's state when RTT restores it (R298): FULL, LOST, or EMPTY only while its producer is attached. -/
def rttState (s : State) (v : Wave) (e l : Nat) : CellSt :=
  match frameCode v e l with
  | 0 => .full
  | 1 => match kget v.frameAtt (64 * e + l) with
    | some p => if (kget s.prods p).isSome then .empty p else .lost
    | none => .lost
  | _ => .lost

/-- Producers stay attached to frame entries only while their state there reads EMPTY (R57, R298). -/
def Wave.settleAtt (v : Wave) : Wave :=
  { v with frameAtt := v.frameAtt.filter fun x => frameCode v (x.1 / 64) (x.1 % 64) = 1 }

/-- A0 to A7, p0 to p6, FPFLAGS and FPEN as a frame holds them (R296). -/
def frameRegs (f : KMap Byte) (v : Wave) : Wave :=
  { v with
    bases := Vector.ofFn fun i => BitVec.ofNat 72 (frameNat f (0x40 + 16 * i.val) 9)
    preds := Vector.ofFn fun i => BitVec.ofNat 64 (frameNat f (0xC0 + 8 * i.val) 8)
    flags := (List.range 64).filterMap fun l =>
      let x : FFlags := BitVec.ofNat 6 (frameNat f (0x100 + 4 * l) 4)
      if x = 0 then none else some (l, x)
    fpen := BitVec.ofNat 6 (frameNat f 0x2C 4) }

/-- The wave that RTT restores from its frame (R57, R298); the frame's bytes stay in the wave's private slot. -/
def rttWave (s : State) (v : Wave) : Wave :=
  let f := v.frame
  let slot (sl : Nat) : Slot :=
    let b := frameNat f (0x28 + sl) 1
    let pc := BitVec.ofNat 32 (frameNat f (0x10 + 4 * sl) 4)
    let hold := if b / 2 % 2 = 1 then Hold.join else match (if sl = 0 then v.frameHold0 else v.frameHold1) with
      | .join => .none
      | h => h
    if b % 2 = 1 then { Slot.at_ pc (BitVec.ofNat 64 (frameNat f (0x18 + 8 * sl) 8)) with
      hold, denied := if sl = 0 then v.frameDenied0 else v.frameDenied1 } else .free
  let ents := ((List.range 40).map fun e => (List.range 64).filterMap fun l =>
      let c : Cell := ⟨BitVec.ofNat 32 (frameNat f (0x400 + 256 * e + 4 * l) 4), rttState s v e l⟩
      if c = ⟨0, .lost⟩ then none else some (64 * e + l, c)).flatten
  { frameRegs f v with
    slot0 := slot 0, slot1 := slot 1
    stack := stkOf f (frameNat f 3 1)
    ents := ents ++ v.ents.filter fun x => 64 * 40 ≤ x.1
    frameAtt := [], frameHold0 := .none, frameHold1 := .none, frameDenied0 := [], frameDenied1 := [], inHandler := false }

/-- A frame that makes RTT a double fault: live masks that overlap, or a live slot with an empty mask (R298). -/
def rttBad (v : Wave) : Bool :=
  let f := v.frame
  let live (sl : Nat) : Bool := frameNat f (0x28 + sl) 1 % 2 = 1
  let m (sl : Nat) : Mask := BitVec.ofNat 64 (frameNat f (0x18 + 8 * sl) 8)
  (live 0 && m 0 = 0) || (live 1 && m 1 = 0) || (live 0 && live 1 && m 0 &&& m 1 ≠ 0)

/-! ### Faults at issue -/

/-- A T-class fault of the word at a slot's PC: the frame PC and the resume PC are the word's (R57, R296). -/
def takeT (s : State) (w sl code : Nat) (lanes : Mask) (ea : Nat) (info : Word) : State :=
  match s.wave? w with
  | none => s
  | some v => takeTrap s w ⟨code, false, false, sl, info, (v.slot sl).pc, (v.slot sl).pc, lanes, ea, [], execLanes s w sl v⟩

/-- Adds a fault for the wave's next issue attempt (R57, R280, R304). -/
def addLate (s : State) (w : Nat) (l : Late) : State := s.modWave w fun v => if v.alive then { v with late := v.late ++ [l] } else v

/-- A stop record (R361) in the context's stop ring. -/
def stopRecord (s : State) (c code kind flags : Nat) (place iss pc0 pc1 : Word) (m0 m1 : Mask) (detail : Nat) : State :=
  match s.ctx? c with
  | none => s
  | some x =>
    if x.stopsPrev + 4096 ≤ x.stops then s.modCtx c fun x => { x with stopsDropped := x.stopsDropped + 1 } else
    let r := s.tick.toNat + 2 ^ 64 * (code + 256 * kind + 2 ^ 16 * flags + 2 ^ 32 * place.toNat) +
      2 ^ 128 * (iss.toNat + 2 ^ 32 * pc0.toNat + 2 ^ 64 * pc1.toNat) + 2 ^ 224 * m0.toNat + 2 ^ 288 * m1.toNat +
      2 ^ 352 * (detail % 2 ^ 64)
    let s1 := devEntry s c none (bytesAt (x.poolBase + 64 * (x.stops % 4096)) 64 r)
    s1.modCtx c fun x => { x with stops := x.stops + 1 }

/-- The courier of a copy: its die, its cluster and which of the two it is (R31, R273). -/
def courierOf (c : Copy) : Nat × Nat × Nat := (c.place.die, c.place.cl, if Config.courier c.group then 1 else 0)

/-- The courier of a copy as an engine. -/
def copyEngine (c : Copy) : Option Engine := some (.courier (courierOf c).1 (courierOf c).2.1 (courierOf c).2.2)

/-- The cluster whose porter serves a home: its own in RUN and while it still quiesces, else its buddy's (R433). -/
def servingPorter (s : State) (c : Nat) : Nat :=
  if 64 ≤ c || (s.cluster c).st ≤ 1 then c else if c % 2 = 0 then c + 1 else c - 1

/-- The porter that serves a request. -/
def reqEngine (s : State) (r : Req) : Engine := let c := servingPorter s r.home; .porter (c / 16) (c % 16)

/-- A porter holds work of a context: a request in its hall, or one that a phase holds (R105, R107). -/
def porterWork (s : State) (c p : Nat) : Bool :=
  s.hall.any (fun r => r.ctx = c && servingPorter s r.home = p) ||
  s.clusters.any fun y => (y.2.held ++ y.2.ovf).any (fun r => r.ctx = c) && servingPorter s y.1 = p

/-- The stop record of an engine, where it holds work of the context: KIND, place, issuer, PCs, masks (R361). -/
def stopOf (s : State) (c : Nat) (e : Engine) : Option (Nat × Word × Word × Word × Word × Mask × Mask) :=
  match e with
  | .wave w => match s.wave? w with
    | some v => if v.ctx = c && v.alive && v.st ≠ .saved then
        some (0, placeId v.place, issuer s v (lowLane v.liveMask), v.slot0.pc, v.slot1.pc, v.slot0.mask, v.slot1.mask) else none
    | none => none
  | .sequencer k => match s.block? k with
    | some b => if b.ctx = c && b.st = .resident && b.seq.st ≠ .absent && b.seq.st ≠ .ended && b.seq.st ≠ .stopped then some (1, placeId ⟨b.die, b.cl, b.core, 0, 0⟩, 0, b.seq.pc, 0, 0, 0) else none
    | none => none
  | .courier d cl k => if s.copies.any fun y => y.2.ctx = c && courierOf y.2 = (d, cl, k) then some (2, placeId ⟨d, cl, 0, 0, 0⟩, 0, 0, 0, 0, 0) else none
  | .porter d cl => if porterWork s c (16 * d + cl) then some (3, placeId ⟨d, cl, 0, 0, 0⟩, 0, 0, 0, 0, 0) else none
  | .matrix k => if (kgetD s.matrix k []).any fun m => ctxOfBlock s m.blk = c then
      some (4, placeId ⟨k / 128, k / 8 % 16, k % 8, 0, 0⟩, 0, 0, 0, 0, 0) else none
  | .lane l => if s.queues.any fun y => y.2.ctx = c && (match y.2.room with | some r => r % 64 = l | none => false) then
      some (5, 0, 0, 0, 0, 0, 0) else none

/-- Where a stopped wave stood, for its inspector (R308). -/
def haltNote (s : State) (e : Engine) : State :=
  match e with
  | .wave w => s.modWave w fun v => if v.st = .halted then v else { v with halt := ⟨6, 0, v.liveMask, 0, s.tick⟩ }
  | _ => s

/-- The stop record of the engine that met a fault: an innkeeper lane's where no engine holds the work (R361). -/
def faultRecord (s : State) (c code flags detail : Nat) (e : Option Engine) : State :=
  match e.bind (stopOf s c) with
  | some (kind, place, iss, pc0, pc1, m0, m1) => stopRecord s c code kind flags place iss pc0 pc1 m0 m1 detail
  | none => stopRecord s c code 5 flags 0 0 0 0 0 0 detail

/-- An engine of a context under its halt line stops: it writes its one stop record (R360, R361). -/
def engineStop (s : State) (c code : Nat) (e : Engine) : State :=
  match s.ctx? c with
  | none => s
  | some x =>
    if x.stopped.contains e then s else
    match stopOf s c e with
    | none => s
    | some (kind, place, iss, pc0, pc1, m0, m1) =>
      haltNote (stopRecord (s.modCtx c fun x => { x with stopped := x.stopped ++ [e] }) c code kind 0 place iss pc0 pc1 m0 m1 0) e

/-- The rank of the faults of one tick: a wave's by its issuer index, an engine's below every wave's (R361). -/
def faultRank (s : State) (e : Option Engine) : Nat :=
  match e with
  | some (.wave w) => (match s.wave? w with | some v => (issuer s v (lowLane v.liveMask)).toNat | none => 2 ^ 32)
  | _ => 2 ^ 32

/-- An H-class fault of a context, met by an engine (R357, R360, R361): LIVE goes to HALTED with its cause; a further
fault in HALTED leaves the cause, unless it arose in the cause's tick and ranks before it. `HALTREQ` is not outstanding in
`faults`. -/
def haltCtx (s : State) (c code detail : Nat) (e : Option Engine) : State :=
  match s.ctx? c with
  | none => s
  | some x =>
    let rank := faultRank s e
    let at_ := if x.stopsPrev + 4096 ≤ x.stops then none else some x.stops
    let note (s : State) : State := match e with | some y => haltNote s y | none => s
    match x.st with
    | .live =>
      let s1 := s.modCtx c fun x => { x with
        st := .halted, cause := code, causeRank := rank, causeAt := at_, faults := (if code = 0x25 then [] else [code])
        haltTick := s.tick, stopped := e.toList }
      note (faultRecord s1 c code 1 detail e)
    | .halted =>
      let s1 := s.modCtx c fun x => { x with
        faults := (if code = 0x25 then x.faults else x.faults ++ [code]), stopped := (x.stopped ++ e.toList).eraseDups }
      if x.haltTick = s.tick && rank < x.causeRank then
        let s2 := faultRecord s1 c code 1 detail e
        let s3 := match x.causeAt with
          | some n => devEntry s2 c none [(x.poolBase + 64 * (n % 4096) + 10, 2)]
          | none => s2
        s3.modCtx c fun x => { x with cause := code, causeRank := rank, causeAt := at_ }
      else faultRecord s1 c code 2 detail e
    | _ => s

end Sys2Proof.Machine
end

