-- ==== Sys2Proof/Machine/Log.lean ====
section
/-! DEFINITION. Record and replay (R409 to R417): the store hash, the streams of a context's log, their chunks in
memory, and the gate through which every logged entry passes. -/

namespace Sys2Proof.Machine

/-! ### CRC-64 (R413) -/

/-- One bit of the CRC, most significant bit first. -/
def crcBits : Nat → DWord → DWord
  | 0, c => c
  | n + 1, c => crcBits n (if c.msb then (c <<< 1) ^^^ 0x42F0E1EBA9EA3693 else c <<< 1)

/-- One byte into the CRC. -/
def crcByte (c : DWord) (b : Byte) : DWord := crcBits 8 (c ^^^ (b.setWidth 64 <<< 56))

/-- Bytes into the CRC. -/
def crcList (c : DWord) (l : List Byte) : DWord := l.foldl crcByte c

/-- What a store adds to the store hash (R413): for each lane, space, address and bytes. -/
def hashStores (c : DWord) (scratch : Bool) (l : List (Nat × List Byte)) : DWord :=
  l.foldl (fun c x => crcList (crcByte c (if scratch then 1 else 0)) (leBytes 9 x.1 ++ x.2)) c

/-! ### Streams -/

/-- The key of a stream: SKIND and SID as chunk word 0 holds them (R412). -/
def streamKey (skind sid : Nat) : Nat := skind * 2 ^ 30 + sid

/-- A new stream (R411: the first record counts its ticks from the RECSET). -/
def LogStream.new (key grid chunk : Nat) (start : DWord) : LogStream :=
  ⟨key, grid, chunk, [], 0, start, 0, 0, 0, 0, 0, 0, [], none, 0, none⟩

/-- A record's fields (R411). -/
def logIss (r : DWord) : Word := r.extractLsb' 32 32
def logRun (r : DWord) : Nat := (r.extractLsb' 20 12).toNat
def logLow (r : DWord) : Nat := (r.extractLsb' 0 20).toNat
def logRec (iss : Word) (run low : Nat) : DWord := iss ++ (BitVec.ofNat 12 run ++ BitVec.ofNat 20 low)

/-- Writes the log header's counts and flags (R409). -/
def logHeader (s : State) (c : Nat) (r : RecMode) : State :=
  devEntry s c none (bytesAt r.base 8 r.bytes ++ bytesAt (r.base + 8) 8 r.chunks ++
    bytesAt (r.base + 16) 48 ((if r.full then 1 else 0) + (if r.diverged then 2 else 0)))

def modRec (s : State) (c : Nat) (f : RecMode → RecMode) : State := s.modCtx c fun x => { x with rec_ := f x.rec_ }

def setStream (r : RecMode) (t : LogStream) : RecMode :=
  { r with streams := r.streams.filter (fun x => x.key ≠ t.key || x.grid ≠ t.grid) ++ [t] }

def findStream (r : RecMode) (key grid : Nat) : Option LogStream := r.streams.find? fun x => x.key = key && x.grid = grid

/-- Closes a stream's chunk, which enters the log at the end of the tick (R412, R422). -/
def closeChunk (s : State) (c key grid : Nat) : State :=
  match s.ctx? c with
  | none => s
  | some x =>
    match findStream x.rec_ key grid with
    | none => s
    | some t =>
      if t.recs = [] || x.rec_.full then s else
      modRec s c fun r => { setStream r { t with chunk := t.chunk + 1, recs := [], crc := 0 } with due := r.due ++ [t] }

/-- The bytes of a closed chunk at an address of the log (R412). -/
def chunkBytes (a : Nat) (t : LogStream) : List (Nat × Byte) :=
  bytesAt a 8 (t.key * 2 ^ 32 + t.recs.length * 2 ^ 16) ++
  bytesAt (a + 8) 8 ((if t.key / 2 ^ 30 = 2 then 0 else t.grid) * 2 ^ 32 + t.chunk) ++ bytesAt (a + 16) 8 t.crc.toNat ++
  (t.recs.zipIdx.map fun (d, i) => bytesAt (a + 24 + 8 * i) 8 d.toNat).flatten

/-- A closed chunk is written after the last one, or sets LOGFULL (R409). -/
def writeChunk (c : Nat) (s : State) (t : LogStream) : State :=
  match s.ctx? c with
  | none => s
  | some x =>
    let r := x.rec_
    let size := 24 + 8 * t.recs.length
    if r.full then s
    else if r.len * 4096 < 128 + r.bytes + size then
      let r1 := { r with full := true }
      logHeader (modRec s c fun _ => r1) c r1
    else
      let r1 := { r with bytes := r.bytes + size, chunks := r.chunks + 1 }
      logHeader (modRec (devEntry s c none (chunkBytes (r.base + 128 + r.bytes) t)) c fun _ => r1) c r1

/-- Inserts a chunk by {SKIND, SID}, ascending; those of one stream keep their order. -/
def chunkInsert (t : LogStream) : List LogStream → List LogStream
  | [] => [t]
  | y :: l => if t.key < y.key then t :: y :: l else y :: chunkInsert t l

/-- The chunks that have closed in a tick enter the log (R422). -/
def flushLog (s : State) (c : Nat) : State :=
  match s.ctx? c with
  | none => s
  | some x =>
    if x.rec_.due = [] then s else
    (x.rec_.due.foldl (fun l t => chunkInsert t l) []).foldl (writeChunk c) (modRec s c fun r => { r with due := [] })

/-- Every open chunk of a context closes and enters the log, as at a RECSET (R422). -/
def closeLog (s : State) (c : Nat) : State :=
  match s.ctx? c with
  | none => s
  | some x => flushLog (x.rec_.streams.foldl (fun s t => closeChunk s c t.key t.grid) s) c

/-- Appends one entry, or a marker, to a stream in RECORD (R411, R412). -/
def recordEntry (s : State) (c key grid : Nat) (iss : Word) (hash : DWord) (mark : Option Nat) : State :=
  match s.ctx? c with
  | none => s
  | some x =>
    let r := x.rec_
    if r.full then s else
    let t := (findStream r key grid).getD (LogStream.new key grid 0 r.start)
    let last := t.recs.getLast?
    let joins := match last, mark with
      | some d, none => logIss d = iss && logRun d ≠ 0 && logRun d < 4095
      | _, _ => false
    let low := match mark with
      | some i => i % 2 ^ 20
      | none => match last with
        | some d => if logIss d = iss && logRun d = 4095 then 0 else min (s.tick - t.lastTick).toNat (2 ^ 20 - 1)
        | none => min (s.tick - t.lastTick).toNat (2 ^ 20 - 1)
    let t1 := if joins then
        { t with recs := t.recs.dropLast ++ [match last with | some d => logRec iss (logRun d + 1) (logLow d) | none => 0] }
      else { t with
        recs := t.recs ++ [logRec iss (if mark.isSome then 0 else 1) low]
        firstTick := if t.recs = [] then s.tick else t.firstTick
        lastTick := s.tick
        crc := crcList t.crc (leBytes 8 (if mark.isSome then 0 else hash.toNat)) }
    let s1 := modRec s c fun r => setStream r t1
    if t1.recs.length = 255 && !joins then closeChunk s1 c key grid else s1

/-! ### Replay -/

/-- The offset of a stream's chunk in the log, its NREC and HASH, by a scan of the chunks (R412). -/
def findChunk (s : State) (c : Nat) (r : RecMode) (key grid chunk : Nat) : Nat → Nat → Option (Nat × Nat × DWord)
  | 0, _ => none
  | n + 1, a =>
    let w0 := devNat s c a 8
    let w1 := devNat s c (a + 8) 8
    let nrec := w0 / 2 ^ 16 % 2 ^ 16
    if nrec = 0 || r.base + r.len * 4096 < a + 24 + 8 * nrec then none
    else if w0 / 2 ^ 32 = key && w1 / 2 ^ 32 = grid && w1 % 2 ^ 32 = chunk then
      some (a + 24, nrec, BitVec.ofNat 64 (devNat s c (a + 16) 8))
    else findChunk s c r key grid chunk n (a + 24 + 8 * nrec)

/-- A stream with a head record, opening its next chunk where the last is used up; none at the end of the stream. -/
def withHead (s : State) (c : Nat) (r : RecMode) (t : LogStream) : Option LogStream :=
  if t.left ≠ 0 then some t else
  match findChunk s c r t.key (if t.key / 2 ^ 30 = 2 then 0 else t.grid) t.chunk (r.len * 128) (r.base + 128) with
  | none => none
  | some (a, n, h) =>
    let d := BitVec.ofNat 64 (devNat s c a 8)
    some { t with left := n, at_ := a, logHash := h, crc := 0, headIss := logIss d, headRun := logRun d }

/-- Writes the first divergence of a run and applies the policy (R416, R417). -/
def diverge (s : State) (c kind key grid chunk idx : Nat) (want got : DWord) : State :=
  match s.ctx? c with
  | none => s
  | some x =>
    let r := x.rec_
    if r.diverged then s else
    let a := r.base + 64
    let bytes := bytesAt a 8 s.tick.toNat ++ bytesAt (a + 8) 2 kind ++ bytesAt (a + 10) 2 c ++ bytesAt (a + 12) 4 key ++
      bytesAt (a + 16) 4 grid ++ bytesAt (a + 20) 4 chunk ++ bytesAt (a + 24) 8 idx ++ bytesAt (a + 32) 8 want.toNat ++
      bytesAt (a + 40) 8 got.toNat ++ bytesAt (a + 48) 16 0
    let r1 := { r with diverged := true, mode := if r.free then 0 else r.mode, streams := if r.free then [] else r.streams }
    let s1 := logHeader (modRec (devEntry s c none bytes) c fun _ => r1) c r1
    let s2 := trace s1 c 6 0 0 0 0 0
    if r.free then s2 else haltCtx s2 c 0x26 0 none

/-- Lets the head issuer's waiting entry through a gate (R415, R416): the record's run falls. The first entry of its run
admits a record; the chunk's last one then checks the HASH, and the admitted entry takes effect whatever the comparison
gives (R423). -/
def letPass (s : State) (c : Nat) (t : LogStream) (iss : Word) (hash : DWord) : State :=
    let first := logRun (BitVec.ofNat 64 (devNat s c t.at_ 8)) = t.headRun
    let crc := if first then crcList t.crc (leBytes 8 hash.toNat) else t.crc
    let verdict := if first && t.left = 1 && crc ≠ t.logHash then some (t.chunk, t.recs.length, t.logHash, crc) else none
    if 1 < t.headRun then
      modRec s c fun r => setStream r { t with headRun := t.headRun - 1, crc, admitted := some iss, missing := 0, verdict }
    else
      let d := BitVec.ofNat 64 (devNat s c (t.at_ + 8) 8)
      let t1 := if t.left = 1 then
          { t with
            left := 0, chunk := t.chunk + 1, recs := [], crc := 0, admitted := some iss, missing := 0, verdict }
        else { t with
          left := t.left - 1, at_ := t.at_ + 8, recs := t.recs ++ [0], headIss := logIss d, headRun := logRun d, crc
          admitted := some iss, missing := 0 }
      let s0 := modRec s c fun r => setStream r t1
      if t.left ≠ 1 then s0 else
      let s2 := modRec s0 c fun r => { r with bytes := r.bytes + 24 + 8 * (t.recs.length + 1), chunks := r.chunks + 1 }
      match s2.ctx? c with | some x => logHeader s2 c x.rec_ | none => s2

/-- The admitted entry of a stream goes through its gate, and a HASH that differed is reported (R416, R423). -/
def goThrough (s : State) (c : Nat) (t : LogStream) (iss : Word) : State :=
  let s1 := modRec s c fun r => setStream r { t with admitted := none, verdict := none, waiting := t.waiting.filter (fun y => y.1 ≠ iss) }
  match t.verdict with
  | some (chunk, idx, want, got) => diverge s1 c 1 t.key t.grid chunk idx want got
  | none => s1

/-- Whether a logged entry may enter its order now: the state in which it has passed the gate, or the state in which
it waits there (R415). -/
inductive Gate where
  | pass (s : State)
  | wait (s : State)

/-- Passes one entry of a context through the gate of a stream (R410, R415). -/
def gateOne (s : State) (c key grid0 : Nat) (iss : Word) (hash : DWord) : Gate :=
  let grid := if key / 2 ^ 30 = 2 then 0 else grid0
  match s.ctx? c with
  | none => .pass s
  | some x =>
    match x.rec_.mode with
    | 1 => .pass (recordEntry s c key grid iss hash none)
    | 2 =>
      let t := (findStream x.rec_ key grid).getD (LogStream.new key grid 0 0)
      if t.admitted = some iss then .pass (goThrough s c t iss)
      else if x.rec_.diverged then .wait s
      else match withHead s c x.rec_ t with
      | none => .wait (if t.admitted.isSome then s else diverge s c 4 key grid t.chunk 0 0 (iss.setWidth 64))
      | some t =>
          let wt := if t.waiting.any (fun y => y.1 = iss) then t.waiting else t.waiting ++ [(iss, hash)]
          .wait (modRec s c fun r => setStream r { t with waiting := wt })
    | _ => .pass s

/-- Passes an entry through several gates in turn, as one entry: it waits unless every one admits it, and stays admitted at
those that have. -/
def gateAll (s : State) (c grid : Nat) (iss : Word) (hash : DWord) : List Nat → Gate
  | [] => .pass s
  | k :: t => match gateOne s c k grid iss hash with
    | .wait s1 => .wait s1
    | .pass s1 => match gateAll s1 c grid iss hash t with
      | .wait _ => (match gateAll s c grid iss hash t with
        | .wait s2 => .wait s2
        | .pass _ => .wait s)
      | r => r

/-- The stream of a block's order (R410). -/
def blkStream (s : State) (bk : Nat) : Nat :=
  match s.block? bk with
  | some b => streamKey 0 ((match s.gang? b.gang with | some g => g.idx | none => 0) * 8 + b.gblk)
  | none => streamKey 0 0
/-- The stream of a gang's order (R410). -/
def gangStream (s : State) (gk : Nat) : Nat := streamKey 1 (match s.gang? gk with | some g => g.idx | none => 0)
/-- The stream of a porter's service (R410). -/
def portStream (cl : Nat) : Nat := streamKey 2 cl

/-- The number of a block's grid, counted from the RECSET (R409). -/
def gridNo (s : State) (gr : Nat) : Nat := match s.grid? gr with | some g => g.recNo | none => 0

end Sys2Proof.Machine
end

