-- ==== Sys2Proof/Machine/Levels.lean ====
section
/-! DEFINITION. The levels above a wave (R66 to R101, R113): the wave buffer, the block pool and scratchpad, the gang
pool and the carries between them; tracked sets and the checked commit; when a load reads its bytes. -/

namespace Sys2Proof.Machine

/-- What an entry into a level does: done; a fault; a wait for pages; a malformed walk; a home that is unreachable
(R394); a wait at the entry. Each carries the state with the steps that stand. -/
inductive CRes where
  | ok (s : State)
  | fault (s : State) (code : Nat)
  | park (s : State) (vas : List Nat)
  | bad (s : State) (pa : Nat)
  | lost (s : State) (c m : Nat)
  | wait (s : State)

/-- Goes on after an entry that is done. -/
def CRes.bind (r : CRes) (f : State → CRes) : CRes :=
  match r with
  | .ok s => f s
  | r => r

/-- An entry of several steps that stand or fall together: where it is not done, the state is the one before it. -/
def CRes.whole (r : CRes) (s : State) : CRes :=
  match r with
  | .ok s1 => .ok s1
  | .fault _ code => .fault s code
  | .park _ vas => .park s vas
  | .bad _ pa => .bad s pa
  | .lost _ c m => .lost s c m
  | .wait _ => .wait s

/-- Distinct 64-byte lines of ascending byte addresses. -/
def lineCount (l : List Nat) : Nat := (l.map (· / 64)).eraseDups.length

/-- Writes bytes into a table in order; the last one to an address stands. -/
def putAll (m : KMap Byte) (l : List (Nat × Byte)) : KMap Byte := l.foldl (fun m x => kput m x.1 x.2) m

/-! ### When a load reads (R67, R70, R92) -/

/-- Bytes of one element of a load. -/
def LoadExt.size : LoadExt → Nat
  | .zext n | .sext n => n
  | .bits off n => (off + n + 7) / 8

/-! ### Producers attached to entries (R48, R49, R57) -/

/-- A producer of the trapped program is attached to an entry that lies in the trap frame (R57, R298). -/
def inFrameEntry (v : Wave) (p e l : Nat) : Bool :=
  v.inHandler && e < 40 && kget v.frameAtt (64 * e + l) = some p && frameCode v e l = 1

/-- A producer is attached to an entry: to its place in the trap frame, or to the entry itself (R48, R57). -/
def attached (v : Wave) (p e l : Nat) : Bool := inFrameEntry v p e l || (v.cell e l).st = .empty p

/-- The entries that an element writes: two for an 8-byte element. -/
def LoadExt.words : LoadExt → Nat
  | .zext 8 => 2
  | .sext 8 => 2
  | _ => 1

/-- A load is still attached to an entry of an element's lane. -/
def itemAttached (v : Wave) (p : Nat) (it : LoadItem) : Bool :=
  (List.range it.ext.words).any fun k => attached v p (it.ent + k) it.lane

/-- A byte staged at this module and not yet applied: accesses to it wait (R114). -/
def stagedByte (s : State) (pa : Nat) : Bool :=
  s.staged.any (fun x => x.share.any fun y => y.1 = pa) ||
  s.sysCommits.any fun x => !x.2.applied && isDevice s pa && (kget x.2.share pa).isSome

/-- A port of the module. -/
def port (s : State) (p : Nat) : Port := if h : p < 16 then s.ports[p] else Port.reset

/-- A port that carries flits (R389). -/
def portUp (s : State) (p : Nat) : Bool := (port s p).st = 2 || (port s p).st = 3

/-- A module that a path with an up port reaches (R392). -/
def hasPath (s : State) (m : Nat) : Bool := ((kget s.cfg.paths m).getD []).any (portUp s)

/-- A home that no path reaches now: a request to it waits (R392). -/
def homeCut (s : State) (m : Nat) : Bool := m ≠ s.cfg.modid && !hasPath s m

/-- A byte whose home no path reaches now (R392). -/
def cutOff (s : State) (pa : Nat) : Bool := match homeOf s pa with | .module m => homeCut s m | _ => false

/-- The contexts' access to a home that LINKWAIT has given up (R394): the module's number where one of the addresses
lies there. -/
def lostHome (s : State) (pas : List Nat) : Option Nat :=
  pas.findSome? fun p => match homeOf s p with
    | .module m => if s.unreach.contains m then some m else none
    | _ => none

/-- What a load element that has not been read meets. -/
inductive Miss where
  | none | wait | lost (m : Nat) | bad (pa : Nat) | xlate | page (va : Nat)
deriving DecidableEq, Repr

/-- An element that has not read its bytes. -/
def LoadItem.unread (it : LoadItem) : Bool := it.data.isNone && !it.dead

/-- An element that may read its bytes: it waits on no fault record. -/
def LoadItem.due (it : LoadItem) : Bool := it.unread && !it.held

/-- The first byte of an element that translation does not let through, if any: every byte translates, one of the wave's
own buffer too (R254); scratchpad and the private slot do not (R62, R248, R296). -/
def itemMiss (s : State) (v : Wave) (it : LoadItem) : Miss :=
  if it.scratch || !it.due then .none else
  let one (i : Nat) : Miss :=
    let a := (it.ea + i) % 2 ^ 72
    if (inFrame s v (it.ea + i)).isSome then .none
    else match xlate s v.ctx a .read with
      | .hit pa => match lostHome s [pa] with | some m => .lost m | none => if stagedByte s pa || cutOff s pa then .wait else .none
      | .bad pa => .bad pa
      | .xlate => .xlate
      | _ => .page a
  ((List.range it.ext.size).map one).foldl (fun m k => if m = .none then k else m) .none

/-- The value of one element that translation lets through: the bytes that the wave's own buffer held at its issue, the
rest from the levels. -/
def sampleItem (s : State) (v : Wave) (it : LoadItem) : Nat :=
  leNat ((List.range it.ext.size).map fun i =>
    match (it.own[i]?).join with
    | some b => b
    | none =>
      let a := it.ea + i
      if it.scratch then (match s.block? v.blk with | some b => scratchByte b a | none => 0)
      else match inFrame s v a with
        | some off => kgetD v.frame off 0
        | none => (poolByte s v (a % 2 ^ 72)).2)

/-- Records an element's bytes in the wave's tracked set (R78). -/
def trackItem (s : State) (v : Wave) (it : LoadItem) : Wave :=
  if v.helper.getLsbD it.lane then v else
  let new := (List.range it.ext.size).filterMap fun i =>
    let va := (it.ea + i) % 2 ^ 72
    if v.trk.bytes.any (fun t => t.1 = va) then none
    else some (va, match xlate s v.ctx va .read with | .hit pa => pa | _ => 0)
  let all := v.trk.bytes ++ new
  if 64 < lineCount (all.map Prod.fst) then { v with trk := { v.trk with overflow := true } }
  else { v with trk := { v.trk with bytes := all } }

/-- Two elements share a byte of one space. -/
def LoadItem.overlaps (a b : LoadItem) : Bool :=
  a.scratch == b.scratch && decide (a.ea < b.ea + b.ext.size) && decide (b.ea < a.ea + a.ext.size)

/-- A miss that faults. -/
def Miss.faults : Miss → Bool
  | .none | .wait => false
  | _ => true

/-- An element whose fault is not reported: a helper lane's reads zero (R65), a detached lane's is discarded (R49). -/
def settleItem (s : State) (v : Wave) (p : Nat) (helper : Mask) (it : LoadItem) : LoadItem :=
  if !it.unread || !(itemMiss s v it).faults then it
  else if helper.getLsbD it.lane then { it with data := some 0, seen := true }
  else if !itemAttached v p it then { it with dead := true }
  else it

/-- A load of a wave that an earlier one of the wave, at some byte of its own, keeps from reading (R92): the earlier one
has not read that byte. -/
def loadBehind (s : State) (w p : Nat) (items : List LoadItem) : Bool :=
  s.prods.any fun y => decide (y.1 < p) && decide (y.2.wave = w) && (match y.2.kind with
    | .load its _ => its.any fun a => a.unread && items.any fun b => b.unread && a.overlaps b
    | _ => false)

/-- A load reads its levels, for every element that may read and that translation lets through, at this one point of each
(R70, R92). An LD.TRK records its bytes in the tracked set that stands when it reads them (R78, log 56). -/
def readItems (s : State) (p : Nat) : State :=
  match kget s.prods p with
  | none => s
  | some q => match q.kind, s.wave? q.wave with
    | .load items trk, some v =>
      let items' := items.map fun it =>
        if it.due && itemMiss s v it = .none then { it with data := some (BitVec.ofNat 64 (sampleItem s v it)) } else it
      let v1 := if trk then (items.zip items').foldl (fun v (a, b) =>
          if a.data.isNone && b.data.isSome then trackItem s v a else v) v else v
      { s.putWave q.wave v1 with prods := kput s.prods p { q with kind := .load items' trk }, free := s.free + 1 }
    | _, _ => s

/-- A load reads now, if it can read as a whole: translation lets every element through that may read, and no earlier
load of the wave is behind at a byte of it. Else it reads at its arrival (R254). -/
def sampleOne (s : State) (p : Nat) : State :=
  match kget s.prods p with
  | none => s
  | some q => match q.kind, s.wave? q.wave with
    | .load items trk, some v =>
      let items1 := items.map (settleItem s v p q.helper)
      if items1.all (fun it => itemMiss s v it = .none) && !loadBehind s q.wave p items1 then
        readItems { s with prods := kput s.prods p { q with kind := .load items1 trk } } p
      else s
    | _, _ => s

/-- The loads of a wave that have elements to read, oldest first. -/
def pendingLoads (s : State) (w : Nat) : List Nat :=
  kfind s.prods fun _ q => q.wave = w && (match q.kind with
    | .load items _ => items.any LoadItem.due
    | _ => false)

/-- The earlier loads of a wave that share a byte with a load read first (R92). -/
def sampleEarlier (s : State) (w p : Nat) (items : List LoadItem) : State :=
  ((pendingLoads s w).filter fun k => k < p && (match kget s.prods k with
    | some y => (match y.kind with
      | .load it _ => it.any fun a => items.any fun b => a.overlaps b
      | _ => false)
    | none => false)).foldl sampleOne s

/-- Every pending load of a wave that can read now does: before the wave's own stores leave its buffer (R67), and at an
acquire (R100). -/
def sampleWave (s : State) (w : Nat) : State := (pendingLoads s w).foldl sampleOne s

/-- Some load of a wave has not read all its bytes. -/
def loadsOut (s : State) (w : Nat) : Bool :=
  s.prods.any fun y => decide (y.2.wave = w) && (match y.2.kind with
    | .load items _ => items.any LoadItem.unread
    | _ => false)

/-- Some load that an acquire of the wave orders before its later accesses has not read all its bytes (R75, R100). -/
def fencedOut (s : State) (w : Nat) : Bool :=
  s.prods.any fun y => decide (y.2.wave = w) && y.2.fenced && (match y.2.kind with
    | .load items _ => items.any LoadItem.unread
    | _ => false)

/-- The acquire of a fence or atomic: every earlier load of the wave reads its levels before any later load or store
(R75, R100). What cannot read now holds the later ones back. -/
def acquire (s : State) (w : Nat) : State :=
  let s1 := sampleWave s w
  { s1 with prods := kmap s1.prods fun _ q => if q.wave = w then { q with fenced := true } else q }

/-! ### Entries into the block level (R69 to R73, R80, R130) -/

/-- Marks CONFLICT in the waves of a block, but for the entry's own wave (R80). -/
def blkConflicts (s : State) (bk : Nat) (own : Option Nat) (vas : List Nat) : State :=
  if vas = [] then s else
  { s with waves := kmap s.waves fun w v =>
      if v.blk = bk && some w ≠ own && v.trk.bytes.any (fun t => vas.contains t.1) then
        { v with trk := { v.trk with confBlk := true } } else v }

/-- Marks CONFLICT in the waves of a gang (R97). -/
def gangConflicts (s : State) (gk : Nat) (own : Option Nat) (vas : List Nat) : State :=
  if vas = [] then s else
  { s with waves := kmap s.waves fun w v =>
      if v.gang = gk && some w ≠ own && v.trk.bytes.any (fun t => vas.contains t.1) then
        { v with trk := { v.trk with confGang := true } } else v }

/-- Scratchpad lines that an entry must save first, and whether the pre-image store holds them (R130). -/
def preLines (b : Block) (offs : List Nat) : List Nat :=
  if !b.window then [] else ((offs.map (· / 64)).eraseDups).filter fun l => !b.saved.contains l

def preRoom (b : Block) (offs : List Nat) : Bool := b.saved.length + (preLines b offs).length ≤ 256

/-- The block after an entry on its scratchpad: the lines that a window has not saved yet are saved first (R69, R130). -/
def enterBlock (bytes : List (Nat × Byte)) (b : Block) : Block := { b with
  pre := if !b.window then b.pre else ((bytes.map (·.1 / 64)).eraseDups).foldl (fun m l =>
    kput m l (kgetD m l [] ++ [(b.stamp + 1, (List.range 64).map fun i => scratchByte b (64 * l + i))])) b.pre
  saved := b.saved ++ preLines b (bytes.map Prod.fst), stamp := b.stamp + 1
  scratch := bytes.foldl (fun m x => if x.2 = 0 then kdel m x.1 else kput m x.1 x.2) b.scratch }

/-- Writes scratchpad bytes into the block level, saving pre-images (R69, R130). -/
def enterScratch (s : State) (bk : Nat) (bytes : List (Nat × Byte)) : State := s.modBlock bk (enterBlock bytes)

/-! ### Carries (R77, R93, R96, R113, R386) -/

/-- A byte that the pools do not hold is staged at its home: an access at the block level waits there (R114). -/
def poolStaged (s : State) (v : Wave) (va pa n : Nat) : Bool :=
  (List.range n).any fun j => stagedByte s (pa + j) &&
    (match s.block? v.blk with | some b => (kget b.pool (va + j)).isNone | none => true) &&
    (match s.gang? v.gang with | some g => (kget g.pool (va + j)).isNone | none => true)

/-- The slot of a wave whose word acts now: the issuing one, or its first live one where a request of it acts. -/
def actingSlot (s : State) (w : Nat) (v : Wave) : Nat :=
  match s.cur with
  | .wave k sl _ _ => if k = w then sl else v.firstSlot
  | _ => v.firstSlot

/-- The bytes at which a request acts at the device level: its address and width. -/
def Req.span (r : Req) : Option (Nat × Nat) :=
  match r.at_ with
  | .dev pa => some (pa, if r.wide then 8 else 4)
  | _ => none

/-- A carry of a wave waits for the requests that arrived before it at a byte it carries, and for the wave's own earlier
requests to the homes it reaches (R95, R105). In REPLAY the gates order the requests of other waves (R415). -/
def carryWaits (s : State) (own : Option Nat) (pas : List Nat) : Bool :=
  pas.any (stagedByte s) || s.hall.any fun r =>
    let replay := match s.ctx? r.ctx with | some c => c.rec_.mode = 2 | none => false
    match r.span with
    | some (a, n) => pas.any fun p => (!replay && decide (a ≤ p) && decide (p < a + n)) || (some r.wave = own && decide (homeOf s p = homeOf s a))
    | none => false

/-- The first port of the path in use to a module (R391), as the stop record's detail (R394). -/
def firstPort (s : State) (m : Nat) : Nat := kgetD s.routes m ((((kget s.cfg.paths m).getD []).head?).getD 0)

/-- LINKLOST of a context for a module that it cannot reach, met by an engine (R394). -/
def linkLost (s : State) (c m : Nat) (e : Option Engine) : State := haltCtx s c 0x23 (firstPort s m) e

/-- What translation gives for the bytes of a carry: device bytes by physical address, pages that miss, whether a
byte is refused, a malformed entry. A page that DENY answered is refused (R384). -/
structure Carry where
  bytes : List (Nat × Byte)
  miss : List Nat
  refused : Bool
  bad : Option Nat

def carryOf (s : State) (c : Nat) (denied : List Nat) (pool : KMap Byte) : Carry :=
  pool.foldl (fun a x =>
    if denied.contains (pageOf s c x.1) then { a with refused := true } else
    match xlate s c x.1 .write with
    | .hit pa => { a with bytes := a.bytes ++ [(pa, x.2)] }
    | .page | .pageWrite => { a with miss := if a.miss.any (fun y => pageOf s c y = pageOf s c x.1) then a.miss else a.miss ++ [x.1] }
    | .xlate => { a with refused := true }
    | .bad pa => { a with bad := some (a.bad.getD pa) }) ⟨[], [], false, none⟩

/-- Carries a gang's whole pool into the device level as one entry (R93). Bytes that translation refuses are dropped,
and the wave takes XLATE at its next issue (R384). -/
def carryDev (s : State) (gk w : Nat) (own : Option Nat) : CRes :=
  match s.gang? gk, s.wave? w with
  | some g, some v =>
    let k := carryOf s g.ctx v.denied g.pool
    match k.bad with
    | some pa => .bad s pa
    | none =>
      if k.miss ≠ [] then .park s k.miss else
      if carryWaits s (some w) (k.bytes.map Prod.fst) then .wait s else
      match lostHome s (k.bytes.map Prod.fst) with
      | some m => .lost s g.ctx m
      | none =>
      if k.bytes.any (fun x => cutOff s x.1) then .wait s else
      let s1 := devEntry (s.modGang gk fun g => { g with pool := [] }) g.ctx own k.bytes
      let sl := actingSlot s w v
      .ok (if k.refused then addLate s1 w ⟨0x0C, (v.slot sl).pc, 0, 0, 0, false, true, some sl, 0⟩ else s1)
  | _, _ => .ok s

/-- A gang escalation: one implicit entry that is no wave's own (R96); a refusal of DENY is used up (R384). -/
def gangEscalate (s : State) (gk w : Nat) : CRes :=
  match s.gang? gk with
  | none => .ok s
  | some g => (carryDev s gk w none).bind fun s1 =>
      .ok ((gangConflicts (countEvent s1 g.ctx 3) gk none (g.pool.map Prod.fst)).modWave w fun v => { v with denied := [] })

/-- Enters bytes into a gang's pool, escalating or faulting WBCAP beyond 65,536 lines (R96). -/
def enterGang (s : State) (gk w : Nat) (own : Option Nat) (bytes : List (Nat × Byte)) : CRes :=
  match s.gang? gk with
  | none => .ok s
  | some g =>
    let put (s : State) : CRes :=
      .ok (gangConflicts (s.modGang gk fun g => { g with pool := putAll g.pool bytes }) gk own (bytes.map Prod.fst))
    if lineCount ((putAll g.pool bytes).map Prod.fst) ≤ 65536 then put s
    else if escalates s g.grid then (gangEscalate s gk w).bind put
    else .fault s 0x0A

/-- A carry into a gang's pool waits for the gang-scope requests that arrived before it at a byte it carries, and for the
wave's own earlier ones (R95, R105). In REPLAY the gates order the requests of other waves (R415). -/
def gangWaits (s : State) (gk w : Nat) (vas : List Nat) : Bool :=
  s.hall.any fun r =>
    let replay := match s.ctx? r.ctx with | some c => c.rec_.mode = 2 | none => false
    match r.at_ with
    | .gang g va _ => decide (g = gk) && (decide (r.wave = w) ||
        (!replay && vas.any fun a => decide (va ≤ a) && decide (a < va + (if r.wide then 8 else 4))))
    | _ => false

/-- Carries a block's whole pool into the gang level (R93). -/
def carryGang (s : State) (bk w : Nat) (own : Option Nat) : CRes :=
  match s.block? bk with
  | none => .ok s
  | some b => if gangWaits s b.gang w (b.pool.map Prod.fst) then .wait s else (enterGang s b.gang w own b.pool).bind fun s1 => .ok (s1.modBlock bk fun b => { b with pool := [] })

/-- A block escalation: one implicit commit that is no wave's own, at the block and the gang level (R77). -/
def blkEscalate (s : State) (bk w : Nat) : CRes :=
  match s.block? bk with
  | none => .ok s
  | some b => (carryGang s bk w none).bind fun s1 =>
      .ok (blkConflicts (countEvent s1 b.ctx 2) bk none (b.pool.map Prod.fst))

/-- Enters device bytes into a block's pool, escalating or faulting WBCAP beyond 2,048 lines (R77). -/
def enterPool (s : State) (bk w : Nat) (bytes : List (Nat × Byte)) : CRes :=
  match s.block? bk with
  | none => .ok s
  | some b =>
    let put (s : State) : CRes := .ok (s.modBlock bk fun b => { b with pool := putAll b.pool bytes })
    if lineCount ((putAll b.pool bytes).map Prod.fst) ≤ 2048 then put s
    else if escalates s b.grid then (blkEscalate s bk w).bind put
    else .fault s 0x0A

/-! ### Commits (R72, R93) -/

/-- COMMIT.BLK (R72). The loads of the wave read before its stores leave its buffer (R67): a store waits for those that
cannot read now (log 57). A full pre-image store holds the entry (R130). -/
def commitBlk (s0 : State) (w : Nat) : CRes :=
  let s := sampleWave s0 w
  match s.wave? w with
  | none => .ok s
  | some v => match s.block? v.blk with
    | none => .ok s
    | some b =>
      if (v.bufD ≠ [] || v.bufS ≠ []) && loadsOut s w then .wait s else
      if !preRoom b (v.bufS.map Prod.fst) then .wait s else
      ((enterPool s v.blk w v.bufD).bind fun s1 =>
      let s2 := enterScratch s1 v.blk v.bufS
      let s3 := blkConflicts s2 v.blk (some w) (v.bufD.map Prod.fst)
      .ok (s3.modWave w fun v => { v with bufD := [], bufS := [], trk := Wave.noTrack false })).whole s

/-- The gang step of a commit (R93). -/
def gangStep (s : State) (w : Nat) : CRes :=
  match s.wave? w with
  | none => .ok s
  | some v => (carryGang s v.blk w (some w)).whole s

/-- An earlier REDS or VSRED of the wave that no porter has served or holds (R134). -/
def redsPending (s : State) (w : Nat) : Bool := s.hall.any fun r => r.wave = w && r.ret.isNone

/-- The device step of a commit (R93). -/
def devStep (s : State) (w : Nat) : CRes :=
  match s.wave? w with
  | none => .ok s
  | some v => (carryDev s v.gang w (some w)).bind fun s2 => .ok (s2.modWave w fun v => { v with denied := [] })

/-- The last step of COMMIT.SYS up to staging (R114): the gang pool goes to its homes as staged shares. The carry is
number `nextId`. -/
def stageStep (s : State) (w sl : Nat) : CRes :=
  match s.wave? w with
  | none => .ok s
  | some v => match s.gang? v.gang with
    | none => .ok s
    | some g =>
      let k := carryOf s g.ctx v.denied g.pool
      match k.bad, lostHome s (k.bytes.map Prod.fst) with
      | some pa, _ => .bad s pa
      | none, some m => .lost s g.ctx m
      | none, none =>
        if k.miss ≠ [] then .park s k.miss else
        if carryWaits s (some w) (k.bytes.map Prod.fst) then .wait s else
        let host := k.bytes.filter fun x => match homeOf s x.1 with | .host _ => true | _ => false
        let dom := k.bytes.filter fun x => match homeOf s x.1 with | .host _ => false | _ => true
        let mods := (dom.filterMap fun x => match homeOf s x.1 with | .module m => some m | .here _ => some s.cfg.modid | _ => none).eraseDups
        let s2 := s.modGang v.gang fun g => { g with pool := [] }
        let s3 := { s2 with
          sysCommits := kput s2.sysCommits s2.nextId ⟨w, sl, (v.slot sl).pc, g.ctx, putAll [] dom, putAll [] host, g.pool, mods, false, false, false,
            issuer s v (lowLane (execLanes s w sl v)), v.hash⟩
          nextId := s2.nextId + 1 }
        .ok ((if k.refused then addLate s3 w ⟨0x0C, (v.slot sl).pc, 0, 0, 0, false, true, some sl, 0⟩ else s3).modWave w fun v => { v with denied := [] })

/-- Step n of a commit at a scope: the block, the gang, the device or the system level (R72, R93, R114). The last waits
for the wave's earlier reductions (R134). -/
def stepAt (s : State) (w sl scope n : Nat) : CRes :=
  match n with
  | 1 => commitBlk s w
  | 2 => gangStep s w
  | _ => if redsPending s w then .wait s else if scope = 4 then stageStep s w sl else devStep s w

/-- Steps n to n + k of a commit at a scope, together. -/
def stepsFrom (w sl scope n : Nat) : Nat → State → CRes
  | 0, s => stepAt s w sl scope n
  | k + 1, s => (stepAt s w sl scope n).bind (stepsFrom w sl scope (n + 1) k)

/-- The number of steps of a commit at a scope. -/
def stepCount (scope : Nat) : Nat := min scope 3

/-- COMMIT at a scope as a whole (R258). -/
def commitAt (s : State) (w sl scope : Nat) : CRes := stepsFrom w sl scope 1 (stepCount scope - 1) s

/-- The reason code of a checked commit at a scope (R79, R80, R97): the lowest that holds. -/
def checkCode (t : Track) (scope : Nat) : Nat :=
  if t.confBlk || (decide (2 ≤ scope) && t.confGang) || (decide (3 ≤ scope) && t.confDev) then 1
  else if t.abortedBlk || (decide (2 ≤ scope) && t.abortedGang) then 2
  else if t.overflow then 3
  else if t.escalated then 4
  else if t.evicted then 5
  else 0

/-! ### Stores into the wave buffer (R66, R71, R76) -/

/-- Puts a store's bytes into the wave buffer. -/
def bufPut (v : Wave) (scratch : Bool) (bytes : List (Nat × Byte)) : Wave :=
  if scratch then { v with bufS := putAll v.bufS bytes } else { v with bufD := putAll v.bufD bytes }

/-- Lines in a wave buffer. -/
def bufLines (v : Wave) : Nat := lineCount (v.bufD.map Prod.fst) + lineCount (v.bufS.map Prod.fst)

/-- A store's bytes enter the wave buffer; beyond 128 lines it escalates or takes WBCAP (R76). -/
def storeBytes (s : State) (w : Nat) (scratch : Bool) (bytes : List (Nat × Byte)) : CRes :=
  match s.wave? w with
  | none => .ok s
  | some v =>
    if bufLines (bufPut v scratch bytes) ≤ 128 then .ok (s.putWave w (bufPut v scratch bytes))
    else if escalates s v.grid then
      (commitBlk s w).bind fun s1 =>
        .ok ((countEvent s1 v.ctx 1).modWave w fun v =>
          let v1 := bufPut v scratch bytes
          { v1 with trk := { v1.trk with escalated := true } })
    else .fault s 0x0A

/-! ### Aborts (R81, R82, R98) -/

/-- ABORT.WAVE (R81). -/
def abortWave (s : State) (w : Nat) : State :=
  s.modWave w fun v => { v with bufD := [], bufS := [], trk := Wave.noTrack false }

/-- ABORT.BLK (R82). -/
def abortBlk (s : State) (bk c : Nat) : State :=
  let s1 := countEvent (s.modBlock bk fun b => { b with pool := [] }) c 4
  { s1 with waves := kmap s1.waves fun _ v =>
      if v.blk = bk && (v.trk.bytes ≠ [] || v.trk.overflow) then { v with trk := { v.trk with abortedBlk := true } } else v }

/-- ABORT.GANG (R98). -/
def abortGang (s : State) (gk c : Nat) : State :=
  let s1 := countEvent (s.modGang gk fun g => { g with pool := [] }) c 5
  { s1 with waves := kmap s1.waves fun _ v =>
      if v.gang = gk && (v.trk.bytes ≠ [] || v.trk.overflow) then { v with trk := { v.trk with abortedGang := true } } else v }

end Sys2Proof.Machine
end

