-- ==== Sys2Proof/Machine/Operands.lean ====
section
/-! DEFINITION. Operand forms: what each source reads in a lane (R161, R162, R185, R219), the source checks of R51, and
the writes to a destination (R161). -/

namespace Sys2Proof.Machine

/-! ### Sources -/

/-- The value of a special in a lane (R162). -/
def specialVal (s : State) (v : Wave) (x : Special) (l : Nat) : Nat :=
  let b := s.block? v.blk
  let d := descOf s v.grid
  let i := v.idx * 64 + l
  let bx := match d with | some d => d.bx | none => 1
  let byy := match d with | some d => d.byy | none => 1
  match x with
  | .zero => 0
  | .lane => l
  | .quad => l / 4
  | .wave => v.idx
  | .nwave => match b with | some b => b.waves.length | none => 1
  | .width => 64
  | .tidx => i % bx
  | .tidy => i / bx % byy
  | .tidz => i / (bx * byy)
  | .bidx => match b with | some b => b.bx | none => 0
  | .bidy => match b with | some b => b.byy | none => 0
  | .bidz => match b with | some b => b.bz | none => 0
  | .gblk => match b with | some b => b.gblk | none => 0

/-- Word `off` of a source in a lane: the entry or scratchpad word `off` places on; a literal sign-extended, a special
zero-extended (R185). -/
def srcAt (s : State) (v : Wave) (o : Opd) (off l : Nat) : Word :=
  match o with
  | .s i => ownWord s v (4 * (i.val + off))
  | .k x => if off = 0 then BitVec.ofNat 32 (specialVal s v x l) else 0
  | .lit c => if off = 0 then c.signExtend 32 else (if c.msb then BitVec.allOnes 32 else 0)
  | o => match opdEnt o with | some e => (v.cell (e + off) l).val | none => 0

/-- A 32-bit source in a lane; an absent one reads zero. -/
def src (s : State) (v : Wave) (o : Option Opd) (l : Nat) : Word := match o with | some o => srcAt s v o 0 l | none => 0

/-- A 64-bit source in a lane (R142). -/
def src64 (s : State) (v : Wave) (o : Option Opd) (l : Nat) : DWord :=
  match o with | some o => srcAt s v o 1 l ++ srcAt s v o 0 l | none => 0

/-- An integer source in its TYPE (R185). -/
def srcInt (s : State) (v : Wave) (ty : Fmt) (o : Option Opd) (l : Nat) : Int :=
  decodeI ty (if fmt64 ty then (src64 s v o l).toNat else (src s v o l).toNat)

/-- The code of element j of a floating-point source (R219): a literal or special of 16 bits or more is its integer
value, rounded by RN. DESIGN CHOICE (log 77): of 8 bits or less, element j takes its bits of the 32-bit value. -/
def srcF (s : State) (v : Wave) (f : Fmt) (o : Option Opd) (l j : Nat) : Nat :=
  let raw := (src s v o l).toNat
  let code := raw / 2 ^ (fmtBits f * j) % 2 ^ fmtBits f
  if fmtBits f < 16 then code else
  match o with
  | some (.lit c) => (roundTo (.ofInt c.toInt) f 0 false 0).1
  | some (.k _) => (roundTo (.ofInt raw) f 0 false 0).1
  | _ => code

/-- How a word reads a source as a floating-point number of 16 bits or more, and whether as a packed pair: what KEEP then
copies of a literal or special is that code (R26, R219). -/
def keepFmt (o : Op) (x : Body) (k : KeepSel) : Option (Fmt × Bool) :=
  let wide (f : Fmt) : Option (Fmt × Bool) := if isFloat f && 16 ≤ fmtBits f then some (f, false) else none
  match o, k with
  | .fadd, _ | .fsub, _ | .fmul, _ | .ffma, _ | .fmin, _ | .fmax, _ | .fminProp, _ | .fmaxProp, _ | .fcmp, _ | .fclass, _
  | .frnd, _ | .rcp, _ | .rsq, _ | .sqrt, _ | .exp2, _ | .log2, _ | .sin, _ | .cos, _ | .tanh, _ | .fscale, .a | .dot4, .c
  | .cvts, .b | .bscale, _ | .qnt, .a | .wupd, _ | .wfin, .b => some (.f32, false)
  | .hadd2, _ | .hmul2, _ | .hfma2, _ => some (x.ty, true)
  | .dot4, _ => (wide x.ty).map fun y => (y.1, true)
  | .cvt, _ | .cvts, .a => wide x.aux.fFmt
  | _, _ => none

/-- The operand that KEEP selects. -/
def keepOpd (x : Body) (k : KeepSel) : Option Opd := match k with | .a => x.a | .b => x.b | .c => x.c

/-- What KEEP copies of a source in a lane: the value that the word reads, bit for bit (R26, R219). Of an entry pair it is
the named entry: R218 says so of chapter 11, and for the words of class 001, PSET, MOV and SEL it is the model's choice
(log 59). Of a literal or special that is read as a code of 8 bits or less, the whole 32-bit value is copied: DESIGN CHOICE
(log 77). -/
def keepVal (s : State) (v : Wave) (o : Op) (x : Body) (k : KeepSel) (l : Nat) : Word :=
  let coded : Bool := match keepOpd x k with | some (.lit _) => true | some (.k _) => true | _ => false
  match keepFmt o x k with
  | some (f, two) => if !coded then src s v (keepOpd x k) l else
      let c := srcF s v f (keepOpd x k) l 0
      BitVec.ofNat 32 (if two then c + 2 ^ 16 * c else c)
  | none => src s v (keepOpd x k) l

/-! ### Source checks (R51) -/

/-- One source to check: its first entry, how many, in which lanes, and its empty-behaviour bit. -/
structure Need where
  ent : Nat
  n : Nat
  lanes : Mask
  caret : Bool
deriving DecidableEq, Repr

/-- Lanes in which an entry of a source is in a state. -/
def needLanes (v : Wave) (k : Need) (p : CellSt → Bool) : Mask :=
  maskOf fun l => k.lanes.getLsbD l && (List.range k.n).any fun j => p (v.cell (k.ent + j) l).st

def isLost : CellSt → Bool | .lost => true | _ => false
def isEmptyCell : CellSt → Bool | .empty _ => true | _ => false

/-- What the checks of R51 give. -/
inductive SrcRes where
  | ok | lost (m : Mask) | trap (m : Mask) | stall
deriving DecidableEq, Repr

/-- The source checks of R51, in their order. -/
def srcCheck (v : Wave) (l : List Need) : SrcRes :=
  let lost := l.foldl (fun m k => m ||| needLanes v k isLost) 0
  let tr := l.foldl (fun m k => if k.caret then m ||| needLanes v k isEmptyCell else m) 0
  if lost ≠ 0 then .lost lost
  else if tr ≠ 0 then .trap tr
  else if l.any (fun k => needLanes v k isEmptyCell ≠ 0) then .stall
  else .ok

/-- Entries that a source operand spans. -/
def Lv.entries (l : Lv) : Nat := if l.pair && l.span = 1 then 2 else l.span

/-- A source of a word, if it names an entry. -/
def needOf (l : Option Lv) (o : Option Opd) (lanes : Mask) (caret : Bool) : List Need :=
  match l, o with
  | some l, some o => match opdEnt o with
    | some e => [⟨e, l.entries, lanes, caret⟩]
    | none => []
  | _, _ => []

/-- Every source of a word in a set of lanes. -/
def needs (o : Op) (x : Body) (lanes : Mask) : List Need :=
  let g := sig o x.ty x.md x.aux
  needOf g.a x.a lanes (x.eb.getLsbD 2) ++ needOf g.b x.b lanes (x.eb.getLsbD 1) ++ needOf g.c x.c lanes (x.eb.getLsbD 0)

/-! ### Destinations (R161, R183) -/

/-- Writes consecutive entries of one lane. -/
def putWords (v : Wave) (e l : Nat) (ws : List Word) : Wave := ws.zipIdx.foldl (fun v x => v.put (e + x.2) l x.1) v

/-- What a destination write does: the wave with its entries, the words by lane, and the words stored to the S level
by byte offset. -/
structure Written where
  v : Wave
  vals : List (Nat × Word)
  sst : List (Nat × Word)

/-- Writes a result: in every lane of the mask to H, N or M, once to W, once to S through the wave buffer. Where the lanes
of a uniform result compute different values (a draw of RS, a SCAN), W and S take that of the lowest lane (log 18). -/
def writeD (v : Wave) (d : Option Opd) (ex : Mask) (f : Nat → List Word) : Written :=
  match d with
  | none => ⟨v, [], []⟩
  | some (.s i) => if ex = 0 then ⟨v, [], []⟩ else
      let ws := f (lowLane ex)
      ⟨v, ((lanesOf ex).map fun l => ws.map fun w => (l, w)).flatten, ws.zipIdx.map fun x => (4 * (i.val + x.2), x.1)⟩
  | some (.w i) => if ex = 0 then ⟨v, [], []⟩ else
      let ws := f (lowLane ex)
      ⟨putWords v (552 + i.val) 0 ws, ((lanesOf ex).map fun l => ws.map fun w => (l, w)).flatten, []⟩
  | some o => match opdEnt o with
    | none => ⟨v, [], []⟩
    | some e => (lanesOf ex).foldl (fun a l => ⟨putWords a.v e l (f l), a.vals ++ (f l).map fun w => (l, w), a.sst⟩) ⟨v, [], []⟩

/-- A number as the words of a result of a TYPE. -/
def wordsOf (wide : Bool) (n : Nat) : List Word :=
  if wide then [BitVec.ofNat 32 n, BitVec.ofNat 32 (n / 2 ^ 32)] else [BitVec.ofNat 32 n]

end Sys2Proof.Machine
end

