-- ==== Sys2Proof/Machine/Watch.lean ====
section
/-! DEFINITION. Watch units: what they compare, when they match, and what a match does (R302 to R304, R396 to R400);
the debug halt (R58, R308). -/

namespace Sys2Proof.Machine

namespace WatchUnit
def zero : WatchUnit := ⟨Vector.replicate 8 0, 0, false⟩
def w (u : WatchUnit) (i : Nat) : Word := (u.c.toList[i]?).getD 0
def arm (u : WatchUnit) : Bool := (u.w 0).getLsbD 27
def chain (u : WatchUnit) : Bool := (u.w 0).getLsbD 26
def action (u : WatchUnit) : Nat := ((u.w 0).extractLsb' 23 3).toNat
def kind (u : WatchUnit) : Nat := ((u.w 0).extractLsb' 20 3).toNat
def space (u : WatchUnit) : Nat := ((u.w 0).extractLsb' 17 3).toNat
def reads (u : WatchUnit) : Bool := (u.w 0).getLsbD 16
def writes (u : WatchUnit) : Bool := (u.w 0).getLsbD 15
def vcond (u : WatchUnit) : Nat := ((u.w 0).extractLsb' 12 3).toNat
def fpsel (u : WatchUnit) (i : Nat) : Bool := (u.w 0).getLsbD (6 + i)
def all (u : WatchUnit) : Bool := (u.w 1).msb
def ctx (u : WatchUnit) : Nat := ((u.w 1).extractLsb' 0 12).toNat
def lo (u : WatchUnit) : Nat := (u.w 2).toNat + (u.w 3).toNat * 2 ^ 32 + (u.w 4).toNat % 256 * 2 ^ 64
def hi (u : WatchUnit) : Nat := (u.w 5).toNat + (u.w 6).toNat * 2 ^ 32 + (u.w 7).toNat % 256 * 2 ^ 64
end WatchUnit

/-- A value under a unit's VCOND (R303). -/
def watchValue (u : WatchUnit) (x : Word) : Bool :=
  match u.vcond with
  | 0 => x = u.w 2
  | 1 => x ≠ u.w 2
  | 2 => decide (x.toInt < (u.w 2).toInt)
  | 3 => decide (x.toNat < (u.w 2).toNat)
  | _ => x &&& u.w 5 = u.w 2 &&& u.w 5

/-- The lanes that a unit's own condition matches (R303). -/
def unitLanes (u : WatchUnit) (k : Seen) : Mask :=
  let inr (a : Nat) : Bool := u.lo ≤ a && a ≤ u.hi
  match u.kind with
  | 0 =>
    if u.space = 3 then
      (if k.regs.any fun r => inr r.1 && (if r.2 then u.writes else u.reads) then k.lanes else 0)
    else maskOf fun l => k.lanes.getLsbD l && k.mem.any fun (m, sp, a, n, wr) =>
      m = l && sp = u.space && (if wr then u.writes else u.reads) && a ≤ u.hi && u.lo < a + n
  | 1 => maskOf fun l => k.lanes.getLsbD l && k.vals.any fun x => x.1 = l && watchValue u x.2
  | 2 => maskOf fun l => k.lanes.getLsbD l &&
      let f := kgetD k.fl l 0
      (u.fpsel 5 && k.nan.getLsbD l) || (u.fpsel 4 && k.inf.getLsbD l) || (u.fpsel 3 && f &&& fOF ≠ 0) ||
      (u.fpsel 2 && f &&& fUF ≠ 0) || (u.fpsel 1 && f &&& fDZ ≠ 0) || (u.fpsel 0 && f &&& fDN ≠ 0)
  | _ => match k.pc with | some a => if inr a then k.lanes else 0 | Option.none => 0

/-- The lanes that unit n matches, chained on unit n − 1 (R397). -/
def unitMatch (us : Nat → WatchUnit) (c : Nat) (k : Seen) : Nat → Mask
  | 0 => if (us 0).arm && (us 0).ctx = c then unitLanes (us 0) k else 0
  | n + 1 =>
    let u := us (n + 1)
    if !(u.arm && u.ctx = c) then 0
    else if u.chain then unitLanes u k &&& (if (us n).arm then unitMatch us c k n else 0)
    else unitLanes u k

/-- The lanes in which a moment shows unit n something new: of its own, or of a unit that it is chained on (R396, R397). -/
def unitFresh (us : Nat → WatchUnit) (now : Seen) : Nat → Mask
  | 0 => unitLanes (us 0) now
  | n + 1 => unitLanes (us (n + 1)) now ||| (if (us (n + 1)).chain then unitFresh us now n else 0)

/-- A core's watch unit. -/
def watchUnit (s : State) (core n : Nat) : WatchUnit := kgetD s.watch (16 * core + n) .zero

/-- The units of a core that match at a moment, with their lanes: `k` is all that the instruction has shown, `now` what it
shows at this moment. -/
def watchHits (s : State) (core c : Nat) (k now : Seen) : List (Nat × Mask) :=
  if s.watch = [] || k.lanes = 0 then [] else
  (List.range 16).filterMap fun n =>
    let m := unitMatch (watchUnit s core) c k n &&& unitFresh (watchUnit s core) now n
    if m = 0 then none else some (n, m)

/-! ### The debug halt (R58, R299, R308) -/

/-- Number of lanes of a mask. -/
def laneCount (m : Mask) : Nat := (lanesOf m).length

/-- A wave takes a debug halt (R58): it keeps its seat and every entry. The trace record names the word concerned (R404). -/
def takeHalt (s : State) (w : Nat) (v : Wave) (h : HaltInfo) (pc : Word) : State :=
  let s1 := s.putWave w { v with st := .halted, halt := h, haltDue := none, gangHalt := none }
  traceWave s1 w 6 h.reason 0 pc h.mat.toNat

/-- A halt reaches a wave (R58, R308, R330): one that is seated takes it, and an unseated one where it stands if it is a
gang halt (R399); any other waits for its seat, and issues nothing meanwhile. -/
def haltWave (s : State) (w reason unit : Nat) (m : Mask) (info pc : Word) : State :=
  match s.wave? w with
  | none => s
  | some v =>
    if !v.alive || v.st = .halted then s
    else if v.st = .seated || v.st = .seatwait || (reason = 5 && (v.st = .lodged || v.st = .ready || v.st = .forced)) then
      takeHalt s w v ⟨reason, unit, m, info, s.tick⟩ pc
    else s.putWave w { v with haltDue := some (v.haltDue.getD ⟨reason, unit, m, info, s.tick⟩), gangHalt := none }

/-- A wave that has come to a seat takes the halt that waits for it (R330). -/
def settleHalt (s : State) (w : Nat) : State :=
  match s.wave? w with
  | none => s
  | some v => match v.haltDue with
    | some h => if v.st = .seated || v.st = .seatwait then takeHalt s w v { h with tick := s.tick } (v.slot v.firstSlot).pc else s
    | none => s

/-- The other waves of a gang halt after at most eight more instructions (R304, R399); one that counts down already goes on
counting, and one that is halted keeps its halt. -/
def gangHaltOthers (s : State) (gk : Nat) (own : Option Nat) (unit : Nat) : State :=
  (kfind s.waves fun w v => v.gang = gk && v.alive && some w ≠ own).foldl (fun s w =>
    match s.wave? w with
    | none => s
    | some v =>
      if v.st = .halted || v.gangHalt.isSome then s
      else if v.seat.isNone || v.waiting then haltWave s w 5 unit 0 0 (v.slot v.firstSlot).pc
      else s.modWave w fun v => { v with gangHalt := some 8, halt := { v.halt with unit } }) s

/-- How an instruction meets a match (R399). -/
inductive WatchMode where
  | word                  -- a wave's word that retires
  | late (pc : Word)      -- a producer's arrival
  | faulted               -- a word that took FPTRAP: FP-flag units only
  | stepped               -- a word executed by HSTEP only records
  | steppedFault          -- a stepped word that took FPTRAP
deriving DecidableEq, Repr

/-- Counts and records of a match (R398, R400) of a word that executed in some lanes (R404). -/
def watchCount (s : State) (core w : Nat) (pc : Word) (ex : Mask) (h : Nat × Mask) : State :=
  let u := watchUnit s core h.1
  let c := if u.action = 0 then BitVec.ofNat 32 (min (u.count.toNat + laneCount h.2) (2 ^ 32 - 1)) else u.count
  let s1 := { s with watch := kput s.watch (16 * core + h.1) { u with count := c, matched := true } }
  if u.action = 1 then traceWave s1 w 1 h.1 (lowLane ex) pc h.2.toNat else s1

/-- The action of the highest code among the matching units, with the union of their lanes and the lowest of them
(R398). -/
def topAction (s : State) (core : Nat) (hits : List (Nat × Mask)) : Option (Nat × Nat × Mask) :=
  let acts := hits.filterMap fun h => let a := (watchUnit s core h.1).action; if 2 ≤ a && a ≤ 6 then some (a, h.1, h.2) else none
  match acts with
  | [] => none
  | _ =>
    let top := acts.foldl (fun m x => max m x.1) 0
    let l := acts.filter fun x => x.1 = top
    some (top, ((l.head?).map (·.2.1)).getD 0, l.foldl (fun m x => m ||| x.2.2) 0)

/-- Applies the watch units of a core to what an instruction of a wave's slot showed; a context halt notes the lowest matching
unit and the union of their lanes (R398). -/
def watchWave (s : State) (w sl : Nat) (k now : Seen) (mode : WatchMode) (pc : Word) : State :=
  match s.wave? w with
  | none => s
  | some v =>
    let core := coreOf v.place
    let hits := watchHits s core v.ctx k now
    let s1 := hits.foldl (fun s h => watchCount s core w pc k.exec h) s
    match topAction s1 core hits with
    | none => s1
    | some (a, n, m) =>
      let late := match mode with | .late _ => true | _ => false
      if a = 2 then
        (if mode = .faulted || mode = .steppedFault then s1
         else addLate s1 w ⟨0x11, pc, m, 0, BitVec.ofNat 32 n, false, late, some sl, k.exec⟩)
      else if mode = .stepped || mode = .steppedFault then s1
      else
        match a with
        | 3 | 4 => haltWave s1 w a n m 0 pc
        | 5 => gangHaltOthers (haltWave s1 w 5 n m 0 pc) v.gang (some w) n
        | _ => (haltCtx s1 v.ctx 0x25 n (some (.wave w))).modWave w fun v =>
            if v.st = .halted then v else { v with halt := ⟨6, n, m, 0, s.tick⟩ }

/-- Applies the watch units of a core to a sequencer's word (R399): TRAP and the wave halts stop the sequencer. `k` is all
that the word has shown, `now` what it shows at this moment, `pc` its offset. -/
def watchSeq (s : State) (bk : Nat) (k now : Seen) (pc : Word) : State :=
  match s.block? bk with
  | none => s
  | some b =>
    let core := 8 * (16 * b.die + b.cl) + b.core
    let hits := watchHits s core b.ctx k now
    let s1 := hits.foldl (fun s h => watchCount s core ((b.waves.head?).getD 0) pc 1 h) s
    match topAction s1 core hits with
    | none => s1
    | some (a, n, _) =>
      let stop (s : State) : State := s.modBlock bk fun b => { b with seq := { b.seq with halted := true } }
      match a with
      | 2 | 3 | 4 => stop s1
      | 5 => gangHaltOthers (stop s1) b.gang none n
      | _ => haltCtx s1 b.ctx 0x25 n (some (.sequencer bk))

end Sys2Proof.Machine
end

