-- ==== Sys2Proof/Machine/Park.lean ====
section
/-! DEFINITION. Parking (R381 to R385): fault records, what is held on them, and what becomes of an access that
translation does not let through. -/

namespace Sys2Proof.Machine

/-- The misses that found the fault buffer full write their records as records free (R381): it holds 4,096. -/
def admitMisses (s : State) : State :=
  s.fmiss.foldl (fun s r =>
    if s.fbuf.length < 4096 then { s with fbuf := s.fbuf ++ [{ r with seq := s.fseq }], fseq := s.fseq + 1, fmiss := s.fmiss.drop 1 } else s) s

/-- Adds a holder to the outstanding record of its page and class, or writes a new record (R381). -/
def addMiss (s : State) (c va kind : Nat) (place iss : Word) (write : Bool) (h : Holder) : State :=
  let pg := pageOf s c va
  let same (r : FaultRec) : Bool := r.ctx = c && r.page = pg && r.write = write && !r.answered
  let join (r : FaultRec) : FaultRec := if same r && !r.holders.contains h then { r with holders := r.holders ++ [h] } else r
  if (s.fbuf ++ s.fmiss).any same then { s with fbuf := s.fbuf.map join, fmiss := s.fmiss.map join }
  else admitMisses { s with fmiss := s.fmiss ++ [⟨0, s.tick, va, kind, c, place, iss, write, pg, false, false, 0, [h]⟩] }

/-- A seated wave is PARKED from a miss; its parking time runs from the first one (R330, R385). -/
def startPark (s : State) (w : Nat) : State :=
  s.modWave w fun v => { v with
    parkTime := some (v.parkTime.getD 0), st := if v.st = .seated then .parked else v.st }

/-- The KIND of a miss: a write that misses a resident page is an upgrade (R379, R381). -/
def missKind (s : State) (c va kind : Nat) : Nat :=
  if kind = 1 then (match walk s c va with | .leaf _ _ true _ _ _ _ => 2 | _ => 1) else kind

/-- Parks a slot at its word on the addresses it misses, each with its lane (R383), with a FAULT trace record that names the
lowest executing lane (R404). A fault record names the lowest lane that misses its page (R381). -/
def parkSlot (s : State) (w sl kind : Nat) (write : Bool) (vas : List (Nat × Nat)) : State :=
  match s.wave? w with
  | none => s
  | some v =>
    let ex := execLanes s w sl v
    let s1 := traceWave s w 4 (if write then 0x31 else 0x30) (lowLane (if ex = 0 then (v.slot sl).mask else ex)) (v.slot sl).pc
      (((vas.head?).map Prod.snd).getD 0)
    let s2 := vas.foldl (fun s y => addMiss s v.ctx y.2 (missKind s v.ctx y.2 kind) (placeId v.place) (issuer s v y.1) write
      (if kind = 6 then .carry w sl else .slot w sl)) s1
    startPark (s2.modWave w fun v => v.modSlot sl fun x => { x with hold := .parked }) w

/-- A slot does not issue its word now; it stalls. -/
def stallSlot (s : State) (w sl : Nat) : State :=
  s.modWave w fun v => v.modSlot sl fun x => { x with stalled := true, starved := false, capped := false }

/-- A slot stalls at a full path counter, which advances no timer (R252). -/
def capSlot (s : State) (w sl : Nat) : State :=
  s.modWave w fun v => v.modSlot sl fun x => { x with stalled := true, starved := false, capped := true }

/-- The entry of a DPHASE.CLOSE, which is no step of a commit (R267). -/
def closeEntry : Nat := 4

/-- A slot's word has begun to enter an order and waits there, `k` steps of its commit entered (R72, R93, R267). -/
def setEntry (s : State) (w sl : Nat) (k : Option Nat) : State :=
  s.modWave w fun v => v.modSlot sl fun x => { x with entry := k }

/-- A slot stalls under step 3 of R51. -/
def starveSlot (s : State) (w sl : Nat) : State :=
  s.modWave w fun v => v.modSlot sl fun x => { x with stalled := true, starved := true, capped := false }

/-- An entry made by a wave's word: goes on when it is done; takes its fault, parks, halts or waits otherwise. -/
def onEntry (s : State) (w sl : Nat) (lane : Nat) (r : CRes) (k : State → State) : State :=
  match r with
  | .ok s1 => k s1
  | .fault s1 code => takeT s1 w sl code (match s.wave? w with | some v => (v.slot sl).mask | none => 0) 0 0
  | .park s1 vas => parkSlot s1 w sl 6 true (vas.map fun a => (lane, a))
  | .bad s1 pa => match s.wave? w with | some v => haltCtx s1 v.ctx 0x22 pa (some (.wave w)) | none => s1
  | .lost s1 c m => linkLost s1 c m (some (.wave w))
  | .wait s1 => stallSlot s1 w sl

/-- Step n of a commit made by a wave's word: where it is not done the word waits at its PC with the steps before it
entered, which it does not enter again (R72, R93). -/
def onStep (s : State) (w sl : Nat) (lane n : Nat) (r : CRes) (k : State → State) : State :=
  match r with
  | .ok s1 => k (setEntry s1 w sl (some n))
  | .fault s1 code => onEntry s w sl lane (.fault s1 code) k
  | r => setEntry (onEntry s w sl lane r k) w sl (some (n - 1))

/-- What translating every lane of a store, atomic or fetch gives. -/
inductive LaneRes where
  | hits (pas : List (Nat × Nat))
  | xlate (m : Mask) (ea : Nat)
  | miss (vas : List (Nat × Nat))
  | bad (pa : Nat)

/-- Translates a list of (lane, address) for one access (R257, R264): a refused lane outranks a miss. An address that the
access may not reach, or a page that DENY has refused, is refused. -/
def xlateLanesIf (s : State) (c : Nat) (k : Acc) (den : List Nat) (no : Nat → Bool) (l : List (Nat × Nat)) : LaneRes :=
  let rs := l.map fun x => (x.1, x.2, if den.contains (pageOf s c x.2) then XRes.xlate else
    match xlate s c x.2 k with | .hit pa => if no pa then XRes.xlate else .hit pa | r => r)
  let bad := rs.findSome? fun x => match x.2.2 with | .bad pa => some pa | _ => none
  let no := rs.filter fun x => match x.2.2 with | .xlate => true | _ => false
  let ms := rs.filter fun x => match x.2.2 with | .page => true | .pageWrite => true | _ => false
  match bad, no, ms with
  | some pa, _, _ => .bad pa
  | none, y :: t, _ => .xlate (maskOf fun i => (y :: t).any fun z => z.1 = i) y.2.1
  | none, [], y :: t => .miss ((y :: t).map fun z => (z.1, z.2.1))
  | none, [], [] => .hits (rs.filterMap fun x => (x.2.2.pa?).map fun pa => (x.1, pa))

/-- Translates a list of (lane, address) that may reach every home. -/
def xlateLanes (s : State) (c : Nat) (k : Acc) (den : List Nat) (l : List (Nat × Nat)) : LaneRes :=
  xlateLanesIf s c k den (fun _ => false) l

end Sys2Proof.Machine
end

