-- ==== Sys2Proof/Machine/Flags.lean ====
section
/-! DEFINITION. How a word of a wave issues and retires: its executing lanes (R183), the source checks (R51), FP flags
and FPTRAP (R151, R152), KEEP (R26), the S-level store (R161), the move of the PC, and the watch units (R396). -/

namespace Sys2Proof.Machine

/-- The issue of a wave's word: its wave, slot, the lanes it may touch, the executing lanes, and whether an inspector
steps it. -/
structure Iss where
  w : Nat
  sl : Nat
  v : Wave
  lanes : Mask
  ex : Mask
  stepping : Bool
  op : Op

namespace Iss
/-- The executing lanes that are not helper lanes. -/
def real (i : Iss) : Mask := i.ex &&& ~~~i.v.helper
/-- The slot that issues. -/
def slot (i : Iss) : Slot := i.v.slot i.sl
/-- The other slot's number. -/
def other (i : Iss) : Nat := 1 - i.sl
/-- The issuer index of the lowest executing lane. -/
def issuer (i : Iss) (s : State) : Word := Machine.issuer s i.v (lowLane i.ex)
end Iss

/-- Runs a word of the issuing wave; a word with no live issuer is the model's own fault. -/
def withWave (o : Op) (x : Body) (s : State) (k : Iss → State) : Out :=
  match s.cur with
  | .wave w sl lanes stepping =>
    match s.wave? w with
    | none => .fault .noIssuer
    | some v =>
      if v.alive && (v.slot sl).live then
        let m := (v.slot sl).mask &&& lanes
        .next (k ⟨w, sl, v, m, m &&& v.guard x.guard, stepping, o⟩)
      else .fault .noIssuer
  | _ => .fault .noIssuer

/-- The checks of R51 before a word has its effect. -/
def checked (i : Iss) (s : State) (l : List Need) (k : State) : State :=
  match srcCheck i.v l with
  | .ok => k
  | .lost m => takeT s i.w i.sl 0x05 m 0 0
  | .trap m => takeT s i.w i.sl 0x06 m 0 0
  | .stall => starveSlot s i.w i.sl

/-- A word whose sources are checked in its executing lanes. -/
def wordOp (o : Op) (x : Body) (s : State) (k : Iss → State) : Out :=
  withWave o x s fun i => checked i s (needs o x i.ex) (k i)

/-! ### Entering an order (R73, R410, R415) -/

/-- A context in RECORD or REPLAY. -/
def recOn (s : State) (c : Nat) : Bool := match s.ctx? c with | some x => x.rec_.mode ≠ 0 | none => false

/-- The streams of the porters at the homes of physical addresses (R410). -/
def portsOf (s : State) (pas : List Nat) : List Nat :=
  (pas.filterMap fun p => match homeOf s p with | .here c => some (portStream c) | _ => none).eraseDups

/-- The streams that a carry of a block's pool into its gang's pool enters, a gang escalation included (R94, R96, R410). -/
def upStreams (s : State) (v : Wave) (b : Block) (g : Gang) : List Nat :=
  [gangStream s v.gang] ++
    (if decide (65536 < lineCount ((putAll g.pool b.pool).map Prod.fst)) && escalates s v.grid then
      portsOf s ((carryOf s v.ctx v.denied g.pool).bytes.map Prod.fst) else [])

/-- The streams that an entry of device bytes into the block level enters, escalations included (R73, R77, R410). -/
def poolStreams (s : State) (w : Nat) (bytes : List (Nat × Byte)) : List Nat :=
  match s.wave? w with
  | none => []
  | some v => match s.block? v.blk, s.gang? v.gang with
    | some b, some g =>
      if !recOn s v.ctx then [] else
      [blkStream s v.blk] ++
        (if decide (2048 < lineCount ((putAll b.pool bytes).map Prod.fst)) && escalates s v.grid then upStreams s v b g else [])
    | _, _ => []

/-- The streams that step n of a wave's commit at a scope enters, escalations included (R73, R94, R410). The staging of
COMMIT.SYS enters none: its bytes enter the porters' service as they are applied (R114). -/
def stepStreams (s : State) (w scope n : Nat) : List Nat :=
  match s.wave? w with
  | none => []
  | some v => match s.block? v.blk, s.gang? v.gang with
    | some b, some g =>
      if !recOn s v.ctx then [] else
      match n with
      | 1 => poolStreams s w v.bufD
      | 2 => upStreams s v b g
      | _ => if scope = 4 then [] else portsOf s ((carryOf s v.ctx v.denied g.pool).bytes.map Prod.fst)
    | _, _ => []

/-- An entry of a wave's word: it passes its gates, then acts; held at a gate, the slot waits there (R415). -/
def gated (s : State) (i : Iss) (streams : List Nat) (op : State → CRes) (k : State → State) : State :=
  match gateAll s i.v.ctx (gridNo s i.v.grid) (i.issuer s) i.v.hash streams with
  | .wait s1 => stallSlot s1 i.w i.sl
  | .pass s1 => match op s with
    | .ok _ => onEntry s1 i.w i.sl (lowLane i.ex) (op s1) k
    | r => onEntry s i.w i.sl (lowLane i.ex) r k

/-- The other slot's DPHASE.CLOSE waits for its entry (R267). -/
def otherCloses (i : Iss) : Bool := let o := i.v.slot i.other; o.live && o.entry = some closeEntry

/-- The other slot's commit has begun and has not entered its last level: one of its own word, or that of an escalation (R72,
R76, R93, R114). -/
def otherCommits (i : Iss) : Bool :=
  let o := i.v.slot i.other
  o.live && ((o.entry.isSome && o.entry ≠ some closeEntry) || (match o.hold with | .sysCommit _ => true | _ => false))

/-- An acquiring atomic of the wave has not been served (R103), or a load that an acquire has ordered has not read its bytes
(R75, R100). -/
def acqHeld (s : State) (i : Iss) : Bool := (s.hall.any fun r => r.wave = i.w && r.acq) || fencedOut s i.w

/-- The wave issues no load or store: the other slot enters an order (R72, R93, R267), or an acquire holds it. -/
def memHeld (s : State) (i : Iss) : Bool := otherCloses i || otherCommits i || acqHeld s i

/-- The wave issues no atomic: the other slot closes a phase (R267), or an acquire holds it. A commit of the other slot does
not (R276). -/
def atomHeld (s : State) (i : Iss) : Bool := otherCloses i || acqHeld s i

/-- A word whose escalation has begun its implicit commit and waits: until that has entered, the other slot issues no load or
store (R72, R76). -/
def escEntry (i : Iss) (s : State) : State :=
  s.modWave i.w fun v => v.modSlot i.sl fun x =>
    if x.live && x.pc = i.slot.pc && (x.stalled || x.hold = .parked) then { x with entry := some 0 } else x

/-- A store's bytes enter the wave buffer; where that escalates, the word is an entry of the block's order, and more, and
passes its gates (R71, R76, R410). -/
def bufStore (i : Iss) (s : State) (scratch : Bool) (bytes : List (Nat × Byte)) (k : State → State) : State :=
  if bufLines (bufPut i.v scratch bytes) ≤ 128 then (match storeBytes s i.w scratch bytes with | .ok s1 => k s1 | _ => s)
  else match storeBytes s i.w scratch bytes with
    | .ok _ => (match gateAll s i.v.ctx (gridNo s i.v.grid) (i.issuer s) i.v.hash (stepStreams s i.w 1 1) with
      | .wait s1 => escEntry i (stallSlot s1 i.w i.sl)
      | .pass s1 => onEntry s1 i.w i.sl (lowLane i.ex) (storeBytes s1 i.w scratch bytes) k)
    | r => escEntry i (onEntry s i.w i.sl (lowLane i.ex) r k)

/-! ### The PC -/

/-- The word is done in the lanes that issued: the PC advances once every lane of the mask has executed it (R312). -/
def Slot.advance (x : Slot) (lanes : Mask) : Slot :=
  let d := x.stepped ||| lanes
  if x.mask &&& ~~~d = 0 then x.goTo (x.pc + 16)
  else { x.awake with stepped := d, entry := none }

/-- Moves the issuing slot past its word. -/
def advance (i : Iss) (s : State) : State := s.modWave i.w fun v => { v with lastSlot := i.sl }.modSlot i.sl (·.advance i.lanes)

/-- Moves the issuing slot to a PC. -/
def jump (i : Iss) (s : State) (pc : Word) : State :=
  s.modWave i.w fun v => { v with lastSlot := i.sl }.modSlot i.sl (·.goTo pc)

/-- Holds the issuing slot after its word. -/
def holdSlot (i : Iss) (s : State) (h : Hold) : State := s.modWave i.w fun v => v.modSlot i.sl fun x => { x with hold := h }

/-- A wave under a gang halt counts its instructions down and halts at the eighth (R399). -/
def countGangHalt (s : State) (i : Iss) : State :=
  match s.wave? i.w with
  | none => s
  | some v => match v.gangHalt with
    | none => s
    | some n => if n ≤ 1 then haltWave s i.w 5 v.halt.unit 0 0 i.slot.pc else s.modWave i.w fun v => { v with gangHalt := some (n - 1) }

/-! ### What an instruction shows to watch units -/

/-- The operand fields of a word, as register indices (R303). -/
def regFields (x : Body) : List (Nat × Bool) :=
  (match x.d with | some o => [((opdField o).toNat, true)] | none => []) ++
  ([x.a, x.b, x.c].filterMap fun o => o.map fun o => ((opdField o).toNat, false))

/-- One S source's words, in each lane. -/
def sReads1 (l : Option Lv) (o : Option Opd) (m : Mask) : List (Nat × Nat × Nat × Nat × Bool) :=
  match l, o with
  | some l, some (.s i) => (lanesOf m).map fun n => (n, 1, 4 * i.val, 4 * l.entries, false)
  | _, _ => []

/-- Scratchpad words that S sources read, in each lane (R303). -/
def sReads (o : Op) (x : Body) (m : Mask) : List (Nat × Nat × Nat × Nat × Bool) :=
  let g := sig o x.ty x.md x.aux
  sReads1 g.a x.a m ++ sReads1 g.b x.b m ++ sReads1 g.c x.c m

/-- What every word of a wave shows: its lanes, register fields, S reads and address. -/
def seenOf (x : Body) (i : Iss) (s : State) : Seen :=
  { Seen.none with
    lanes := i.real, exec := i.ex, regs := regFields x, mem := sReads i.op x i.real
    pc := some (codeBase s i.v.grid + i.slot.pc.toNat) }

/-- The watch units of the issuing wave's core. -/
def watchWord (i : Iss) (s : State) (k : Seen) : State :=
  watchWave s i.w i.sl k k (if i.stepping then .stepped else .word) i.slot.pc

/-! ### FP flags (R151, R152) -/

/-- The result of a word in one lane: its words, its FP flags, and whether a floating-point result element is a NaN or
an infinity. -/
structure LaneVal where
  ws : List Word
  fl : FFlags
  nan : Bool
  inf : Bool

/-- A result that sets no flag. -/
def LaneVal.plain (ws : List Word) : LaneVal := ⟨ws, 0, false, false⟩

/-- A floating-point result code with its flags. -/
def LaneVal.ofCode (f : Fmt) (r : Nat × FFlags) : LaneVal :=
  let v := decodeF f r.1
  ⟨[BitVec.ofNat 32 r.1], r.2, isFloat f && v.isNan, isFloat f && v.isInf⟩

/-- What an instruction does before it retires: the wave with its results, the words written, its flags, the S-level
words it stores, and whether it draws from the RNG stream. -/
structure Eff where
  v : Wave
  vals : List (Nat × Word)
  sst : List (Nat × Word)
  fl : KMap FFlags
  nan : Mask
  inf : Mask
  rs : Bool

/-- No effect beyond the PC. -/
def Eff.none (i : Iss) : Eff := ⟨i.v, [], [], [], 0, 0, false⟩

/-- The effect of a word that writes D in the lanes of a mask, with the flags and watch marks of its lanes. -/
def effOn (x : Body) (i : Iss) (m : Mask) (rs : Bool) (f : Nat → LaneVal) : Eff :=
  let rs' := (lanesOf m).map fun l => (l, f l)
  let get (l : Nat) : List Word := match rs'.find? fun y => y.1 = l with | some y => y.2.ws | Option.none => []
  let wr := writeD i.v x.d m get
  ⟨wr.v, wr.vals, wr.sst,
   rs'.filterMap fun y => if y.2.fl = 0 then Option.none else some (y.1, y.2.fl),
   maskOf fun l => rs'.any fun y => y.1 = l && y.2.nan, maskOf fun l => rs'.any fun y => y.1 = l && y.2.inf, rs⟩

/-- The effect of a lane-wise word (R183): a result per executing lane, written to D. -/
def laneEff (x : Body) (i : Iss) (rs : Bool) (f : Nat → LaneVal) : Eff := effOn x i i.ex rs f

/-- The lanes in which a flag that FPEN enables would be set (R152). -/
def fpTrapLanes (v : Wave) (fl : KMap FFlags) (m : Mask) : Mask :=
  maskOf fun l => m.getLsbD l && kgetD fl l 0 &&& v.fpen ≠ 0

/-- Sets the produced flags in lanes that are no helper lanes (R65, R151). -/
def addFlags (v : Wave) (fl : KMap FFlags) (m : Mask) : Wave :=
  fl.foldl (fun v x => if m.getLsbD x.1 then v.setFlags x.1 (v.flag x.1 ||| x.2) else v) v

/-- KEEP copies a source, as read, into its H entry in every executing lane (R26). -/
def keepWrites (x : Body) (i : Iss) (s : State) (v : Wave) : Wave :=
  match x.keep with
  | none => v
  | some (k, t) =>
    (lanesOf i.ex).foldl (fun v l => v.put t.val l (keepVal s i.v i.op x k l)) v

/-- The bytes of S-level words. -/
def sBytes (l : List (Nat × Word)) : List (Nat × Byte) := (l.map fun x => bytesAt x.1 4 x.2.toNat).flatten

/-- The S-level store of a word (R161, R413): through the wave buffer, unless only helper lanes execute (R65); it waits as
every store of the wave does. -/
def sStore (i : Iss) (sst : List (Nat × Word)) (s : State) (k : State → State) : State :=
  if sst = [] || i.real = 0 then k s else
  if memHeld s i then stallSlot s i.w i.sl else
  let bytes := sBytes sst
  bufStore i s true bytes fun s1 =>
    k (s1.modWave i.w fun v => { v with
      hash := hashStores v.hash true ((lanesOf i.real).map fun _ => (((sst.head?).map Prod.fst).getD 0, bytes.map Prod.snd)) })

/-- Puts what the wave gained from the instruction into the state that its S-level store left: registers, predicates,
flags and bases from the effect, everything else as the state holds it. -/
def Wave.withRegs (v e : Wave) : Wave :=
  { v with
    ents := e.ents, preds := e.preds, bases := e.bases, flags := e.flags, fpen := e.fpen, rng := e.rng
    tickCap := e.tickCap, paths := e.paths }

/-- A word takes FPTRAP (R152): no effect, the flags it would have set in the frame; FP-flag units see it, and it counts under a
gang halt (R399). -/
def fpTrap (x : Body) (i : Iss) (s : State) (e : Eff) : State :=
  let fl := e.fl.filter fun y => i.real.getLsbD y.1
  let m := maskOf fun l => kgetD fl l 0 ≠ 0
  let s1 := takeTrap s i.w ⟨0x10, false, false, i.sl, 0, i.slot.pc, i.slot.pc, m, 0, fl, i.ex⟩
  let k := { seenOf x i s with mem := [], regs := [], pc := none, fl, nan := e.nan, inf := e.inf }
  countGangHalt (watchWave s1 i.w i.sl k k (if i.stepping then .steppedFault else .faulted) i.slot.pc) i

/-- Retires a word: FPTRAP or its whole effect (R50, R152, R183), then the PC and the watch units. The RNG counter advances
once at each issue that draws: at every step of an inspector that steps the word lane by lane (log 60). -/
def retire (x : Body) (i : Iss) (s : State) (e : Eff) : State :=
  if fpTrapLanes i.v e.fl i.real ≠ 0 then fpTrap x i s e else
  sStore i e.sst s fun s1 =>
    let v1 := keepWrites x i s (addFlags e.v e.fl i.real)
    let v2 := if e.rs then { v1 with rng := v1.rng + 1 } else v1
    let s2 := advance i (s1.modWave i.w fun v => v.withRegs v2)
    let k := { seenOf x i s with
      mem := sReads i.op x i.real ++ (e.sst.map fun y => (lanesOf i.real).map fun l => (l, 1, y.1, 4, true)).flatten
      vals := e.vals.filter (fun y => i.real.getLsbD y.1), fl := e.fl, nan := e.nan, inf := e.inf }
    countGangHalt (watchWord i s2 k) i

/-- A lane-wise word that sets no flag. -/
def plainOp (o : Op) (x : Body) (s : State) (f : Iss → Nat → List Word) : Out :=
  wordOp o x s fun i => retire x i s (laneEff x i false fun l => .plain (f i l))

/-- A word that only changes the wave: its predicates, bases, registers. -/
def waveOp (o : Op) (x : Body) (s : State) (f : Iss → Wave) : Out :=
  wordOp o x s fun i => retire x i s { Eff.none i with v := f i }

end Sys2Proof.Machine
end

