-- ==== Sys2Proof/Machine/Seqs.lean ====
section
/-! DEFINITION. How a sequencer's word issues, ends and faults (R278, R280). -/

namespace Sys2Proof.Machine

/-- The issue of a sequencer's word: its block. -/
structure SIss where
  bk : Nat
  b : Block

/-- Runs a word of the issuing sequencer; a word with no live issuer is the model's own fault. -/
def withSeq (s : State) (k : SIss → State) : Out :=
  match s.cur with
  | .seq bk => match s.block? bk with
    | some b => if b.seq.st = .run then .next (k ⟨bk, b⟩) else .fault .noIssuer
    | none => .fault .noIssuer
  | _ => .fault .noIssuer

/-- A block's pre-image window ends (R130). -/
def endWindow (b : Block) : Block := { b with window := false, pre := [], saved := [] }

/-- A sequencer's word faults (R280): no effect, the sequencer stops there, the lowest-numbered wave that has not ended
takes the fault at its next issue attempt; with every wave ended it counts as an event. -/
def seqFault (s : State) (bk code ea : Nat) : State :=
  match s.block? bk with
  | none => s
  | some b =>
    let s1 := s.modBlock bk fun b => endWindow { b with seq := { b.seq with st := .stopped } }
    let live := b.waves.filter fun w => match s.wave? w with | some v => v.alive | none => false
    match live with
    | w :: t =>
      let lowest := t.foldl (fun m k => match s.wave? m, s.wave? k with
        | some a, some c => if c.idx < a.idx then k else m
        | _, _ => m) w
      addLate s1 lowest ⟨code, b.seq.pc, 0, ea, b.seq.pc, true, false, none, 0⟩
    | [] => blockRetire (countEvent s1 b.ctx 9) bk

/-- Moves the sequencer to a PC. -/
def seqJump (s : State) (bk : Nat) (pc : Word) : State := s.modBlock bk fun b => { b with seq := { b.seq with pc, waits := false } }

/-- The sequencer's word waits (R278, R279, R290); with every wave of the block ended it is stopped there (R291). -/
def seqWait (s : State) (bk : Nat) : State :=
  blockLastWave (s.modBlock bk fun b => { b with seq := { b.seq with waits := true } }) bk

/-- Moves the sequencer past its word. -/
def seqNext (s : State) (bk : Nat) : State := s.modBlock bk fun b => { b with seq := { b.seq with pc := b.seq.pc + 16, waits := false } }

/-- What every sequencer word shows to watch units: lane 0 and its address (R303). -/
def seqSeen (s : State) (i : SIss) : Seen :=
  { Seen.none with lanes := 1, exec := 1, pc := some (codeBase s i.b.grid + i.b.seq.pc.toNat) }

/-- A sequencer word retires: the PC moves on and the watch units of its core see it (R396, R399). -/
def seqDone (s : State) (i : SIss) (mem : List (Nat × Nat × Nat × Nat × Bool)) (vals : List (Nat × Word)) : State :=
  let k := { seqSeen s i with mem, vals }
  watchSeq (seqNext s i.bk) i.bk k k i.b.seq.pc

/-- A sequencer operand of level Q, or a literal sign-extended to 32 bits (R278). -/
def seqSrc (b : Block) (o : Option Opd) : Word :=
  match o with
  | some (.q i) => b.seq.q[i.val]
  | some (.lit c) => c.signExtend 32
  | _ => 0

/-- The handle or tile number that an operand names. -/
def seqIdx (o : Option Opd) : Nat :=
  match o with
  | some (.o i) => i.val
  | some (.t i) => i.val
  | some (.q i) => i.val
  | _ => 0

end Sys2Proof.Machine
end

