-- ==== Sys2Proof/Machine/Control.lean ====
section
/-! DEFINITION. Class 000: control and wave (R186 to R194), with the PC slots and the divergence stack (R59 to R61). -/

namespace Sys2Proof.Machine

/-- A control word is done: the watch units see it. -/
def wordDone (x : Body) (i : Iss) (s0 s : State) : State := countGangHalt (watchWord i s (seenOf x i s0)) i

/-- NOP (R186): no effect on any state but the PC, in wave code and in an `.mstream`. -/
def execNop (x : Body) (s : State) : Out :=
  match s.cur with
  | .seq _ => withSeq s fun i => seqDone s i [] []
  | _ => withWave .nop x s fun i => wordDone x i s (advance i s)

/-- The guard over the slot's mask: true everywhere, false everywhere, or differing (R187, R190). -/
def guardOver (i : Iss) : Option Bool :=
  if i.ex = i.lanes then some true else if i.ex = 0 then some false else none

/-- A branch displacement from a PC (R169). -/
def dispPc (pc : Word) (t : BitVec 23) : Word := pc + t.signExtend 32 * 16

/-- A BRANCH trace record (R405). -/
def traceBranch (i : Iss) (s : State) (aux data : Nat) : State := traceWave s i.w 3 aux (lowLane i.ex) i.slot.pc data

/-- A branch to a target, with its trace record. -/
def branchTo (x : Body) (i : Iss) (s : State) (aux : Nat) (pc : Word) : State :=
  wordDone x i s (traceBranch i (jump i s pc) aux pc.toNat)

/-- BRA (R187). -/
def execBra (x : Body) (s : State) : Out :=
  withWave .bra x s fun i =>
    match guardOver i with
    | some true => branchTo x i s 0 (dispPc i.slot.pc x.aux.bTgt)
    | some false => wordDone x i s (advance i s)
    | none => takeT s i.w i.sl 0x07 i.lanes 0 0

/-- Splits the slot's lanes into taken and fall-through sets (R60): the taken set goes to the free slot or onto the
stack; none where the stack is full. -/
def splitSlot (v : Wave) (sl limit : Nat) (taken : Mask) (target join : Word) : Option Wave :=
  let a := v.slot sl
  let rest : Slot := { a.goTo (a.pc + 16) with mask := a.mask &&& ~~~taken }
  if !(v.slot (1 - sl)).live then some ((v.setSlot (1 - sl) (.at_ target taken)).setSlot sl rest)
  else if limit ≤ v.stack.length then none
  else some ((v.pushStk ⟨taken, target, join⟩).setSlot sl rest)

/-- BRD (R60, R188). -/
def execBrd (x : Body) (s : State) : Out :=
  withWave .brd x s fun i =>
    let target := dispPc i.slot.pc x.aux.bTgt
    match guardOver i with
    | some true => wordDone x i s (traceBranch i (jump i s target) 1 i.ex.toNat)
    | some false => wordDone x i s (advance i s)
    | none => match splitSlot i.v i.sl (stackLimit s i.v) i.ex target (dispPc i.slot.pc x.aux.bJoin) with
      | some v => wordDone x i s (traceBranch i (s.putWave i.w { v with lastSlot := i.sl }) 1 i.ex.toNat)
      | none => takeT s i.w i.sl 0x08 i.lanes 0 0

/-- Pops the top of the stack into a free slot (FillFree of R61). -/
def fillFree (v : Wave) : Wave :=
  match v.stack with
  | [] => v
  | e :: t =>
    if !v.slot0.live then { v with stack := t, slot0 := .at_ e.pc e.mask }
    else if !v.slot1.live then { v with stack := t, slot1 := .at_ e.pc e.mask }
    else v

/-- A slot held at a JOIN goes on when the other slot is free and the stack empty (R189). -/
def releaseJoin (v : Wave) : Wave :=
  if v.stack ≠ [] then v else
  let go (v : Wave) (sl : Nat) : Wave :=
    let a := v.slot sl
    if a.live && a.hold = .join && !(v.slot (1 - sl)).live then v.setSlot sl { a.goTo (a.pc + 16) with hold := .none } else v
  go (go v 0) 1

/-- A JOIN executed by a slot (R61, R189). -/
def joinSlot (v : Wave) (sl : Nat) : Wave :=
  let a := v.slot sl
  let o := v.slot (1 - sl)
  let j := a.pc
  if o.live && o.hold = .join && o.pc = j then
    fillFree { v with slot0 := .at_ (j + 16) (a.mask ||| o.mask), slot1 := .free }
  else match v.stack with
    | [] =>
      if !o.live then v.setSlot sl (.at_ (j + 16) a.mask) else v.setSlot sl { a.goTo j with hold := .join }
    | e :: t =>
      if e.join = j && e.pc = j then fillFree ({ v with stack := t }.setSlot sl (.at_ (j + 16) (a.mask ||| e.mask)))
      else if e.join = j then fillFree ((v.swapStk ⟨a.mask, j, j⟩ t).setSlot sl (.at_ e.pc e.mask))
      else fillFree (v.setSlot sl { a.goTo j with hold := .join })

/-- JOIN (R189). -/
def execJoin (x : Body) (s : State) : Out :=
  withWave .join x s fun i => wordDone x i s (s.putWave i.w { joinSlot i.v i.sl with lastSlot := i.sl })

/-- CALL (R190): the return offset goes to D in every lane of the mask. -/
def execCall (x : Body) (s : State) : Out :=
  withWave .call x s fun i =>
    match guardOver i with
    | some true =>
      let wr := writeD i.v x.d i.lanes fun _ => [i.slot.pc + 16]
      let s1 := s.putWave i.w wr.v
      let pc := dispPc i.slot.pc x.aux.bTgt
      let s2 := traceBranch i (jump i s1 pc) 2 pc.toNat
      countGangHalt (watchWord i s2 { seenOf x i s with vals := wr.vals.filter fun y => i.real.getLsbD y.1 }) i
    | some false => wordDone x i s (advance i s)
    | none => takeT s i.w i.sl 0x07 i.lanes 0 0

/-- RET and JMPX (R190): to the offset in A, which is one value over the mask and a multiple of 16. -/
def jumpIndirect (aux : Nat) (x : Body) (i : Iss) (s : State) : State :=
  match guardOver i with
  | some false => wordDone x i s (advance i s)
  | none => takeT s i.w i.sl 0x07 i.lanes 0 0
  | some true => checked i s (needs i.op x i.lanes)
      (let t := src s i.v x.a (lowLane i.lanes)
       if (lanesOf i.lanes).any (fun l => src s i.v x.a l ≠ t) then takeT s i.w i.sl 0x07 i.lanes 0 0
       else if t.extractLsb' 0 4 ≠ 0 then takeT s i.w i.sl 0x0B i.lanes 0 0
       else branchTo x i s aux t)

/-- RET (R190). -/
def execRet (x : Body) (s : State) : Out := withWave .ret x s fun i => jumpIndirect 3 x i s

/-- JMPX (R190). -/
def execJmpx (x : Body) (s : State) : Out := withWave .jmpx x s fun i => jumpIndirect 4 x i s

/-- The wave after EXIT removes lanes of a slot (R191). -/
def exitSlot (v : Wave) (sl : Nat) (lanes : Mask) : Wave :=
  let a := v.slot sl
  let m := a.mask &&& ~~~lanes
  if m ≠ 0 then v.setSlot sl { a.goTo (a.pc + 16) with mask := m }
  else releaseJoin (fillFree (fillFree (v.setSlot sl .free)))

/-- A seated wave whose live slots all wait at seams is SEATWAIT from now on (R330). -/
def Wave.seamWait (v : Wave) (now : Nat) : Wave :=
  if v.waiting then { v with st := if v.st = .seated then .seatwait else v.st, waitSince := now } else v

/-- EXIT (R191): the wave ends with its last lanes, a HALTED one once it is released (R330); a slot that is left at its seam
waits there. -/
def execExit (x : Body) (s : State) : Out :=
  withWave .exit x s fun i =>
    let v := { exitSlot i.v i.sl i.ex with lastSlot := i.sl }
    if !v.slot0.live && !v.slot1.live then
      (let s1 := wordDone x i s (s.putWave i.w v)
       if v.st = .halted then s1 else endWave s1 i.w)
    else wordDone x i s (s.putWave i.w (v.seamWait s.tick.toNat))

/-! ### Seams (R52, R192, R269 to R271) -/

/-- Marks every H and N entry that is not a survivor LOST in the slot's lanes (R52): a FULL value is discarded, and reads
as zero bits (log 1); an EMPTY entry's bits stay, its producer detached; a LOST entry stays as it is (R48). -/
def markSeam (v : Wave) (lanes : Mask) (sh : BitVec 8) (sn : BitVec 32) : Wave :=
  { v with ents := v.ents.filterMap fun x =>
      let e := x.1 / 64
      if !(decide (e < 40) && lanes.getLsbD (x.1 % 64)) || (if e < 8 then sh.getLsbD e else sn.getLsbD (e - 8)) then some x
      else match x.2.st with
        | .full => none
        | _ => if x.2.val = 0 then none else some (x.1, ⟨x.2.val, .lost⟩) }

/-- Whether a wait condition holds (R88, R192, R269, R271, R348). -/
def condHolds (s : State) (v : Wave) (c : WaitCond) : Bool :=
  match c with
  | .ready => true
  | .source e m => (lanesOf m).all fun l => !isEmptyCell (v.cell e l).st
  | .path k t => v.path k ≤ t
  | .bar n => match s.block? v.blk with
    | some b => !barWaits (if h : n < 16 then b.bars[n] else ⟨0, 0, 0, 0⟩) v.idx
    | none => true
  | .gbar p => match s.block? v.blk with | some b => b.gbar.phase.toNat ≠ p | none => true
  | .xbar p => match s.block? v.blk with | some b => b.xbar.phase.toNat ≠ p | none => true

/-- A seam issues: its non-survivors are lost; it waits at its own PC unless the condition holds (R52, R330, R343).
A SEAM with nothing to wait for counts as waiting until the slot goes on (R192). -/
def seam (x : Body) (i : Iss) (s0 s : State) (c : Option WaitCond) : State :=
  let s1 := s.modWave i.w fun v => markSeam v i.slot.mask x.aux.sSh x.aux.sSn
  let go := match c, s1.wave? i.w with
    | some .ready, _ => false
    | some c, some v => condHolds s1 v c
    | _, _ => true
  let s2 := if go then advance i s1 else
    s1.modWave i.w fun v =>
      let v1 := { v with lastSlot := i.sl }.modSlot i.sl fun a => { a.awake with hold := .seam (c.getD .ready) }
      v1.seamWait s.tick.toNat
  wordDone x i s0 s2

/-- SEAM (R192): a source that is LOST, or EMPTY under a caret, faults before anything is marked. DESIGN CHOICE (log 76): one
without an executing lane goes straight on and counts as waiting at no seam. -/
def execSeam (x : Body) (s : State) : Out :=
  withWave .seam x s fun i =>
    if i.ex = 0 then seam x i s s none else
    match needs i.op x i.ex with
    | [] => seam x i s s (some .ready)
    | k :: t => match srcCheck i.v (k :: t) with
      | .lost m => takeT s i.w i.sl 0x05 m 0 0
      | .trap m => takeT s i.w i.sl 0x06 m 0 0
      | .stall => seam x i s s (some (.source k.ent i.ex))
      | .ok => seam x i s s (some .ready)

/-- YIELD (R193): no change; the bench chooses another ready wave on the next clock. -/
def execYield (x : Body) (s : State) : Out :=
  withWave .yield x s fun i => wordDone x i s (advance i (s.modWave i.w fun v => { v with yielded := true }))

/-! ### VOTE (R194) -/

/-- The lanes to which a collective result goes: D in W once for any executing lane, else the participating lanes. -/
def collMask (x : Body) (i : Iss) : Mask := match x.d with | some (.w _) => i.ex | _ => i.real

/-- Writes one predicate value in the participating lanes. -/
def votePred (o : Op) (x : Body) (s : State) (f : Iss → Bool) : Out :=
  waveOp o x s fun i => i.v.setPred x.aux.pPd.val i.real (if f i then allLanes else 0)

/-- VOTE.ANY (R194). -/
def execVoteAny (x : Body) (s : State) : Out := votePred .voteAny x s fun i => i.v.pred x.aux.pPa.val &&& i.real ≠ 0

/-- VOTE.ALL (R194). -/
def execVoteAll (x : Body) (s : State) : Out := votePred .voteAll x s fun i => i.real &&& ~~~(i.v.pred x.aux.pPa.val) = 0

/-- VOTE.EQ (R194). -/
def execVoteEq (x : Body) (s : State) : Out := votePred .voteEq x s fun i =>
  i.v.pred x.aux.pPa.val &&& i.real = 0 || i.real &&& ~~~(i.v.pred x.aux.pPa.val) = 0

/-- A uniform result written to D under the mask of R194 and R214. -/
def collEff (x : Body) (i : Iss) (ws : List Word) : Eff :=
  let wr := writeD i.v x.d (collMask x i) fun _ => ws
  { Eff.none i with v := wr.v, vals := wr.vals }

/-- VOTE.BAL (R194). -/
def execVoteBal (x : Body) (s : State) : Out :=
  wordOp .voteBal x s fun i => retire x i s (collEff x i (wordsOf true (i.v.pred x.aux.pPa.val &&& i.real).toNat))

end Sys2Proof.Machine
end

