-- ==== Sys2Proof/Machine/Integer.lean ====
section
/-! DEFINITION. Class 001: integer arithmetic, logic, shifts and bit fields (R205 to R209). -/

namespace Sys2Proof.Machine

/-- The words of an exact integer result (R205): saturated or wrapped. -/
def intResult (ty : Fmt) (sat : Bool) (v : Int) : List Word :=
  wordsOf (fmt64 ty) (wrap (fmtBits ty) (if sat then satInt ty v else v))

/-- A class 001 word from its sources as exact integers (R205). -/
def intOp (o : Op) (x : Body) (s : State) (f : Int → Int → Int → Int) : Out :=
  plainOp o x s fun i l =>
    intResult x.ty (satOf x.md) (f (srcInt s i.v x.ty x.a l) (srcInt s i.v x.ty x.b l) (srcInt s i.v x.ty x.c l))

/-- A class 001 word from its sources as bits of the operand width. -/
def bitOp (o : Op) (x : Body) (s : State) (f : DWord → DWord → DWord) : Out :=
  plainOp o x s fun i l => wordsOf (fmt64 x.ty) (f (src64 s i.v x.a l) (src64 s i.v x.b l)).toNat

/-- A class 001 word from its sources as 32-bit words. -/
def wordBitOp (o : Op) (x : Body) (s : State) (f : Word → Word → Word → Word) : Out :=
  plainOp o x s fun i l => [f (src s i.v x.a l) (src s i.v x.b l) (src s i.v x.c l)]

/-- IADD (R206). -/
def execIadd (x : Body) (s : State) : Out := intOp .iadd x s fun a b _ => a + b
/-- ISUB (R206). -/
def execIsub (x : Body) (s : State) : Out := intOp .isub x s fun a b _ => a - b
/-- IMUL (R206). -/
def execImul (x : Body) (s : State) : Out := intOp .imul x s fun a b _ => a * b
/-- IMULH (R206): the floor of the product over 2^32. -/
def execImulh (x : Body) (s : State) : Out := intOp .imulh x s fun a b _ => a * b / 2 ^ 32
/-- IMAD (R206). -/
def execImad (x : Body) (s : State) : Out := intOp .imad x s fun a b c => a * b + c
/-- IMIN (R206). -/
def execImin (x : Body) (s : State) : Out := intOp .imin x s fun a b _ => min a b
/-- IMAX (R206). -/
def execImax (x : Body) (s : State) : Out := intOp .imax x s fun a b _ => max a b
/-- IABS (R206). -/
def execIabs (x : Body) (s : State) : Out := intOp .iabs x s fun a _ _ => (a.natAbs : Int)
/-- ICLAMP (R206): Min(Max(A, B), C). -/
def execIclamp (x : Body) (s : State) : Out := intOp .iclamp x s fun a b c => min (max a b) c

/-- A predicate that a word reads as data holds one value in the executing lanes (R161). -/
def predUniform (v : Wave) (p : Nat) (ex : Mask) : Bool := v.pred p &&& ex = 0 || ex &&& ~~~(v.pred p) = 0

/-- D names W or S. -/
def uniformDst (x : Body) : Bool := match x.d with | some (.w _) => true | some (.s _) => true | _ => false

/-- The predicate part of R161, checked at issue: a W or S destination needs uniform predicates, or the wave takes
ILLLEV. -/
def predChecked (x : Body) (i : Iss) (s : State) (ps : List Nat) (k : State) : State :=
  if uniformDst x && !(ps.all fun p => predUniform i.v p i.ex) then takeT s i.w i.sl 0x03 i.ex 0 0 else k

/-- The carry sum of IADDC in a lane (R207). -/
def addcSum (s : State) (x : Body) (i : Iss) (l : Nat) : Nat :=
  (src s i.v x.a l).toNat + (src s i.v x.b l).toNat + (if (i.v.pred x.aux.pPa.val).getLsbD l then 1 else 0)

/-- IADDC (R207). -/
def execIaddc (x : Body) (s : State) : Out :=
  wordOp .iaddc x s fun i => predChecked x i s [x.aux.pPa.val]
    (let e := laneEff x i false fun l => .plain [BitVec.ofNat 32 (addcSum s x i l)]
     retire x i s { e with v := e.v.setPred x.aux.pPd.val i.ex (maskOf fun l => decide (2 ^ 32 ≤ addcSum s x i l)) })

/-- AND (R206). -/
def execAnd (x : Body) (s : State) : Out := bitOp .and x s fun a b => a &&& b
/-- OR (R206). -/
def execOr (x : Body) (s : State) : Out := bitOp .or x s fun a b => a ||| b
/-- XOR (R206). -/
def execXor (x : Body) (s : State) : Out := bitOp .xor x s fun a b => a ^^^ b
/-- ANDN (R206): A and not B. -/
def execAndn (x : Body) (s : State) : Out := bitOp .andn x s fun a b => a &&& ~~~b

/-- SHL (R208): zero from 32 on. -/
def execShl (x : Body) (s : State) : Out := wordBitOp .shl x s fun a b _ => if 32 ≤ b.toNat then 0 else a <<< b.toNat
/-- SHR (R208): zero from 32 on. -/
def execShr (x : Body) (s : State) : Out := wordBitOp .shr x s fun a b _ => if 32 ≤ b.toNat then 0 else a >>> b.toNat
/-- SAR (R208): copies of the sign from 32 on. -/
def execSar (x : Body) (s : State) : Out := wordBitOp .sar x s fun a b _ => a.sshiftRight (min b.toNat 31)
/-- ROT (R208): left by B mod 32. -/
def execRot (x : Body) (s : State) : Out := wordBitOp .rot x s fun a b _ => a.rotateLeft (b.toNat % 32)

/-- Offset and width of a control value (R209). -/
def fieldCtrl (c : Word) : Nat × Nat :=
  let off := c.toNat % 256
  (off, min (c.toNat / 256 % 256) (32 - off))

/-- The extracted field (R209). -/
def bfx (sgn : Bool) (a c : Word) : Word :=
  let (off, wd) := fieldCtrl c
  if 32 ≤ off || wd = 0 then 0
  else
    let f := a.toNat / 2 ^ off % 2 ^ wd
    if sgn then BitVec.ofInt 32 (signed wd f) else BitVec.ofNat 32 f

/-- The inserted field (R209). -/
def bfi (a b c : Word) : Word :=
  let (off, wd) := fieldCtrl c
  if 32 ≤ off || wd = 0 then a
  else
    let m : Word := BitVec.ofNat 32 ((2 ^ wd - 1) * 2 ^ off)
    (a &&& ~~~m) ||| (BitVec.ofNat 32 (b.toNat % 2 ^ wd * 2 ^ off) &&& m)

/-- BFX (R209). -/
def execBfx (x : Body) (s : State) : Out := wordBitOp .bfx x s fun a b _ => bfx (x.ty = .i32) a b
/-- BFI (R209). -/
def execBfi (x : Body) (s : State) : Out := wordBitOp .bfi x s fun a b c => bfi a b c

/-- Number of 1 bits. -/
def popCount (a : Word) : Nat := (List.range 32).countP fun i => a.getLsbD i
/-- Leading zero bits; 32 for 0. -/
def leadZeros (a : Word) : Nat := if a = 0 then 32 else 31 - Nat.log2 a.toNat

/-- POPC (R206). -/
def execPopc (x : Body) (s : State) : Out := wordBitOp .popc x s fun a _ _ => BitVec.ofNat 32 (popCount a)
/-- CLZ (R206). -/
def execClz (x : Body) (s : State) : Out := wordBitOp .clz x s fun a _ _ => BitVec.ofNat 32 (leadZeros a)
/-- BREV (R206). -/
def execBrev (x : Body) (s : State) : Out := wordBitOp .brev x s fun a _ _ => a.reverse

end Sys2Proof.Machine
end

