-- ==== Sys2Proof/Machine/Moves.lean ====
section
/-! DEFINITION. Class 010: predicates and selection, moves, immediates and address bases (R195 to R204), and the system
registers (R216). -/

namespace Sys2Proof.Machine

/-! ### Predicates and selection -/

/-- A comparison code of R166 on integers. -/
def intCond (c : Nat) (a b : Int) : Bool :=
  match c with
  | 0 => a = b
  | 1 => a ≠ b
  | 2 => decide (a < b)
  | 3 => decide (a ≤ b)
  | 4 => decide (b < a)
  | _ => decide (b ≤ a)

/-- PSET (R195). -/
def execPset (x : Body) (s : State) : Out :=
  waveOp .pset x s fun i => i.v.setPred x.aux.pPd.val i.ex (maskOf fun l =>
    intCond x.md.toNat (srcInt s i.v x.ty x.a l) (srcInt s i.v x.ty x.b l))

/-- PLOG (R196): pd := TT[2 × pa + pb]. -/
def execPlog (x : Body) (s : State) : Out :=
  waveOp .plog x s fun i => i.v.setPred x.aux.pPd.val i.ex (maskOf fun l =>
    x.aux.pTt.getLsbD ((if (i.v.pred x.aux.pPa.val).getLsbD l then 2 else 0) + (if (i.v.pred x.aux.pPb.val).getLsbD l then 1 else 0)))

/-- PMOV.PV (R197). -/
def execPmovPv (x : Body) (s : State) : Out :=
  wordOp .pmovPv x s fun i => predChecked x i s [x.aux.pPa.val]
    (retire x i s (laneEff x i false fun l => .plain [if (i.v.pred x.aux.pPa.val).getLsbD l then 1 else 0]))

/-- PMOV.VP (R197). -/
def execPmovVp (x : Body) (s : State) : Out :=
  waveOp .pmovVp x s fun i => i.v.setPred x.aux.pPd.val i.ex (maskOf fun l => src s i.v x.a l ≠ 0)

/-- The seven predicates of a lane as bits [6:0] (R197). -/
def predBits (v : Wave) (l : Nat) : Nat :=
  (List.range 7).foldl (fun n p => if (v.pred p).getLsbD l then n + 2 ^ p else n) 0

/-- PMOV.SAVE (R197). -/
def execPmovSave (x : Body) (s : State) : Out :=
  wordOp .pmovSave x s fun i => predChecked x i s (List.range 7)
    (retire x i s (laneEff x i false fun l => .plain [BitVec.ofNat 32 (predBits i.v l)]))

/-- PMOV.LOAD (R197). -/
def execPmovLoad (x : Body) (s : State) : Out :=
  waveOp .pmovLoad x s fun i => (List.range 7).foldl (fun v p =>
    v.setPred p i.ex (maskOf fun l => (src s i.v x.a l).getLsbD p)) i.v

/-- The sources that SEL checks: the selected one in each lane, and a kept one in every executing lane (R198). -/
def selNeeds (x : Body) (i : Iss) : List Need :=
  let g := sig i.op x.ty x.md x.aux
  let p := i.v.pred x.aux.pPa.val
  let kept (k : KeepSel) : Bool := match x.keep with | some (y, _) => y = k | none => false
  needOf g.a x.a (if kept .a then i.ex else i.ex &&& p) (x.eb.getLsbD 2) ++
  needOf g.b x.b (if kept .b then i.ex else i.ex &&& ~~~p) (x.eb.getLsbD 1)

/-- SEL (R198). -/
def execSel (x : Body) (s : State) : Out :=
  withWave .sel x s fun i => checked i s (selNeeds x i) (predChecked x i s [x.aux.pPa.val]
    (retire x i s (laneEff x i false fun l =>
      .plain (wordsOf (fmt64 x.ty) (src64 s i.v (if (i.v.pred x.aux.pPa.val).getLsbD l then x.a else x.b) l).toNat))))

/-- PRISEL (R199): the least A, and the lanes that hold it. -/
def execPrisel (x : Body) (s : State) : Out :=
  wordOp .prisel x s fun i =>
    let m := (lanesOf i.ex).foldl (fun m l => min m (src s i.v x.a l).toNat) (2 ^ 32 - 1)
    let e := laneEff x i false fun _ => .plain [BitVec.ofNat 32 m]
    retire x i s { e with v := e.v.setPred x.aux.pPd.val i.ex (maskOf fun l => (src s i.v x.a l).toNat = m) }

/-! ### Moves and immediates -/

/-- MOV (R200). -/
def execMov (x : Body) (s : State) : Out :=
  plainOp .mov x s fun i l => wordsOf (fmt64 x.ty) (src64 s i.v x.a l).toNat

/-- The sources of a word that reads them in its lowest executing lane only (R201, R315). -/
def lowNeeds (x : Body) (i : Iss) : List Need := needs i.op x (if i.ex = 0 then 0 else laneBit (lowLane i.ex))

/-- MOVW (R201): A in the lowest executing lane, checked only there. -/
def execMovw (x : Body) (s : State) : Out :=
  withWave .movw x s fun i => checked i s (lowNeeds x i) (retire x i s (laneEff x i false fun _ => .plain [src s i.v x.a (lowLane i.ex)]))

/-- MOVQ (R202): four entries, all reads before all writes. -/
def execMovq (x : Body) (s : State) : Out :=
  plainOp .movq x s fun i l => (List.range 4).map fun j => match x.a with | some o => srcAt s i.v o j l | none => 0

/-- LDI (R203). -/
def execLdi (x : Body) (s : State) : Out := plainOp .ldi x s fun _ _ => [x.aux.iImm]

/-! ### Address bases (R204) -/

/-- The base that SUB[2:0] names. -/
def subBase (x : Body) : Fin 8 := (x.aux.mSub.extractLsb' 0 3).toFin

/-- LDA (R204). -/
def execLda (x : Body) (s : State) : Out :=
  waveOp .lda x s fun i =>
    if i.ex = 0 then i.v else
    let w (j : Nat) : Word := match x.a with | some o => srcAt s i.v o j 0 | none => 0
    i.v.setBase x.aux.mBase (((w 2).extractLsb' 0 8 ++ (w 1 ++ w 0)) + x.aux.mImm.signExtend 72)

/-- AADD (R204). -/
def execAadd (x : Body) (s : State) : Out :=
  waveOp .aadd x s fun i =>
    if i.ex = 0 then i.v else
    i.v.setBase x.aux.mBase (i.v.base (subBase x) + (src s i.v x.a (lowLane i.ex)).signExtend 72 + x.aux.mImm.signExtend 72)

/-- AMOV (R204). -/
def execAmov (x : Body) (s : State) : Out :=
  wordOp .amov x s fun i =>
    let a := i.v.base (subBase x)
    retire x i s (laneEff x i false fun _ => .plain [a.extractLsb' 0 32, a.extractLsb' 32 32, (a.extractLsb' 64 8).setWidth 32])

/-! ### System registers (R171, R216) -/

/-- DSTKST (R63). -/
def dstkst (s : State) (v : Wave) : Word :=
  BitVec.ofNat 32 (dspOf s v / 2 ^ 64 % 256 * 2 ^ 24 + stackLimit s v % 256 * 2 ^ 8 + v.stack.length % 256)

/-- The value of a system register in a lane (R171). -/
def sysReg (s : State) (v : Wave) (r l : Nat) : Word :=
  match r with
  | 0x000 => 64
  | 0x001 => placeId v.place
  | 0x002 => BitVec.ofNat 32 (dspOf s v)
  | 0x003 => BitVec.ofNat 32 (dspOf s v / 2 ^ 32)
  | 0x004 => dstkst s v
  | 0x008 => (v.flag l).setWidth 32
  | 0x009 => v.fpen.setWidth 32
  | 0x010 => s.tick.extractLsb' 0 32
  | 0x011 => v.tickCap.extractLsb' 32 32
  | _ => issuer s v l

/-- SRD (R216): TICKLO captures the whole tick (R171). -/
def execSrd (x : Body) (s : State) : Out :=
  wordOp .srd x s fun i =>
    let e := laneEff x i false fun l => .plain [sysReg s i.v x.aux.gReg l]
    retire x i s (if x.aux.gReg = 0x010 && i.ex ≠ 0 then { e with v := { e.v with tickCap := s.tick } } else e)

/-- SWR (R216): FPFLAGS per lane, FPEN once. -/
def execSwr (x : Body) (s : State) : Out :=
  waveOp .swr x s fun i =>
    if i.ex = 0 then i.v
    else if x.aux.gReg = 0x009 then { i.v with fpen := (src s i.v x.a (lowLane i.ex)).extractLsb' 0 6 }
    else (lanesOf i.ex).foldl (fun v l => v.setFlags l ((src s i.v x.a l).extractLsb' 0 6)) i.v

end Sys2Proof.Machine
end

