-- ==== Sys2Proof/Machine/Lanes.lean ====
section
/-! DEFINITION. Class 010: the cross-lane words XL, QX, RSTEP, RED and SCAN (R210 to R215). -/

namespace Sys2Proof.Machine

/-! ### Lane exchange (R210, R211) -/

/-- A cross-lane move: A of the source lane where that lane is executing, else the lane's own A. -/
def exchange (o : Op) (x : Body) (s : State) (from_ : Nat → Nat → Option Nat) : Out :=
  plainOp o x s fun i l =>
    let p := match from_ (src s i.v x.b l).toNat l with
      | some p => if p < 64 && i.ex.getLsbD p then p else l
      | none => l
    [src s i.v x.a p]

/-- XL.XOR (R210). -/
def execXlXor (x : Body) (s : State) : Out := exchange .xlXor x s fun b l => some (l ^^^ (b % 64))
/-- XL.UP (R210). -/
def execXlUp (x : Body) (s : State) : Out := exchange .xlUp x s fun b l => if b % 64 ≤ l then some (l - b % 64) else none
/-- XL.DOWN (R210). -/
def execXlDown (x : Body) (s : State) : Out := exchange .xlDown x s fun b l => some (l + b % 64)
/-- XL.IDX (R210). -/
def execXlIdx (x : Body) (s : State) : Out := exchange .xlIdx x s fun b _ => some (b % 64)
/-- QX.H (R211): the other column of the quad. -/
def execQxH (x : Body) (s : State) : Out := exchange .qxH x s fun _ l => some (4 * (l / 4) + ((l % 4) ^^^ 1))
/-- QX.V (R211): the other row. -/
def execQxV (x : Body) (s : State) : Out := exchange .qxV x s fun _ l => some (4 * (l / 4) + ((l % 4) ^^^ 2))
/-- QX.D (R211): the diagonal. -/
def execQxD (x : Body) (s : State) : Out := exchange .qxD x s fun _ l => some (4 * (l / 4) + ((l % 4) ^^^ 3))

/-! ### Reductions (R212 to R215) -/

/-- A value with the flags of the combines that gave it; none is ABSENT. -/
abbrev Part := Option Word × FFlags

/-- Combine (R212) of two values that are present. -/
def combine2 (ty : Fmt) (code : Nat) (x y : Word) : Word × FFlags :=
  let f (r : Nat × FFlags) : Word × FFlags :=
    (BitVec.ofNat 32 r.1, r.2 ||| fIf (subnormal .f32 x.toNat || subnormal .f32 y.toNat) fDN)
  let a := decodeI ty x.toNat
  let b := decodeI ty y.toNat
  let int (r : Int) : Word × FFlags := (BitVec.ofInt 32 r, 0)
  match ty, code with
  | .f32, 0 =>
    let va := decodeF .f32 x.toNat
    let vb := decodeF .f32 y.toNat
    f (finish [va, vb] (.add false va vb) .f32 0 false 0)
  | .f32, 1 => f (fminmax false false x.toNat y.toNat)
  | .f32, _ => f (fminmax true false x.toNat y.toNat)
  | _, 0 => (x + y, 0)
  | _, 1 => int (min a b)
  | _, 2 => int (max a b)
  | _, 3 => (x &&& y, 0)
  | _, 4 => (x ||| y, 0)
  | _, _ => (x ^^^ y, 0)

/-- Combine with ABSENT (R212). -/
def combine (ty : Fmt) (code : Nat) (x y : Part) : Part :=
  match x, y with
  | (some a, f), (some b, g) => let r := combine2 ty code a b; (some r.1, f ||| g ||| r.2)
  | (none, f), (b, g) => (b, f ||| g)
  | (a, f), (none, g) => (a, f ||| g)

/-- The identity of a reduction (R212). -/
def redIdentity (ty : Fmt) (code : Nat) : Word :=
  match ty, code with
  | .f32, 1 => 0x7F800000
  | .f32, 2 => 0xFF800000
  | .u32, 1 => 0xFFFFFFFF
  | .i32, 1 => 0x7FFFFFFF
  | .i32, 2 => 0x80000000
  | _, 3 => 0xFFFFFFFF
  | _, _ => 0

/-- A word that a reduction reads, as a float where TYPE is F32 (R219). -/
def redSrc (s : State) (x : Body) (i : Iss) (o : Option Opd) (l : Nat) : Word :=
  if x.ty = .f32 then BitVec.ofNat 32 (srcF s i.v .f32 o l 0) else src s i.v o l

/-- What a lane contributes: A where it participates. -/
def redPart (s : State) (x : Body) (i : Iss) (l : Nat) : Part :=
  (if i.real.getLsbD l then some (redSrc s x i x.a l) else none, 0)

/-- Tree (R214) over 2^k lanes from lane lo. -/
def redTree (ty : Fmt) (code : Nat) (p : Nat → Part) : Nat → Nat → Part
  | 0, lo => p lo
  | k + 1, lo => combine ty code (redTree ty code p k lo) (redTree ty code p k (lo + 2 ^ k))

/-- A result of a reduction in one lane, seen by watch units as a floating-point result where TYPE is F32. -/
def redVal (ty : Fmt) (w : Word) (fl : FFlags) : LaneVal :=
  if ty = .f32 then .ofCode .f32 (w.toNat, fl) else .plain [w]

/-- RSTEP (R213). -/
def execRstep (x : Body) (s : State) : Out :=
  wordOp .rstep x s fun i => retire x i s (effOn x i i.real false fun l =>
    let a := redSrc s x i x.a l
    let p := l ^^^ (src s i.v x.b l).toNat
    if p < 64 && i.real.getLsbD p then
      let r := combine2 x.ty x.md.toNat (redSrc s x i x.a (min l p)) (redSrc s x i x.a (max l p))
      redVal x.ty r.1 r.2
    else redVal x.ty a 0)

/-- RED (R214). -/
def execRed (x : Body) (s : State) : Out :=
  wordOp .red x s fun i =>
    let r := redTree x.ty x.md.toNat (redPart s x i) 6 0
    let w := r.1.getD (redIdentity x.ty x.md.toNat)
    retire x i s (effOn x i (collMask x i) false fun _ => redVal x.ty w r.2)

/-- SCAN's running values, by lane (R215). -/
def scanList (ty : Fmt) (code : Nat) (p : Nat → Part) : List Nat → Part → List (Nat × Part)
  | [], _ => []
  | l :: t, acc => let a := combine ty code acc (p l); (l, a) :: scanList ty code p t a

/-- SCAN (R215). -/
def execScan (x : Body) (s : State) : Out :=
  wordOp .scan x s fun i =>
    let r := scanList x.ty x.md.toNat (redPart s x i) (lanesOf i.real) (none, 0)
    retire x i s (effOn x i i.real false fun l =>
      match r.find? fun y => y.1 = l with
      | some (_, some w, fl) => redVal x.ty w fl
      | _ => redVal x.ty 0 0)

end Sys2Proof.Machine
end

