-- ==== Sys2Proof/Machine/Float.lean ====
section
/-! DEFINITION. Class 011: floating-point arithmetic, comparison, rounding, packed and dot-product words (R219 to R230),
and the random words (R244 to R246). -/

namespace Sys2Proof.Machine

/-! ### Shared forms (R220) -/

/-- The word j of a lane's random stream at the wave's counter (R150, R245). -/
def rngWord (s : State) (v : Wave) (l j : Nat) : Word :=
  philox (match descOf s v.grid with | some d => d.seed | none => 0) (issuer s v l) v.rng j

/-- The draw of a rounding in mode RS (R150); other modes draw nothing. -/
def drawOf (s : State) (i : Iss) (rm l j : Nat) : Nat := if rm = 4 then (rngWord s i.v l j).toNat else 0

/-- DN: a source code is subnormal in its format (R220 step 5). DESIGN CHOICE (log 75): an E2M1 code is not, also where its
special value is a subnormal E4M3 code. -/
def dnOf (f : Fmt) (l : List Nat) : FFlags := fIf (l.any (subnormal f)) fDN

/-- Codes packed into an entry, element 0 lowest (R233). -/
def packCodes (f : Fmt) (l : List Nat) : Word :=
  BitVec.ofNat 32 (l.foldr (fun c n => c % 2 ^ fmtBits f + 2 ^ fmtBits f * n) 0)

/-- The result of several elements: its words, the union of their flags, and whether one is a NaN or an infinity. -/
def LaneVal.elems (f : Fmt) (ws : List Word) (l : List (Nat × FFlags)) : LaneVal :=
  ⟨ws, l.foldl (fun a x => a ||| x.2) 0, isFloat f && l.any (fun x => (decodeF f x.1).isNan),
   isFloat f && l.any (fun x => (decodeF f x.1).isInf)⟩

/-- A lane-wise floating-point word; `rs` where it draws from the RNG stream (R220 step 8). -/
def fpWord (o : Op) (x : Body) (s : State) (rs : Bool) (f : Iss → Nat → LaneVal) : Out :=
  wordOp o x s fun i => retire x i s (laneEff x i rs (f i))

/-- A word that rounds under its MOD field. -/
def roundWord (o : Op) (x : Body) (s : State) (f : Iss → Nat → LaneVal) : Out := fpWord o x s (rmOf x.md = 4) f

/-- One result of R222 in a format: source codes in NaN order, and the exact operation. -/
def arith (f : Fmt) (rm : Nat) (sat : Bool) (draw : Nat) (codes : List Nat) (op : List Val → Val) : Nat × FFlags :=
  let vs := codes.map (decodeF f)
  let r := finish vs (op vs) f rm sat draw
  (r.1, r.2 ||| dnOf f codes)

/-- A + B, A − B, A × B and A × B + C (R222). -/
def opAdd (rm : Nat) : List Val → Val | [a, b] => .add (rm = 3) a b | _ => .qnan
def opSub (rm : Nat) : List Val → Val | [a, b] => .add (rm = 3) a b.neg | _ => .qnan
def opMul : List Val → Val | [a, b] => .mul a b | _ => .qnan
def opFma (rm : Nat) : List Val → Val | [a, b, c] => .add (rm = 3) (.mul a b) c | _ => .qnan

/-- The source codes of element j, in the order A, B, C. -/
def codesOf (s : State) (x : Body) (i : Iss) (f : Fmt) (n l j : Nat) : List Nat :=
  ([x.a, x.b, x.c].take n).map fun o => srcF s i.v f o l j

/-- A word of R222. -/
def arithWord (o : Op) (x : Body) (s : State) (n : Nat) (op : Nat → List Val → Val) : Out :=
  roundWord o x s fun i l =>
    let rm := rmOf x.md
    .ofCode .f32 (arith .f32 rm (satOf x.md) (drawOf s i rm l 0) (codesOf s x i .f32 n l 0) (op rm))

/-! ### Basic arithmetic (R222 to R227) -/

/-- FADD (R222). -/
def execFadd (x : Body) (s : State) : Out := arithWord .fadd x s 2 opAdd
/-- FSUB (R222). -/
def execFsub (x : Body) (s : State) : Out := arithWord .fsub x s 2 opSub
/-- FMUL (R222). -/
def execFmul (x : Body) (s : State) : Out := arithWord .fmul x s 2 fun _ => opMul
/-- FFMA (R222): one rounding. -/
def execFfma (x : Body) (s : State) : Out := arithWord .ffma x s 3 opFma

/-- A word of R223. -/
def minmaxWord (o : Op) (x : Body) (s : State) (mx prop : Bool) : Out :=
  fpWord o x s false fun i l =>
    let a := srcF s i.v .f32 x.a l 0
    let b := srcF s i.v .f32 x.b l 0
    let r := fminmax mx prop a b
    .ofCode .f32 (r.1, r.2 ||| dnOf .f32 [a, b])

/-- FMIN (R223). -/
def execFmin (x : Body) (s : State) : Out := minmaxWord .fmin x s false false
/-- FMAX (R223). -/
def execFmax (x : Body) (s : State) : Out := minmaxWord .fmax x s true false
/-- FMIN.PROP (R223). -/
def execFminProp (x : Body) (s : State) : Out := minmaxWord .fminProp x s false true
/-- FMAX.PROP (R223). -/
def execFmaxProp (x : Body) (s : State) : Out := minmaxWord .fmaxProp x s true true

/-- FCMP on two codes (R224): the predicate and the flags. -/
def fcmp (cond a b : Nat) : Bool × FFlags :=
  let va := decodeF .f32 a
  let vb := decodeF .f32 b
  let un := va.isNan || vb.isNan
  let fl := snanFlag [va, vb] ||| fIf (un && decide (2 ≤ cond) && decide (cond ≤ 5)) fNV ||| dnOf .f32 [a, b]
  (match cond with
   | 0 => !un && Val.eqv va vb
   | 1 => un || !Val.eqv va vb
   | 2 => !un && Val.lt va vb
   | 3 => !un && !Val.lt vb va
   | 4 => !un && Val.lt vb va
   | 5 => !un && !Val.lt va vb
   | 6 => un
   | _ => !un, fl)

/-- FCMP (R224). -/
def execFcmp (x : Body) (s : State) : Out :=
  wordOp .fcmp x s fun i =>
    let r (l : Nat) := fcmp x.md.toNat (srcF s i.v .f32 x.a l 0) (srcF s i.v .f32 x.b l 0)
    retire x i s { Eff.none i with
      v := i.v.setPred x.aux.pPd.val i.ex (maskOf fun l => i.ex.getLsbD l && (r l).1)
      fl := (lanesOf i.ex).filterMap fun l => if (r l).2 = 0 then none else some (l, (r l).2) }

/-- The class bit of an F32 code (R225). -/
def fclass (c : Nat) : Nat :=
  match decodeF .f32 c with
  | .nan _ q _ => if q then 9 else 8
  | .inf s => if s then 0 else 7
  | .fin s n _ =>
    if n = 0 then (if s then 3 else 4)
    else if subnormal .f32 c then (if s then 2 else 5) else (if s then 1 else 6)

/-- FCLASS (R225). -/
def execFclass (x : Body) (s : State) : Out :=
  plainOp .fclass x s fun i l => [BitVec.ofNat 32 (2 ^ fclass (srcF s i.v .f32 x.a l 0))]

/-- FRND on a code (R226). -/
def frnd (c rm draw : Nat) : Nat × FFlags :=
  match decodeF .f32 c with
  | .fin s n d =>
    if n = 0 then (c, 0) else
    let (i, ix) := roundInt s n d rm draw
    (if i = 0 then zeroCode .f32 s else rnF32 (.ofInt i), fIf ix fNX)
  | v => finish [v] v .f32 rm false draw

/-- FRND (R226). -/
def execFrnd (x : Body) (s : State) : Out :=
  roundWord .frnd x s fun i l =>
    let c := srcF s i.v .f32 x.a l 0
    let r := frnd c (rmOf x.md) (drawOf s i (rmOf x.md) l 0)
    .ofCode .f32 (r.1, r.2 ||| dnOf .f32 [c])

/-- A × 2^B exactly for the purposes of rounding to F32: beyond 2^±512 the scale changes neither the rounding nor its
flags (R227). -/
def scaleVal (v : Val) (b : Int) : Val :=
  let e := max (-512) (min 512 b)
  match v with
  | .fin s n d => .fin s (n * 2 ^ e.toNat) (d * 2 ^ (-e).toNat)
  | v => v

/-- FSCALE (R227). -/
def execFscale (x : Body) (s : State) : Out :=
  roundWord .fscale x s fun i l =>
    let c := srcF s i.v .f32 x.a l 0
    let b := srcInt s i.v .i32 x.b l
    .ofCode .f32 (arith .f32 (rmOf x.md) (satOf x.md) (drawOf s i (rmOf x.md) l 0) [c]
      fun vs => match vs with | [v] => scaleVal v b | _ => .qnan)

/-! ### Packed and dot-product words (R228 to R230) -/

/-- A word of R228: two elements, each with its own sources, rounding and draw. -/
def packedWord (o : Op) (x : Body) (s : State) (n : Nat) (op : Nat → List Val → Val) : Out :=
  roundWord o x s fun i l =>
    let rm := rmOf x.md
    let e (j : Nat) := arith x.ty rm (satOf x.md) (drawOf s i rm l j) (codesOf s x i x.ty n l j) (op rm)
    .elems x.ty [packCodes x.ty [(e 0).1, (e 1).1]] [e 0, e 1]

/-- HADD2 (R228). -/
def execHadd2 (x : Body) (s : State) : Out := packedWord .hadd2 x s 2 opAdd
/-- HMUL2 (R228). -/
def execHmul2 (x : Body) (s : State) : Out := packedWord .hmul2 x s 2 fun _ => opMul
/-- HFMA2 (R228). -/
def execHfma2 (x : Body) (s : State) : Out := packedWord .hfma2 x s 3 opFma

/-- DOT4 on element codes (R229). -/
def dot4 (t : Fmt) (rm : Nat) (sat : Bool) (draw : Nat) (as bs : List Nat) (c : Nat) : Nat × FFlags :=
  let va := as.map (decodeF t)
  let vb := bs.map (decodeF t)
  let vc := decodeF .f32 c
  let r := finish (va ++ vb ++ [vc]) (.sum (rm = 3) (vc :: (va.zip vb).map fun p => Val.mul p.1 p.2)) .f32 rm sat draw
  (r.1, r.2 ||| dnOf t (as ++ bs) ||| dnOf .f32 [c])

/-- DOT4 (R229). -/
def execDot4 (x : Body) (s : State) : Out :=
  roundWord .dot4 x s fun i l =>
    let js := List.range (32 / fmtBits x.ty)
    .ofCode .f32 (dot4 x.ty (rmOf x.md) (satOf x.md) (drawOf s i (rmOf x.md) l 0)
      (js.map fun j => srcF s i.v x.ty x.a l j) (js.map fun j => srcF s i.v x.ty x.b l j) (srcF s i.v .f32 x.c l 0))

/-- IDOT4 on words (R230). -/
def idot4 (t : Fmt) (sat : Bool) (a b c : Word) : Word :=
  let acc : Fmt := if t = .i8 then .i32 else .u32
  let e (w : Word) (j : Nat) : Int := decodeI t (w.toNat / 2 ^ (8 * j))
  let v := decodeI acc c.toNat + (List.range 4).foldl (fun n j => n + e a j * e b j) 0
  BitVec.ofNat 32 (wrap 32 (if sat then satInt acc v else v))

/-- IDOT4 (R230). -/
def execIdot4 (x : Body) (s : State) : Out :=
  plainOp .idot4 x s fun i l => [idot4 x.ty (satOf x.md) (src s i.v x.a l) (src s i.v x.b l) (src s i.v x.c l)]

/-! ### Random numbers (R246) -/

/-- RNG (R246). -/
def execRng (x : Body) (s : State) : Out :=
  fpWord .rng x s true fun i l =>
    let w := rngWord s i.v l 0
    .plain [if x.ty = .f32 then BitVec.ofNat 32 (rnF32 (.scaled false (w.toNat / 256) (-24))) else w]

end Sys2Proof.Machine
end

