-- ==== Sys2Proof/Machine/Convert.lean ====
section
/-! DEFINITION. Class 100: conversion, packing, block scaling (R231 to R238), special functions (R239, R240) and running
statistics (R241 to R243). -/

namespace Sys2Proof.Machine

/-! ### Conversion (R231, R232) -/

/-- A conversion of an exact value that came from the given source values: to a float format, or to an integer. -/
def convTo (srcs : List Val) (v : Val) (dst : Fmt) (rm : Nat) (sat : Bool) (draw : Nat) : Nat × FFlags :=
  if isFloat dst then finish srcs v dst rm sat draw
  else
    let r := toInt v dst rm draw
    (wrap (fmtBits dst) r.1, r.2 ||| snanFlag srcs)

/-- A result code of a format as words, with its flags. -/
def LaneVal.code (f : Fmt) (r : Nat × FFlags) : LaneVal := .elems f (wordsOf (fmt64 f) r.1) [r]

/-- CVT (R231). -/
def execCvt (x : Body) (s : State) : Out :=
  roundWord .cvt x s fun i l =>
    let f := x.aux.fFmt
    let rm := rmOf x.md
    let draw := drawOf s i rm l 0
    if isFloat f then
      let c := srcF s i.v f x.a l 0
      let v := decodeF f c
      let r := convTo [v] v x.ty rm (satOf x.md) draw
      .code x.ty (r.1, r.2 ||| dnOf f [c])
    else
      let n := srcInt s i.v f x.a l
      if isFloat x.ty then .code x.ty (roundTo (.ofInt n) x.ty rm (satOf x.md) draw)
      else .plain (wordsOf (fmt64 x.ty) (wrap (fmtBits x.ty) (if satOf x.md then satInt x.ty n else n)))

/-- CVTS (R232). -/
def execCvts (x : Body) (s : State) : Out :=
  roundWord .cvts x s fun i l =>
    let f := x.aux.fFmt
    let rm := rmOf x.md
    let a := srcF s i.v f x.a l 0
    let b := srcF s i.v .f32 x.b l 0
    let va := decodeF f a
    let vb := decodeF .f32 b
    let r := convTo [va, vb] (.mul va vb) x.ty rm (satOf x.md) (drawOf s i rm l 0)
    .code x.ty (r.1, r.2 ||| dnOf f [a] ||| dnOf .f32 [b])

/-! ### Packing (R233 to R235) -/

/-- The word of the j-th entry of a source. -/
def srcEntry (s : State) (v : Wave) (o : Option Opd) (j l : Nat) : Word := match o with | some o => srcAt s v o j l | none => 0

/-- Element j of PACK from its source entry (R234). -/
def packElem (dst f : Fmt) (rm : Nat) (sat : Bool) (draw : Nat) (w : Word) : Nat × FFlags :=
  if dst = f then (w.toNat % 2 ^ fmtBits dst, 0)
  else if f = .f32 then
    let v := decodeF .f32 w.toNat
    let r := finish [v] v dst rm sat draw
    (r.1, r.2 ||| dnOf .f32 [w.toNat])
  else let n := w.toInt; (wrap 8 (if sat then satInt dst n else n), 0)

/-- PACK (R234). -/
def execPack (x : Body) (s : State) : Out :=
  roundWord .pack x s fun i l =>
    let rm := rmOf x.md
    let es := (List.range (perEntry x.ty)).map fun j =>
      packElem x.ty x.aux.fFmt rm (satOf x.md) (drawOf s i rm l j) (srcEntry s i.v x.a j l)
    .elems x.ty [packCodes x.ty (es.map Prod.fst)] es

/-- Element of UNPK (R235): from a code under the block's special value. -/
def unpkElem (dst f : Fmt) (rm : Nat) (sat : Bool) (draw sv c : Nat) : Nat × FFlags :=
  if isFloat f then
    let v := decodeSv f c sv
    let r := convTo [v] v dst rm sat draw
    (r.1, r.2 ||| dnOf f [c])
  else (wrap 32 (decodeI f c), 0)

/-- Groups of n codes packed into entries, k of them. -/
def packGroups (f : Fmt) (n k : Nat) (l : List Nat) : List Word :=
  (List.range k).map fun i => packCodes f ((l.drop (n * i)).take n)

/-- UNPK (R235). -/
def execUnpk (x : Body) (s : State) : Out :=
  roundWord .unpk x s fun i l =>
    let f := x.aux.fFmt
    let rm := rmOf x.md
    let raw := (src s i.v x.a l).toNat
    let sv := if f = .e2m1 then (src s i.v x.b l).toNat % 256 else 0x80
    let es := (List.range (perEntry f)).map fun j =>
      unpkElem x.ty f rm (satOf x.md) (drawOf s i rm l j) sv (raw / 2 ^ (fmtBits f * j) % 2 ^ fmtBits f)
    .elems x.ty (packGroups x.ty (perEntry x.ty) (unpkSpan x.ty f) (es.map Prod.fst)) es

/-! ### Block scaling (R236 to R238) -/

/-- MAXF of an element format; 127 for I8 (R236). -/
def maxfVal (t : Fmt) : Val := if t = .i8 then .ofInt 127 else decodePlain t (fmtMax t)

/-- The scale and special value of one group of participating lanes, from (lane, F32 code) in lane order (R236). -/
def bscale (t : Fmt) (grp : List Nat) : Nat × Nat :=
  let fs := (grp.map (decodeF .f32)).filter Val.isFin
  match fs with
  | [] => (0x3F800000, 0x80)
  | f :: r =>
    let top := r.foldl (fun m a => if Val.lt m.abs a.abs then a else m) f
    if top.isZero then (0x3F800000, 0x80) else
    let a1 := top.abs
    let rest := fs.eraseIdx (fs.findIdx fun a => decide (a = top))
    let a2 := rest.foldl (fun m a => if Val.lt m a.abs then a.abs else m) (Val.zero false)
    if t = .e2m1 && !a2.isZero && Val.lt (.mul (.ofInt 2) a2) a1 then
      let sc := (roundTo (.div a2 (.ofInt 6)) .f32 2 false 0).1
      (sc, (roundTo (.div top (decodeF .f32 sc)) .e4m3 0 true 0).1)
    else ((roundTo (.div a1 (maxfVal t)) .f32 2 false 0).1, 0x80)

/-- BSCALE (R236): one record per group of L lanes, to every executing lane of the group. -/
def execBscale (x : Body) (s : State) : Out :=
  wordOp .bscale x s fun i =>
    let L := match x.b with | some (.lit c) => c.toNat | _ => 16
    let recs := (List.range (64 / L)).map fun g =>
      bscale x.ty (((List.range L).filter fun k => i.real.getLsbD (g * L + k)).map fun k => srcF s i.v .f32 x.a (g * L + k) 0)
    retire x i s (laneEff x i false fun l =>
      let r := (recs[l / L]?).getD (0x3F800000, 0x80)
      .plain [BitVec.ofNat 32 r.1, BitVec.ofNat 32 r.2])

/-- DZ: a finite non-zero value divided by zero (R151). -/
def dzOf (a b : Val) : FFlags := fIf (a.isFin && !a.isZero && b.isZero) fDZ

/-- QNT (R237) from the F32 codes of A and SCALE and the special value. -/
def qnt (t : Fmt) (rm : Nat) (sat : Bool) (draw a sc sv : Nat) : Nat × FFlags :=
  let va := decodeF .f32 a
  let vs := decodeF .f32 sc
  let q := Val.div va vs
  let dn := dnOf .f32 [a, sc]
  let nan := va.isNan || vs.isNan
  let dz := if nan then 0 else dzOf va vs
  let r := convTo [va, vs] q t rm sat draw
  if t = .e2m1 && !(sv ∈ [0x00, 0x80, 0x7F, 0xFF]) && q.isFin then
    let sp := decodePlain .e4m3 sv
    let dist (y : Val) : Val := (Val.add false q y.neg).abs
    if Val.lt (dist sp) (dist (decodeF .e2m1 r.1)) then (8, fIf (!Val.eqv q sp) fNX ||| dn) else (r.1, r.2 ||| dn)
  else (r.1, r.2 ||| dz ||| dn)

/-- QNT (R237). -/
def execQnt (x : Body) (s : State) : Out :=
  roundWord .qnt x s fun i l =>
    let rm := rmOf x.md
    .code x.ty (qnt x.ty rm (satOf x.md) (drawOf s i rm l 0) (srcF s i.v .f32 x.a l 0) (srcEntry s i.v x.b 0 l).toNat
      ((srcEntry s i.v x.b 1 l).toNat % 256))

/-- DQNT (R238). -/
def execDqnt (x : Body) (s : State) : Out :=
  roundWord .dqnt x s fun i l =>
    let f := x.aux.fFmt
    let rm := rmOf x.md
    let c := srcF s i.v f x.a l 0
    let sc := (srcEntry s i.v x.b 0 l).toNat
    let va := if f = .i8 then .ofInt (decodeI .i8 c) else decodeSv f c ((srcEntry s i.v x.b 1 l).toNat % 256)
    let vs := decodeF .f32 sc
    let r := finish [va, vs] (.mul va vs) x.ty rm (satOf x.md) (drawOf s i rm l 0)
    .code x.ty (r.1, r.2 ||| (if f = .i8 then 0 else dnOf f [c]) ||| dnOf .f32 [sc])

/-! ### Special functions (R239, R240) -/

/-- A special function word. -/
def specialWord (o : Op) (x : Body) (s : State) (fn : SpecialFn) : Out :=
  fpWord o x s false fun i l =>
    let c := srcF s i.v .f32 x.a l 0
    let r := special fn c
    .ofCode .f32 (r.1, r.2 ||| dnOf .f32 [c])

/-- RCP (R239, R240). -/
def execRcp (x : Body) (s : State) : Out := specialWord .rcp x s .rcp
/-- RSQ (R239, R240). -/
def execRsq (x : Body) (s : State) : Out := specialWord .rsq x s .rsq
/-- EXP2 (R239, R240). -/
def execExp2 (x : Body) (s : State) : Out := specialWord .exp2 x s .exp2
/-- LOG2 (R239, R240). -/
def execLog2 (x : Body) (s : State) : Out := specialWord .log2 x s .log2
/-- SIN (R239, R240). -/
def execSin (x : Body) (s : State) : Out := specialWord .sin x s .sin
/-- COS (R239, R240). -/
def execCos (x : Body) (s : State) : Out := specialWord .cos x s .cos
/-- TANH (R239, R240). -/
def execTanh (x : Body) (s : State) : Out := specialWord .tanh x s .tanh

/-- SQRT (R239, R240): correctly rounded under RM. -/
def execSqrt (x : Body) (s : State) : Out :=
  roundWord .sqrt x s fun i l =>
    let c := srcF s i.v .f32 x.a l 0
    let r := fsqrt c (rmOf x.md) (drawOf s i (rmOf x.md) l 0)
    .ofCode .f32 (r.1, r.2 ||| dnOf .f32 [c])

/-! ### Running statistics (R241 to R243) -/

/-- One step of R241 to R243 (R220): F32 sources in NaN order, the exact value, further flags; rounded by RN. -/
def statStep (srcs : List Nat) (more : FFlags) (op : List Val → Val) : Nat × FFlags :=
  let vs := srcs.map (decodeF .f32)
  let r := finish vs (op vs) .f32 0 false 0
  (r.1, r.2 ||| dnOf .f32 srcs ||| (if vs.any Val.isNan then 0 else more))

/-- The value of an F32 code. -/
def f32v (c : Nat) : Val := decodeF .f32 c

/-- WUPD on a triple and a sample (R241). -/
def wupd (n mu m2 x : Nat) : List (Nat × FFlags) :=
  let n1 := statStep [n] 0 fun _ => .add false (f32v n) (.ofInt 1)
  let d := statStep [x, mu] 0 fun _ => .add false (f32v x) (f32v mu).neg
  let m1 := statStep [mu, d.1, n1.1] (dzOf (f32v d.1) (f32v n1.1)) fun _ => .add false (f32v mu) (.div (f32v d.1) (f32v n1.1))
  let e := statStep [x, m1.1] 0 fun _ => .add false (f32v x) (f32v m1.1).neg
  let q := statStep [m2, d.1, e.1] 0 fun _ => .add false (f32v m2) (.mul (f32v d.1) (f32v e.1))
  [n1, (m1.1, m1.2 ||| d.2), (q.1, q.2 ||| e.2)]

/-- WMRG of triple B into triple A (R242); a signalling NaN in either sets NV on every branch (R153). -/
def wmrg (nA mA qA nB mB qB : Nat) : List (Nat × FFlags) :=
  let dn := dnOf .f32 [nA, mA, qA, nB, mB, qB] ||| snanFlag (([nA, mA, qA, nB, mB, qB]).map f32v)
  if (f32v nB).isZero then [(nA, dn), (mA, 0), (qA, 0)]
  else if (f32v nA).isZero then [(nB, dn), (mB, 0), (qB, 0)]
  else
    let n := statStep [nA, nB] 0 fun _ => .add false (f32v nA) (f32v nB)
    let d := statStep [mB, mA] 0 fun _ => .add false (f32v mB) (f32v mA).neg
    let p := Val.mul (f32v d.1) (f32v nB)
    let m := statStep [mA, d.1, nB, n.1] (dzOf p (f32v n.1)) fun _ => .add false (f32v mA) (.div p (f32v n.1))
    let r := Val.mul (.mul (.mul (f32v d.1) (f32v d.1)) (f32v nA)) (f32v nB)
    let q := statStep [qA, qB, d.1, nA, nB, n.1] (dzOf r (f32v n.1)) fun _ =>
      .sum false [f32v qA, f32v qB, .div r (f32v n.1)]
    [n, (m.1, m.2 ||| d.2), q]

/-- WFIN of a triple and ε (R243). -/
def wfin (n mu m2 eps : Nat) : List (Nat × FFlags) :=
  let dn := dnOf .f32 [n, mu, m2, eps]
  let first (l : List Nat) : Nat := match firstNan (l.map f32v) with | some v => rnF32 v | none => 0x7FC00000
  if (f32v n).isZero then [(0x7FC00000, fNV ||| dn), (0x7FC00000, fNV)]
  else if [n, mu, m2, eps].any (fun c => (f32v c).isNan) then
    [(first [mu, n, m2, eps], fNV ||| dn), (first [n, m2, eps, mu], fNV)]
  else
    let m : Val := if Val.lt (.zero false) (f32v m2) then f32v m2 else .zero false
    let v := statStep [n, m2, eps] 0 fun _ => .add false (.div m (f32v n)) (f32v eps)
    let r := special .rsq v.1
    [(mu, dn), (r.1, r.2 ||| v.2 ||| dnOf .f32 [v.1])]

/-- The sources of a statistics word: its triples, the triple that WUPD and WMRG write among them (R241, R242). -/
def statNeeds (x : Body) (i : Iss) : List Need :=
  (if i.op = .wfin then [] else needOf (sig i.op x.ty x.md x.aux).d x.d i.ex false) ++ needs i.op x i.ex

/-- A statistics word: its triples are sources under R51. -/
def statWord (o : Op) (x : Body) (s : State) (f : Iss → Nat → List (Nat × FFlags)) : Out :=
  withWave o x s fun i =>
    checked i s (statNeeds x i)
      (retire x i s (laneEff x i false fun l => let r := f i l; .elems .f32 (r.map fun y => BitVec.ofNat 32 y.1) r))

/-- Entry j of an operand as a code. -/
def entryCode (s : State) (i : Iss) (o : Option Opd) (j l : Nat) : Nat := (srcEntry s i.v o j l).toNat

/-- WUPD (R241). -/
def execWupd (x : Body) (s : State) : Out :=
  statWord .wupd x s fun i l =>
    wupd (entryCode s i x.d 0 l) (entryCode s i x.d 1 l) (entryCode s i x.d 2 l) (srcF s i.v .f32 x.a l 0)

/-- WMRG (R242). -/
def execWmrg (x : Body) (s : State) : Out :=
  statWord .wmrg x s fun i l =>
    wmrg (entryCode s i x.d 0 l) (entryCode s i x.d 1 l) (entryCode s i x.d 2 l)
      (entryCode s i x.a 0 l) (entryCode s i x.a 1 l) (entryCode s i x.a 2 l)

/-- WFIN (R243). -/
def execWfin (x : Body) (s : State) : Out :=
  statWord .wfin x s fun i l =>
    wfin (entryCode s i x.a 0 l) (entryCode s i x.a 1 l) (entryCode s i x.a 2 l) (srcF s i.v .f32 x.b l 0)

end Sys2Proof.Machine
end

