-- ==== Sys2Proof/Machine/Entry.lean ====
section
/-! DEFINITION. The commits that words of a wave perform: their steps, gates and waits (R72, R93, R114, R258, R415). -/

namespace Sys2Proof.Machine

/-- A load or store: its sources checked, held back where R72 and R103 say so. -/
def memOp (o : Op) (x : Body) (s : State) (k : Iss → State) : Out :=
  wordOp o x s fun i => if memHeld s i then stallSlot s i.w i.sl else k i

/-- An atomic or reduction: its sources checked, held back where R103 and R267 say so. -/
def atomOp (o : Op) (x : Body) (s : State) (k : Iss → State) : Out :=
  wordOp o x s fun i => if atomHeld s i then stallSlot s i.w i.sl else k i

/-- The commit that the word at this slot's PC has performed and not yet used: a COMMIT.SYS whose last step is done
(R114), or a release whose word waits (R264). -/
def sysDone (s : State) (i : Iss) : Option Nat :=
  (s.sysCommits.find? fun x => x.2.wave = i.w && x.2.slot = i.sl && x.2.pc = i.slot.pc && x.2.finished).map Prod.fst

/-- Notes that the word's release has been performed while its own effect waits. -/
def markDone (s : State) (i : Iss) : State :=
  { s with
    sysCommits := kput s.sysCommits s.nextId ⟨i.w, i.sl, i.slot.pc, i.v.ctx, [], [], [], [], true, true, false, 0, 0⟩
    nextId := s.nextId + 1 }

/-- Step n of the issuing wave's commit: it passes its gates, then enters its level; held, the word waits with the steps
before it entered. -/
def gatedStep (s : State) (i : Iss) (scope n : Nat) (k : State → State) : State :=
  let op (s : State) : CRes := stepAt s i.w i.sl scope n
  match gateAll s i.v.ctx (gridNo s i.v.grid) (i.issuer s) i.v.hash (stepStreams s i.w scope n) with
  | .wait s1 => setEntry (stallSlot s1 i.w i.sl) i.w i.sl (some (n - 1))
  | .pass s1 => match op s with
    | .ok _ => onStep s1 i.w i.sl (lowLane i.ex) n (op s1) k
    | r => onStep s i.w i.sl (lowLane i.ex) n r k

/-- The steps of a commit that the word has not entered yet, in turn. -/
def commitSteps (i : Iss) (scope : Nat) (k : State → State) : List Nat → State → State
  | [], s => k s
  | n :: t, s => gatedStep s i scope n (commitSteps i scope k t)

/-- The streams that a whole commit at a scope enters, step by step. -/
def commitStreams (s : State) (w sl scope : Nat) : List Nat :=
  ((List.range (stepCount scope)).flatMap fun n =>
    match (if n = 0 then CRes.ok s else stepsFrom w sl scope 1 (n - 1) s) with
    | .ok s1 => stepStreams s1 w scope (n + 1)
    | _ => []).eraseDups

/-- A commit whose steps stand or fall together, as the check of R97 has it: it passes every gate, then enters; held, the
word waits with no step entered. -/
def gatedWhole (s : State) (i : Iss) (scope : Nat) (op : State → CRes) (k : State → State) : State :=
  match gateAll s i.v.ctx (gridNo s i.v.grid) (i.issuer s) i.v.hash (commitStreams s i.w i.sl scope) with
  | .wait s1 => setEntry (stallSlot s1 i.w i.sl) i.w i.sl (some 0)
  | .pass s1 => match op s with
    | .ok _ => onEntry s1 i.w i.sl (lowLane i.ex) (op s1) k
    | r => onStep s i.w i.sl (lowLane i.ex) 1 (r.whole s) k

/-- The steps that are left to the issuing word. -/
def stepsLeft (i : Iss) (scope : Nat) : List Nat := ([1, 2, 3].take (stepCount scope)).drop (i.slot.entry.getD 0)

/-- Performs COMMIT at a scope for the issuing wave, then goes on: at SYS the slot first holds until step 3 of R114,
and its word then issues again. An explicit commit that takes WBCAP keeps the steps below the failing one; the release of another
word, which may take it in strict mode, enters as a whole or leaves every level as it was (R77, R96). -/
def performCommit (s : State) (i : Iss) (scope : Nat) (explicit : Bool) (k : State → State) : State :=
  match sysDone s i with
  | some cid => k { s with sysCommits := kdel s.sysCommits cid }
  | none =>
    let done (s1 : State) : State :=
      let s2 := setEntry s1 i.w i.sl none
      if scope = 4 then holdSlot i s2 (.sysCommit (s2.nextId - 1)) else k s2
    if explicit || escalates s i.v.grid then commitSteps i scope done (stepsLeft i scope) s
    else gatedWhole s i scope (fun s => (commitAt s i.w i.sl scope).whole s) done

/-- The entry of a word after its release, if it has one: it passes its gates, then acts. While it waits the release stands
as performed; a fault leaves the word with no effect (R251). -/
def entryAfter (s0 s1 : State) (i : Iss) (rel : Bool) (streams : List Nat) (op : State → CRes) (k : State → State) : State :=
  let keep (s : State) : State := if rel then markDone s i else s
  match op s1 with
  | .ok _ => match gateAll s1 i.v.ctx (gridNo s1 i.v.grid) (i.issuer s1) i.v.hash streams with
    | .wait s2 => stallSlot (keep s2) i.w i.sl
    | .pass s2 => onEntry (keep s1) i.w i.sl (lowLane i.ex) (op s2) k
  | .fault _ code => takeT s0 i.w i.sl code i.real 0 0
  | r => onEntry (keep s1) i.w i.sl (lowLane i.ex) (r.whole (keep s1)) k

/-- A word is done with no register effect: the PC moves on and the watch units see it. -/
def wordEnd (x : Body) (i : Iss) (s0 s : State) (k : Seen → Seen) : State :=
  countGangHalt (watchWord i (advance i s) (k (seenOf x i s0))) i

/-- A word that has created a producer is done: the producer keeps what the word showed at issue (R397). -/
def prodEnd (x : Body) (i : Iss) (s0 s : State) (k : Seen → Seen) : State :=
  let s1 := { s with prods := kmap s.prods fun p q => if s0.nextId ≤ p && q.wave = i.w then { q with shown := k (seenOf x i s0) } else q }
  wordEnd x i s0 s1 k

end Sys2Proof.Machine
end

