-- ==== Sys2Proof/Machine/Images.lean ====
section
/-! DEFINITION. The save image of a gang (R339, R340, R342 to R344): its place in the context's save pool, its bytes as a save
writes them and as a restore reads them, and the beginning of an eviction. What an image holds in a layout that the manual
leaves open stays in the gang's own records (log 9). -/

namespace Sys2Proof.Machine

/-! ### Sizes and offsets (R342, R343) -/

/-- WS: the size of a wave section. -/
def waveSecSize (d : Desc) : Nat := 28672 + 4096 * d.mbanks
/-- Waves of a block (R17). -/
def Desc.waves (d : Desc) : Nat := (d.bx * d.byy * d.bz + 63) / 64
/-- BS: the size of a block section. -/
def blockSecSize (d : Desc) : Nat :=
  233472 + 4096 * d.tiles + 16384 * d.obk + 256 * d.scratch + 4096 + d.waves * waveSecSize d
/-- The size of the image of a gang of n blocks. -/
def imageSize (d : Desc) (n : Nat) : Nat := 4096 + 6291456 + n * blockSecSize d
/-- Where the wave sections begin in a block section. -/
def waveSecAt (d : Desc) (idx : Nat) : Nat :=
  233472 + 4096 * d.tiles + 16384 * d.obk + 256 * d.scratch + 4096 + idx * waveSecSize d

/-! ### Places in the save pool (R356) -/

/-- The first 4 KiB-aligned place for n bytes past every image that overlaps it. -/
def firstGap (used : List (Nat × Nat)) (n : Nat) : Nat → Nat → Nat
  | 0, a => a
  | k + 1, a => match used.find? fun u => a < u.1 + u.2 && u.1 < a + n with
    | some u => firstGap used n k ((u.1 + u.2 + 4095) / 4096 * 4096)
    | none => a

/-- A place for an image of n bytes in a context's gang-image region, if the pool has room. -/
def poolPlace (x : Ctx) (n : Nat) : Option Nat :=
  let lo := x.poolBase + 327680
  let a := firstGap x.poolUsed n (x.poolUsed.length + 1) lo
  if a + n ≤ x.poolBase + 65536 * x.poolLen && !(x.poolUsed.any fun u => a < u.1 + u.2 && u.1 < a + n) then some a else none

/-- The size of a gang's image. -/
def gangImageSize (s : State) (g : Gang) : Nat :=
  match descOf s g.grid with | some d => imageSize d g.blocks.length | none => 0

/-- The context's save pool has room for the gang's image, or holds it already (R337). -/
def imageRoom (s : State) (g : Gang) : Bool :=
  g.image.isSome || (match s.ctx? g.ctx with | some x => (poolPlace x (gangImageSize s g)).isSome | none => false)

/-! ### Bytes -/

/-- Byte i of a number. -/
def byteOf (v i : Nat) : Byte := BitVec.ofNat 8 (v / 256 ^ i)

/-- The lines of a buffer or pool, ascending. -/
def linesOf (m : KMap Byte) : List Nat := (m.map fun x => x.1 / 64).eraseDups

/-- The 32-byte tag of a line (R343). -/
def tagByte (m : KMap Byte) (scratch : Bool) (line i : Nat) : Byte :=
  if i < 9 then byteOf line i
  else if i = 9 then (if scratch then 1 else 0)
  else if 16 ≤ i && i < 24 then
    BitVec.ofNat 8 ((List.range 8).foldl (fun n k => if (kget m (64 * line + 8 * (i - 16) + k)).isSome then n + 2 ^ k else n) 0)
  else 0

/-- Data byte i of the n-th line of a table (0 past the last line). -/
def lineData (m : KMap Byte) (n i : Nat) : Byte :=
  match (linesOf m)[n]? with | some l => kgetD m (64 * l + i) 0 | none => 0
/-- Tag byte i of the n-th line (0 past the last line). -/
def lineTag (m : KMap Byte) (n i : Nat) : Byte :=
  match (linesOf m)[n]? with | some l => tagByte m false l i | none => 0

/-- A byte of the wave buffer's section: 128 lines of a tag and 64 data bytes, device lines first (R343). -/
def bufByte (v : Wave) (off : Nat) : Byte :=
  let n := off / 96
  let i := off % 96
  let dev := (linesOf v.bufD).length
  let m := if n < dev then v.bufD else v.bufS
  match (if n < dev then (linesOf v.bufD)[n]? else (linesOf v.bufS)[n - dev]?) with
  | none => 0
  | some l => if i < 32 then tagByte m (dev ≤ n) l i else kgetD m (64 * l + (i - 32)) 0

/-- WAIT: the slots that wait at a seam. -/
def waitBits (v : Wave) : Nat :=
  [0, 1].foldl (fun n sl => if (v.slot sl).live && (match (v.slot sl).hold with | .seam _ => true | _ => false) then n + 2 ^ sl else n) 0

/-- A byte of a wave section (R343). -/
def waveSecByte (s : State) (v : Wave) (off : Nat) : Byte :=
  if off < 12288 then kgetD (frameBytes v ⟨0, false, false, 0, 0, 0, v.slot0.pc, 0, 0, [], 0⟩) off 0
  else if off < 12544 then
    let o := off - 12288
    if o < 8 then byteOf v.rng.toNat o
    else if o < 18 then byteOf (v.path ((o - 8) / 2)) ((o - 8) % 2)
    else if 24 ≤ o && o < 33 then byteOf (dspOf s v) (o - 24)
    else if o = 33 then BitVec.ofNat 8 (waitBits v)
    else if 40 ≤ o && o < 48 then byteOf v.hash.toNat (o - 40)
    else if 48 ≤ o && o < 52 then byteOf v.priv (o - 48)
    else if 52 ≤ o && o < 56 then byteOf (v.tickCap.toNat / 2 ^ 32) (o - 52)
    else 0
  else if off < 13056 then byteOf (v.cell (552 + (off - 12544) / 4) 0).val.toNat (off % 4)
  else if off < 16384 then 0
  else if off < 28672 then bufByte v (off - 16384)
  else
    let o := off - 28672
    byteOf (v.cell (40 + o / 256) (o % 256 / 4)).val.toNat (o % 4)

/-- A block barrier word (R346) and an arrival word (R347). -/
def barBits (b : BarWord) : Nat := b.mask.toNat + 2 ^ 17 * b.arrived.toNat + 2 ^ 34 * b.pending.toNat + 2 ^ 51 * b.phase.toNat
def arrBits (a : ArrWord) : Nat := a.waves.toNat + 2 ^ 16 * a.bmask.toNat + 2 ^ 51 * a.phase.toNat

/-- A byte of the barrier area (R345). -/
def barAreaByte (b : Block) (off : Nat) : Byte :=
  if off < 128 then (match b.bars.toList[off / 8]? with | some w => byteOf (barBits w) (off % 8) | none => 0)
  else if off < 136 then byteOf (arrBits b.gbar) (off % 8)
  else if off < 144 then byteOf (arrBits b.xbar) (off % 8)
  else 0

/-- The 64-bit record of an operand-buffer handle (R281). -/
def resvBits (r : Resv) : Nat :=
  (fmtCode r.fmt).toNat + 2 ^ 4 * (r.blk % 4) + 2 ^ 7 * (if r.live then 1 else 0) + 2 ^ 16 * (r.base % 2 ^ 16) + 2 ^ 32 * (r.len % 2 ^ 16) +
  2 ^ 48 * (r.soff % 2 ^ 16)

/-- The offset of the handles' records in a block header (log 9). -/
def recordsAt : Nat := 8 * (Config.recordsAt % 481)

/-- A byte of the block header: the records of O0 to O31 (R281); the rest of its layout is not fixed: free values. -/
def blockHeadByte (s : State) (b : Block) (off : Nat) : Byte :=
  if recordsAt ≤ off && off < recordsAt + 256 then
    (match b.handles.toList[(off - recordsAt) / 8]? with | some r => byteOf (resvBits r) (off % 8) | none => 0)
  else (Config.freeValue (s.free + off / 8)).extractLsb' (8 * (off % 8)) 8

/-- Where the operand area and the scratchpad lie in a block section (R343). -/
def obufAt (d : Desc) : Nat := 233472 + 4096 * d.tiles
def scratchAt (d : Desc) : Nat := obufAt d + 16384 * d.obk
def barAt (d : Desc) : Nat := scratchAt d + 256 * d.scratch

/-- A byte of a block section before its wave sections (R343). -/
def blockSecByte (s : State) (d : Desc) (b : Block) (off : Nat) : Byte :=
  if off < 4096 then blockHeadByte s b off
  else if off < 135168 then lineData b.pool ((off - 4096) / 64) (off % 64)
  else if off < 200704 then lineTag b.pool ((off - 135168) / 32) (off % 32)
  else if off < 217088 then
    (match b.saved[(off - 200704) / 64]? with
     | some l => (match kgetD b.pre l [] with | y :: _ => (y.2[off % 64]?).getD 0 | [] => 0)
     | none => 0)
  else if off < 233472 then 0
  else if off < obufAt d then
    let o := off - 233472
    byteOf (((kget b.tiles (o / 4096)).map fun (t : Tile) => kgetD t.elems (o % 4096 / 4) 0).getD 0).toNat (o % 4)
  else if off < scratchAt d then kgetD b.obuf (off - obufAt d) 0
  else if off < barAt d then scratchByte b (off - scratchAt d)
  else barAreaByte b (off - barAt d)

/-- A tree field in the gang header (R352): GMASK, GARR and PHASE (log 9). -/
def treeBits (f : TreeFld) : Nat := f.gmask.toNat + 2 ^ 8 * f.garr.toNat + 2 ^ 16 * f.phase.toNat

/-- A byte of the gang header but COMPLETE (R344, R352). -/
def gangHeadByte (g : Gang) (now : DWord) (off : Nat) : Byte :=
  if off < 8 then byteOf g.firstTick.toNat off
  else if off < 16 then byteOf g.saveStart.toNat (off - 8)
  else if off < 24 then byteOf now.toNat (off - 16)
  else if off < 28 then byteOf g.idx (off - 24)
  else if off = 28 then BitVec.ofNat 8 g.blocks.length
  else if 32 ≤ off && off < 40 then byteOf (treeBits g.gb) (off - 32)
  else if 40 ≤ off && off < 48 then byteOf (treeBits g.xb) (off - 40)
  else 0

/-- Writes n bytes of a section at an address of the save pool. -/
def writeSection (s : State) (c a n : Nat) (f : Nat → Byte) : State :=
  devEntry s c none ((List.range n).map fun i => (a + i, f i))

/-- The unit of storage in which offset i of a section lies is dirty: no restore has written it, or it is not as the latest
restore left it (R340). -/
def unitDirty (kept : Option (KMap Byte)) (unit : Nat) (f : Nat → Byte) (i : Nat) : Bool :=
  match kept with
  | none => true
  | some k => (List.range unit).any fun j => f (i / unit * unit + j) ≠ kgetD k (i / unit * unit + j) 0

/-- Writes n bytes of a section: what is always written, and of the rest the dirty units (R340, R343). -/
def writeDirty (s : State) (c a n unit : Nat) (always : Nat → Bool) (kept : Option (KMap Byte)) (f : Nat → Byte) : State :=
  devEntry s c none ((List.range n).filterMap fun i => if always i || unitDirty kept unit f i then some (a + i, f i) else none)

/-- Where a block's section lies: block k of the gang in GBLK order. -/
def blockAt (s : State) (g : Gang) (bk : Nat) : Option Nat :=
  match g.image, descOf s g.grid with
  | some a, some d => some (a + 6295552 + (g.blocks.takeWhile (· ≠ bk)).length * blockSecSize d)
  | _, _ => none

/-- Writes a wave's section: its M banks where they are dirty (R340, R343). -/
def writeWave (s : State) (g : Gang) (v : Wave) : State :=
  match blockAt s g v.blk, descOf s g.grid with
  | some a, some d => writeDirty s g.ctx (a + waveSecAt d v.idx) (waveSecSize d) 4096 (fun i => i < 28672) v.kept (waveSecByte s v)
  | _, _ => s

/-- A wave's private slot goes into the memory where it lies, from which its restore reads it (R64). -/
def writePriv (s : State) (v : Wave) : State :=
  match v.privPa with
  | some a => writeSection s v.ctx a privSize fun i => kgetD v.frame i 0
  | none => s

/-- What every save writes of a block's section: header, tiles and operand area (R343). -/
def blockAlways (d : Desc) (i : Nat) : Bool := i < 4096 || (233472 ≤ i && i < scratchAt d)

/-- Writes a block's section but for its waves': pools, pre-image store, scratchpad and barrier area where they are dirty
(R340, R343). -/
def writeBlock (s : State) (g : Gang) (bk : Nat) (b : Block) : State :=
  match blockAt s g bk, descOf s g.grid with
  | some a, some d => { writeDirty s g.ctx a (waveSecAt d 0) 256 (blockAlways d) b.kept (blockSecByte s d b) with free := s.free + 512 }
  | _, _ => s

/-- COMPLETE of an image (R344). -/
def writeComplete (s : State) (g : Gang) (v : Byte) : State :=
  match g.image with | some a => devEntry s g.ctx none [(a + 4095, v)] | none => s

/-- A byte of the gang pool's data or tags, by its offset in the image. -/
def gangPoolByte (g : Gang) (off : Nat) : Byte :=
  if off < 4096 then 0
  else if off < 4198400 then lineData g.pool ((off - 4096) / 64) (off % 64)
  else lineTag g.pool ((off - 4198400) / 32) (off % 32)

/-- Writes the dirty lines of the gang pool and its tags, the header, then COMPLETE last (R335, R340, R344). -/
def writeGang (s : State) (g : Gang) : State :=
  match g.image with
  | none => s
  | some a =>
    let s1 := writeDirty s g.ctx (a + 4096) 6291456 256 (fun _ => false) g.kept fun i => gangPoolByte g (i + 4096)
    writeComplete (writeSection s1 g.ctx a 4095 (gangHeadByte g s.tick)) g 1

/-! ### What a restore reads (R339) -/

/-- What a section holds, by offset; zero bytes are left out. -/
def sectionOf (s : State) (c a n : Nat) : KMap Byte :=
  (List.range n).filterMap fun i => let b := devByte s c (a + i); if b = 0 then none else some (i, b)

/-- COMPLETE of a gang's image is not 0x00 (R344). -/
def imageWhole (s : State) (g : Gang) : Bool :=
  match g.image with | some a => devByte s g.ctx (a + 4095) ≠ 0 | none => false

/-- The bytes of one line of a pool or buffer under its tag, put into a table (R343). -/
def readLine (f : KMap Byte) (tag data : Nat) (m : KMap Byte) : KMap Byte :=
  let line := frameNat f tag 9
  let mask := frameNat f (tag + 16) 8
  (List.range 64).foldl (fun m j => if mask.testBit j then kput m (64 * line + j) (kgetD f (data + j) 0) else m) m

/-- A pool of n lines, its data and its tags at two offsets of a section. -/
def readPool (f : KMap Byte) (data tags n : Nat) : KMap Byte :=
  (List.range n).foldl (fun m k => readLine f (tags + 32 * k) (data + 64 * k) m) []

/-- The wave buffer of a wave section: device bytes and scratchpad bytes (R343). -/
def readBuf (f : KMap Byte) (scratch : Bool) : KMap Byte :=
  (List.range 128).foldl (fun m k =>
    let a := 16384 + 96 * k
    if (frameNat f (a + 9) 1 ≠ 0) = scratch then readLine f a (a + 32) m else m) []

/-- The state of an H or N entry in a wave section: EMPTY keeps the producer that the record names (R54, R56, R343). -/
def readState (f : KMap Byte) (v : Wave) (e l : Nat) : CellSt :=
  match frameCode { v with frame := f } e l with
  | 0 => .full
  | 1 => match (v.cell e l).st with | .empty p => .empty p | _ => .lost
  | _ => .lost

/-- The entries of a wave section: H and N with their states, M banks, W. -/
def readEnts (d : Desc) (f : KMap Byte) (v : Wave) : KMap Cell :=
  let word (a : Nat) : Word := BitVec.ofNat 32 (frameNat f a 4)
  let hn := (List.range 40).flatMap fun e => (List.range 64).filterMap fun l =>
    let c : Cell := ⟨word (0x400 + 256 * e + 4 * l), readState f v e l⟩
    if c = ⟨0, .lost⟩ then none else some (64 * e + l, c)
  let m := (List.range (16 * d.mbanks)).flatMap fun e => (List.range 64).filterMap fun l =>
    let c : Cell := ⟨word (28672 + 256 * e + 4 * l), (v.cell (40 + e) l).st⟩
    if c = ⟨0, .full⟩ then none else some (64 * (40 + e) + l, c)
  let w := (List.range 128).filterMap fun i =>
    let c : Cell := ⟨word (12544 + 4 * i), (v.cell (552 + i) 0).st⟩
    if c = ⟨0, .full⟩ then none else some (64 * (552 + i), c)
  hn ++ m ++ w

/-- A slot of a wave section: PC, mask, LIVE, HELD and WAIT (R296, R343); what it waits for is the seam's own. -/
def readSlot (f : KMap Byte) (x : Slot) (sl : Nat) : Slot :=
  let b := frameNat f (0x28 + sl) 1
  let wait := (frameNat f 12321 1).testBit sl
  if b % 2 = 0 then .free else
  { x with
    live := true, pc := BitVec.ofNat 32 (frameNat f (0x10 + 4 * sl) 4), mask := BitVec.ofNat 64 (frameNat f (0x18 + 8 * sl) 8)
    hold := if b / 2 % 2 = 1 then .join else match x.hold, wait with
      | .seam c, true => .seam c
      | .seam _, false => .none
      | .join, _ => .none
      | _, true => .seam .ready
      | h, false => h }

/-- A wave as its section of the image holds it (R339, R343). -/
def readWave (d : Desc) (f : KMap Byte) (v : Wave) : Wave :=
  { frameRegs f v with
    slot0 := readSlot f v.slot0 0, slot1 := readSlot f v.slot1 1
    stack := stkOf v.frame (frameNat f 3 1)
    ents := readEnts d f v
    rng := BitVec.ofNat 64 (frameNat f 12288 8)
    paths := Vector.ofFn fun i => frameNat f (12296 + 2 * i.val) 2
    hash := BitVec.ofNat 64 (frameNat f 12328 8)
    priv := frameNat f 12336 4
    tickCap := BitVec.ofNat 64 (2 ^ 32 * frameNat f 12340 4 + v.tickCap.toNat % 2 ^ 32)
    bufD := readBuf f false, bufS := readBuf f true, kept := some f }

/-- A barrier word and an arrival word of the barrier area (R346, R347). -/
def readBar (n : Nat) : BarWord :=
  ⟨BitVec.ofNat 13 (n / 2 ^ 51), BitVec.ofNat 17 (n / 2 ^ 34), BitVec.ofNat 17 (n / 2 ^ 17), BitVec.ofNat 17 n⟩
def readArr (n : Nat) : ArrWord := ⟨BitVec.ofNat 13 (n / 2 ^ 51), BitVec.ofNat 8 (n / 2 ^ 16), BitVec.ofNat 16 n⟩

/-- The record of a handle (R281). -/
def readResv (n : Nat) : Resv :=
  ⟨n / 2 ^ 48 % 2 ^ 16, n / 2 ^ 32 % 2 ^ 16, n / 2 ^ 16 % 2 ^ 16, n.testBit 7, n / 2 ^ 4 % 4, (fmtOf (BitVec.ofNat 4 n)).getD .u32⟩

/-- The bytes of a range of a section, by their place in the range; zero bytes are left out. -/
def readBytes (f : KMap Byte) (a n : Nat) : KMap Byte :=
  (List.range n).filterMap fun i => let b := kgetD f (a + i) 0; if b = 0 then none else some (i, b)

/-- The elements of a tile. -/
def readTile (f : KMap Byte) (t : Nat) (x : Tile) : Tile :=
  { x with elems := (List.range 1024).filterMap fun i =>
      let w : Word := BitVec.ofNat 32 (frameNat f (233472 + 4096 * t + 4 * i) 4)
      if w = 0 then none else some (i, w) }

/-- The lines of the pre-image store: line k of the list that counts in it (R130). -/
def readPre (f : KMap Byte) (b : Block) : KMap (List (Nat × List Byte)) :=
  b.saved.zipIdx.foldl (fun m y => kmod m y.1 fun l => match l with
    | [] => []
    | z :: t => (z.1, (List.range 64).map fun j => kgetD f (200704 + 64 * y.2 + j) 0) :: t) b.pre

/-- A block as its section of the image holds it (R339, R343, R345); the rest of its header stays in its record (log 9). -/
def readBlock (d : Desc) (f : KMap Byte) (b : Block) : Block :=
  { b with
    pool := readPool f 4096 135168 2048, pre := readPre f b
    tiles := kmap b.tiles (readTile f), obuf := readBytes f (obufAt d) (16384 * d.obk)
    scratch := readBytes f (scratchAt d) (256 * d.scratch)
    bars := Vector.ofFn fun i => readBar (frameNat f (barAt d + 8 * i.val) 8)
    gbar := readArr (frameNat f (barAt d + 128) 8), xbar := readArr (frameNat f (barAt d + 136) 8)
    handles := Vector.ofFn fun i => readResv (frameNat f (recordsAt + 8 * i.val) 8)
    kept := some f }

/-- A tree field of the gang header (log 9). -/
def readTree (n : Nat) : TreeFld := ⟨BitVec.ofNat 8 n, BitVec.ofNat 8 (n / 2 ^ 8), BitVec.ofNat 13 (n / 2 ^ 16)⟩

/-- A gang as its image holds it: pool, tree fields, first placement tick (R339, R344, R352). -/
def readGang (f : KMap Byte) (g : Gang) : Gang :=
  { g with
    pool := readPool f 4096 4198400 65536
    firstTick := BitVec.ofNat 64 (frameNat f 0 8), gb := readTree (frameNat f 32 8), xb := readTree (frameNat f 40 8)
    kept := some (f.filterMap fun y => if 4096 ≤ y.1 then some (y.1 - 4096, y.2) else none) }

/-! ### What reaches an image while its gang is saved (R56, R127, R252, R336, R352) -/

/-- The bytes of a section that differ between two contents, with their addresses. -/
def sectionDiff (a n : Nat) (f g : Nat → Byte) : List (Nat × Byte) :=
  (List.range n).filterMap fun i => if f i = g i then none else some (a + i, g i)

/-- What a step has changed in the record of a SAVED wave goes into its image, and of its trap frame into its private slot. -/
def syncWave (s0 : State) (s : State) (w : Nat) : State :=
  match s0.wave? w, s.wave? w with
  | some u, some v =>
    if u.st ≠ .saved || v.st ≠ .saved || u = v then s else
    let s := match (if u.frame = v.frame then none else v.privPa) with
      | some a => devEntry s v.ctx none (sectionDiff a privSize (fun i => kgetD u.frame i 0) fun i => kgetD v.frame i 0)
      | none => s
    match (s.gang? v.gang).bind fun g => (blockAt s g v.blk).map fun a => (g, a), descOf s v.grid with
    | some y, some d =>
      devEntry s y.1.ctx none (sectionDiff (y.2 + waveSecAt d v.idx) (waveSecSize d) (waveSecByte s u) (waveSecByte s v))
    | _, _ => s
  | _, _ => s

/-- What a step has changed in the record of a SAVED block goes into its image. -/
def syncBlock (s0 : State) (s : State) (bk : Nat) : State :=
  match s0.block? bk, s.block? bk with
  | some a, some b =>
    if a.st ≠ .saved || b.st ≠ .saved || a = b then s else
    match (s.gang? b.gang).bind fun g => (blockAt s g bk).map fun x => (g, x), descOf s b.grid with
    | some y, some d => devEntry s y.1.ctx none (sectionDiff y.2 (waveSecAt d 0) (blockSecByte s d a) (blockSecByte s d b))
    | _, _ => s
  | _, _ => s

/-- What a step has changed in the header of a SAVED gang goes into its image: the tree fields (R352). -/
def syncGang (s0 : State) (s : State) (gk : Nat) : State :=
  match s0.gang? gk, s.gang? gk with
  | some g, some h =>
    if g.st ≠ .saved || h.st ≠ .saved || g = h then s else
    match h.image with
    | some a => devEntry s h.ctx none (sectionDiff a 4095 (gangHeadByte g s.tick) (gangHeadByte h s.tick))
    | none => s
  | _, _ => s

/-- Data, arrivals, courier lines and barrier phases that reach what is saved complete into the images. -/
def syncImages (s0 s : State) : State :=
  (kfind s0.gangs fun _ g => g.st = .saved).foldl (syncGang s0) <| (kfind s0.blocks fun _ b => b.st = .saved).foldl (syncBlock s0) ((kfind s0.waves fun _ v => v.st = .saved).foldl (syncWave s0) s)

/-! ### An eviction begins (R335, R336) -/

/-- A context's pool once the images of some gangs of a kernel have found their places in it, if they all do (R337,
R356). -/
def poolWith (s : State) (x : Ctx) : List Nat → Option Ctx
  | [] => some x
  | k :: t => match s.gang? k with
    | none => poolWith s x t
    | some g =>
      if g.image.isSome || g.st ≠ .resident then poolWith s x t else
      (poolPlace x (gangImageSize s g)).bind fun a => poolWith s { x with poolUsed := x.poolUsed ++ [(a, gangImageSize s g)] } t

/-- Begins the save of a resident gang: its image takes its place in the pool, with COMPLETE 0. -/
def beginSave (s : State) (gk : Nat) : State :=
  match s.gang? gk with
  | none => s
  | some g =>
    if g.st ≠ .resident || !imageRoom s g then s else
    let a := match g.image, s.ctx? g.ctx with
      | some a, _ => a
      | none, some x => (poolPlace x (gangImageSize s g)).getD 0
      | none, none => 0
    let s1 := if g.image.isSome then s else s.modCtx g.ctx fun x => { x with poolUsed := x.poolUsed ++ [(a, gangImageSize s g)] }
    let g1 : Gang := { g with st := .evicting, saveStart := s.tick, evictTicks := 0, image := some a }
    writeComplete (s1.modGang gk fun _ => g1) g1 0

/-- A grid that moves as one gang (R327). -/
def gridSync (s : State) (gr : Nat) : Bool := match s.grid? gr with | some r => r.sync | none => false

/-- The gangs that move together with a gang: its own grid's under GRIDSYNC (R327, R335). -/
def movesWith (s : State) (gk : Nat) (g : Gang) : List Nat :=
  if gridSync s g.grid then (match s.grid? g.grid with | some r => r.gangs | none => [gk]) else [gk]

/-- The save pool has room for everything that moves with a gang (R337, R356). -/
def imagesRoom (s : State) (gk : Nat) (g : Gang) : Bool :=
  match s.ctx? g.ctx with | some x => (poolWith s x (movesWith s gk g)).isSome | none => false

/-- Starts the eviction of a resident gang, and of its whole grid under GRIDSYNC (R327, R335). -/
def startEvict (s : State) (gk : Nat) : State :=
  match s.gang? gk with
  | none => s
  | some g => if imagesRoom s gk g then (movesWith s gk g).foldl beginSave s else s

/-! ### Reservations (R325, R326) -/

/-- Inserts a gang index into a pending list, which stays ascending (R325, R326). -/
def pendInsert (i : Nat) : List Nat → List Nat
  | [] => [i]
  | j :: t => if i < j then i :: j :: t else if i = j then j :: t else j :: pendInsert i t

/-- Cancels a gang's reservation: the gang returns to its kernel's pending list (R326). -/
def cancelReserved (s : State) (gk : Nat) : State :=
  match s.gang? gk with
  | none => s
  | some g =>
    if g.st ≠ .pending then s else
    { s with gangs := kdel s.gangs gk }.modGrid g.grid fun r => { r with pending := pendInsert g.idx r.pending }

/-- A gang's blocks that wait for the rest of their grid are SAVED again, or the reverse (R334). -/
def blocksTo (s : State) (gk : Nat) (a b : BlockSt) : State :=
  { s with blocks := kmap s.blocks fun _ x => if x.gang = gk && x.st = a then { x with st := b } else x }

/-- Gives up what a gang has reserved: one not yet committed returns to its pending list, a restore that is not complete to
SAVED, a castling loses its target (R326, R341). -/
def dropReserved (s : State) (gk : Nat) : State :=
  match s.gang? gk with
  | none => s
  | some g =>
    if g.st = .pending then cancelReserved s gk
    else if g.st = .restoring then (blocksTo s gk .restoring .saved).modGang gk fun g => { g with castle := none, st := .saved }
    else s.modGang gk fun g => { g with castle := none }

/-- A gang has reserved its place on a cluster. -/
def reservedOn (c : Nat) (g : Gang) : Bool := match g.castle with | some pl => 16 * pl.die + pl.cl = c | none => false

/-- Cancels the reservations that lie on a cluster (R341, R436). -/
def cancelOn (s : State) (c : Nat) : State := (kfind s.gangs fun _ g => reservedOn c g).foldl dropReserved s

end Sys2Proof.Machine
end

