-- ==== Sys2Proof/Machine/Regs.lean ====
section
/-! DEFINITION. The registers of the I/O windows: a cluster's power block with its handshake (R424, R433 to R441), the
module registers (R401, R408, R452), the ports (R389, R395), the management slots (R448, R449) and the endpoint
(R451). -/

namespace Sys2Proof.Machine

/-! ### A cluster's state (R425, R435, R436) -/

/-- The bench clock of a cluster runs (R402, R425, R428). -/
def clockRuns (s : State) (c : Nat) : Bool :=
  let x := s.cluster c
  !(x.gate || x.mvNow < 500 || s.mods.stopped || s.mods.railsOff)

/-- The bench clock of a cluster in MHz; 0 while it is stopped (R425, R428). A lowered target lowers the clock at once. -/
def clFreq (s : State) (c : Nat) : Nat :=
  let x := s.cluster c
  if !clockRuns s c then 0
  else if x.hold then 2400 else min 4400 (Config.calFmax c (if x.off then x.mvNow else min x.mvNow x.mv))

/-- CURREC (R431). -/
def curRec (s : State) (c : Nat) : Nat := ((s.cluster c).charges.take 256).sum

/-- The other cluster of the pair (R433, R441). -/
def buddyOf (c : Nat) : Nat := if c % 2 = 0 then c + 1 else c - 1

/-- A gang resident on a cluster, or being moved onto or off it. -/
def gangOn (s : State) (c : Nat) : List Nat :=
  kfind s.gangs fun _ g => 16 * g.die + g.cl = c && (g.st = .resident || g.st = .evicting || g.st = .restoring)

/-- A temperature register (R427). -/
def tempWord (t : Option (BitVec 16)) : Nat := match t with | some x => 2 ^ 31 + x.toNat | none => 0

def bitNat (b : Bool) (i : Nat) : Nat := if b then 2 ^ i else 0

/-- A register of a cluster's power block (R434, R435). -/
def powerReg (s : State) (c off : Nat) : Nat :=
  let x := s.cluster c
  match off with
  | 0x00 => bitNat x.qreq 0
  | 0x04 => bitNat x.qack 0
  | 0x08 => bitNat x.retValid 8 + bitNat x.cold 6 + bitNat x.buddy 5 + bitNat x.order 4 + x.st % 16
  | 0x0C => bitNat x.rsDone 1
  | 0x10 => bitNat x.rlDone 1 + bitNat x.rlBusy 0
  | 0x14 => bitNat x.gate 0
  | 0x18 => bitNat x.off 16 + x.mv % 1024
  | 0x1C => bitNat x.refused 18 + bitNat x.settled 17 + bitNat x.offNow 16 + x.mvNow % 1024
  | 0x24 => x.budget.toNat
  | 0x28 => curRec s c % 2 ^ 32
  | 0x2C => tempWord x.temp
  | 0x30 => clFreq s c
  | 0x38 => x.energy.toNat
  | _ => 0

/-! ### The handshake (R436, R439, R440) -/

def orderBit (s : State) (c : Nat) : State := s.modCluster c fun x => { x with order := true }

/-- A handshake write, as its register's offset and value, that arrives during a save waits for the save's end (R440). -/
def afterSave (s : State) (c off v : Nat) (f : State → State) : State :=
  if (s.cluster c).saving then s.modCluster c fun x => { x with heldOps := x.heldOps ++ [(off, v)] } else f s

/-- Back to RUN (R436): the request, the acknowledgement and any retention copy are gone. -/
def toRun (s : State) (c : Nat) : State :=
  s.modCluster c fun x => { x with st := 0, qreq := false, qack := false, retValid := false, rsDone := false, gate := false, rlBusy := false }

/-- QREQ := 1 (R436). -/
def clqreqSet (s : State) (c : Nat) : State := afterSave s c 0x00 1 fun s =>
  if (s.cluster c).st ≠ 0 then orderBit s c
  else if (s.cluster (buddyOf c)).st ≠ 0 then s.modCluster c fun x => { x with buddy := true }
  else (gangOn s c).foldl startEvict (cancelOn (s.modCluster c fun x => { x with st := 1, qreq := true }) c)

/-- QREQ := 0 (R436). -/
def clqreqClear (s : State) (c : Nat) : State := afterSave s c 0x00 0 fun s =>
  let st := (s.cluster c).st
  if st = 1 || st = 2 || st = 3 then toRun s c else orderBit s c

/-- RETSAVE.GO (R436): the save begins (R440). -/
def retsaveGo (s : State) (c : Nat) : State := afterSave s c 0x0C 1 fun s =>
  if (s.cluster c).st = 2 then s.modCluster c fun x => { x with saving := true, busyAt := s.tick } else orderBit s c

/-- GATE := 1 (R436). -/
def clkgateSet (s : State) (c : Nat) : State := afterSave s c 0x14 1 fun s =>
  if (s.cluster c).st = 3 then s.modCluster c fun x => { x with st := 4, gate := true } else orderBit s c

/-- GATE := 0 (R436). -/
def clkgateClear (s : State) (c : Nat) : State := afterSave s c 0x14 0 fun s =>
  if (s.cluster c).st = 4 then s.modCluster c fun x => { x with st := 3, gate := false } else orderBit s c

/-- A target that the rail takes (R424). -/
def mvOk (mv : Nat) : Bool := 500 ≤ mv && mv ≤ 900 && mv % 10 = 0

/-- The rail is settled (R435). -/
def railSettled (off : Bool) (mv now : Nat) : Bool := if off then now < 100 else mv ≤ now + 10 && now ≤ mv + 10

/-- A rail at rest begins to move at this tick (R425). -/
def startSlew (s : State) (x : Cluster) : Cluster :=
  if x.mvNow = (if x.off then 0 else x.mv) then { x with slewAt := s.tick } else x

/-- LRAIL.OFF := 1 with a target (R436): a target outside R424 is refused as such in every state, and sets no ORDER (R439). -/
def lrailOff (s : State) (c mv : Nat) : State := afterSave s c 0x18 (2 ^ 16 + mv) fun s =>
  if !mvOk mv then s.modCluster c fun x => { x with refused := true }
  else if (s.cluster c).st ≠ 4 then orderBit s c
  else s.modCluster c fun x => { startSlew s x with st := 5, off := true, mv := mv, settled := railSettled true mv x.mvNow }

/-- A write of LRAIL that changes only MV (R424, R439). -/
def lrailMv (s : State) (c mv : Nat) : State :=
  if !mvOk mv then s.modCluster c fun x => { x with refused := true }
  else s.modCluster c fun x => { startSlew s x with mv := mv, settled := railSettled x.off mv x.mvNow }

/-- The watch units of a cluster's cores are as given. -/
def setWatch (s : State) (c : Nat) (l : KMap WatchUnit) : State :=
  { s with watch := l.foldl (fun m u => kput m u.1 u.2) (s.watch.filter fun u => u.1 / 128 ≠ c) }

/-- The rail of a WAKING cluster is settled (R436, R440): the retention load starts, or the cluster is RUN with its flip-flops
at reset and COLD. -/
def railArrived (s : State) (c : Nat) : State :=
  let x := s.cluster c
  if x.st ≠ 6 || x.rlBusy || !railSettled false x.mv x.mvNow then s
  else if x.retValid then s.modCluster c fun x => { x with rlBusy := true, rlDone := false, settled := true, busyAt := s.tick }
  else (setWatch (toRun s c) c []).modCluster c fun x => { x with cold := true, rlDone := false, settled := true, wasRun := false }

/-- The retention load of a WAKING cluster completes (R440). -/
def retloadComplete (s : State) (c : Nat) : State :=
  let x := s.cluster c
  if x.st ≠ 6 || !x.rlBusy then s
  else (setWatch (toRun s c) c x.saveWatch).modCluster c fun x => { x with rlDone := true, saveWatch := [], wasRun := false }

/-- CLWAKE.WAKE (R436): a rail that is settled already lets the load start at once (R440). -/
def clwake (s : State) (c : Nat) : State := afterSave s c 0x20 1 fun s =>
  if (s.cluster c).st ≠ 5 then orderBit s c
  else railArrived (s.modCluster c fun x =>
    { startSlew s x with st := 6, off := false, offNow := false, settled := railSettled false x.mv x.mvNow }) c

/-- A handshake write takes effect (R436, R439). -/
def handshake (s : State) (c off v : Nat) : State :=
  match off with
  | 0x00 => if v.testBit 0 then clqreqSet s c else clqreqClear s c
  | 0x0C => retsaveGo s c
  | 0x14 => if v.testBit 0 then clkgateSet s c else clkgateClear s c
  | 0x18 => if v.testBit 16 then lrailOff s c (v % 1024) else orderBit s c
  | _ => clwake s c

/-- The save of the retention SRAM completes; the handshake writes that arrived during it take effect, in their order (R440). -/
def retsaveComplete (s : State) (c : Nat) : State :=
  let x := s.cluster c
  if !x.saving then s else
  x.heldOps.foldl (fun s y => handshake s c y.1 y.2) (s.modCluster c fun x => { x with
    saving := false, st := 3, retValid := true, rsDone := true, heldOps := []
    saveWatch := s.watch.filter fun u => u.1 / 128 = c })

/-- A write of a power register (R434, R435, R439). A CLQREQ write takes effect at the end of its tick (R441). -/
def powerWrite (s : State) (c off v : Nat) : State :=
  let x := s.cluster c
  match off with
  | 0x00 => s.modCluster c fun x => { x with pend := x.pend ++ [v.testBit 0] }
  | 0x08 => s.modCluster c fun x => { x with
      cold := x.cold && !v.testBit 6, buddy := x.buddy && !v.testBit 5, order := x.order && !v.testBit 4 }
  | 0x0C => if v.testBit 0 then handshake s c off v else s
  | 0x14 => if v.testBit 0 = x.gate then s else handshake s c off v
  | 0x18 => if v.testBit 16 = x.off then (if v % 1024 = x.mv then s else lrailMv s c (v % 1024))
      else handshake s c off v
  | 0x1C => s.modCluster c fun x => { x with refused := x.refused && !v.testBit 18 }
  | 0x20 => if v.testBit 0 then handshake s c off v else s
  | 0x24 => s.modCluster c fun x => { x with budget := BitVec.ofNat 32 v }
  | _ => s

/-- The CLQREQ writes of a tick take effect at its end, lower cluster number first (R441). -/
def applyPend (s : State) (c : Nat) : State :=
  (s.cluster c).pend.foldl (fun s b =>
    if (s.cluster c).qreq = b then s else handshake s c 0x00 (if b then 1 else 0))
    (s.modCluster c fun x => { x with pend := [] })

/-- CNTSNAP (R408). -/
def cntSnap (s : State) : State := { s with mods := { s.mods with snap := s.counters, snapClocks := s.clocks, snapTick := s.tick } }
/-- CNTCLR (R408). -/
def cntClr (s : State) : State := { s with counters := [], clocks := [] }

/-- What the end of a tick does before the counter goes on: the CLQREQ writes of the tick (R441), then the snapshot and the
clearing of the counters that were asked for in it (R408); the steward cores that a CLQREQ store held go on. -/
def closeTick (s : State) : State :=
  let s1 := (kfind s.clusters fun _ x => x.pend ≠ []).foldl applyPend s
  let s2 := if s1.mods.snapDue then cntSnap s1 else s1
  let s3 := if s2.mods.clrDue then cntClr s2 else s2
  { s3 with mods := { s3.mods with snapDue := false, clrDue := false, coreHold := [] } }

/-- A save or load of a cluster's retention SRAM that has lasted 10,000 ticks completes (R440). -/
def boundSave (s : State) (c : Nat) : State :=
  let x := s.cluster c
  if s.tick.toNat < x.busyAt.toNat + 10000 then s
  else if x.saving then retsaveComplete s c else if x.rlBusy then retloadComplete s c else s

/-- The counter goes on from the end of a tick to tick `t`. -/
def advanceTo (s : State) (t : DWord) : State :=
  let s1 := { closeTick s with tick := t }
  (kfind s1.clusters fun _ x => x.saving || x.rlBusy).foldl boundSave s1

/-- The end of a tick (R401, R441): the module stops there, or its counter goes on to tick `t`. -/
def endTick (s : State) (t : DWord) : State :=
  if s.mods.stopped then s
  else if s.mods.arm && s.tick = s.mods.stopTick then
    let s1 := closeTick s
    { s1 with mods := { s1.mods with stopped := true, arm := false } }
  else advanceTo s t

/-- The power register block and offset, or sensor, that an offset of the power window names (R434): its value and its
width in bytes; none where the window lists nothing. -/
def powerSlot (s : State) (off : Nat) : Option (Nat × Nat) :=
  if off < 0x40000 then
    let r := off % 0x1000
    if r ∈ [0x00, 0x04, 0x08, 0x0C, 0x10, 0x14, 0x18, 0x1C, 0x20, 0x24, 0x28, 0x2C, 0x30] then some (powerReg s (off / 0x1000) r, 4)
    else if r = 0x38 then some (powerReg s (off / 0x1000) r, 8) else none
  else if off < 0x40400 then
    if off % 4 = 0 then some (tempWord (kget s.sensors (64 * ((off - 0x40000) / 0x100) + off % 0x100 / 4)), 4) else none
  else match off with
    | 0x50000 => some (tempWord s.mods.coolIn, 4)
    | 0x50004 => some (tempWord s.mods.coolOut, 4)
    | 0x50008 => some (s.mods.modEnergy.toNat, 8)
    | _ => none

/-- A load of the power window: none faults ALIGN (R434). -/
def powerLoad (s : State) (off size : Nat) : Option Nat :=
  if off % size ≠ 0 then none else
  match powerSlot s off with
  | some (v, n) => if n = size then some v else none
  | none => if size = 4 then some 0 else none

/-- A store into the power window: none faults ALIGN (R434). -/
def powerStore (s : State) (off size v : Nat) : Option State :=
  if off % size ≠ 0 then none else
  match powerSlot s off with
  | some (_, n) => if n ≠ size then none else some (if off < 0x40000 then powerWrite s (off / 0x1000) (off % 0x1000) v else s)
  | none => if size = 4 then some s else none

/-! ### Ports (R389, R395) -/

def modPort (s : State) (p : Nat) (f : Port → Port) : State :=
  if h : p < 16 then { s with ports := s.ports.set p (f s.ports[p]) } else s

/-- The tick master of the domain: the module of lowest ID (R393). -/
def tickMaster (s : State) : Nat := (s.cfg.paths.map Prod.fst).foldl min s.cfg.modid

/-- LINKST of a port (R395). -/
def linkst (s : State) (p : Nat) : Nat :=
  let x := port s p
  (if x.st = 2 || x.st = 3 then x.peer % 256 else 0) * 2 ^ 24 + min x.replays 255 * 2 ^ 16 + x.lanes % 16 * 2 ^ 12 + bitNat s.mods.tsync 4 + x.st % 8

/-- A read of LINKST clears REPLAYS (R395); in RECOVERY it does not act (R442). -/
def readLinkst (s : State) (p : Nat) : Nat × State :=
  (linkst s p, if s.recovery then s else modPort s p fun x => { x with replays := 0 })

/-- PORTEN: a DOWN or FENCED port trains (R389). -/
def portEnable (s : State) (p : Nat) : State :=
  modPort s p fun x => if x.st = 0 || x.st = 4 then { x with st := 1, lanes := 0, since := s.tick } else x

/-- Each path in use whose port has left UP and DEGRADED moves to the lowest-numbered path still usable (R391). -/
def reroute (s : State) : State :=
  { s with routes := s.cfg.paths.foldl (fun m y =>
      if (match kget m y.1 with | some p => portUp s p | none => false) then m
      else match y.2.find? (portUp s) with | some p => kput m y.1 p | none => m) s.routes }

/-- A module with no path to the tick master clears TSYNC (R393). -/
def checkSync (s : State) : State :=
  if hasPath s (tickMaster s) || tickMaster s = s.cfg.modid then s else { s with mods := { s.mods with tsync := false } }

/-- A port leaves UP and DEGRADED (R389, R391, R393). -/
def portLeave (s : State) (p st : Nat) : State :=
  if !portUp s p then s else
  checkSync (reroute (modPort s p fun x => { x with st, lanes := 0, lostAt := s.tick, replayed := [] }))

/-! ### Module registers (R401, R402, R408, R452) -/

/-- ARM written (R401). -/
def stopctlArm (s : State) (v : Bool) : State :=
  if v && s.mods.stopTick.toNat ≤ s.tick.toNat then { s with mods := { s.mods with arm := false, missed := true } }
  else { s with mods := { s.mods with arm := v } }

/-- RESUME: every domain runs again, from the next tick; TSYNC clears (R402). -/
def stopResume (s : State) : State :=
  if !s.mods.stopped then s else
  let s1 := advanceTo s (s.tick + 1)
  { s1 with mods := { s1.mods with stopped := false, tsync := false } }

/-- CNTSNAP written (R408): the snapshot is taken at the end of the tick, which a stopped module has reached. -/
def cntSnapWrite (s : State) : State := if s.mods.stopped then cntSnap s else { s with mods := { s.mods with snapDue := true } }
/-- CNTCLR written (R408). -/
def cntClrWrite (s : State) : State := if s.mods.stopped then cntClr s else { s with mods := { s.mods with clrDue := true } }

/-- The bits of a 16-bit register, ascending. -/
def bits16 (v : Nat) : List Nat := (List.range 16).filter fun i => v.testBit i

/-- A read of 4 bytes of the module registers (R452). -/
def moduleRead4 (s : State) (off : Nat) : Nat × State :=
  if off < 0x40 && off % 4 = 0 then readLinkst s (off / 4) else
  match off with
  | 0x080 => (s.mods.stopTick.toNat % 2 ^ 32, s)
  | 0x084 => (s.mods.stopTick.toNat / 2 ^ 32, s)
  | 0x088 => (bitNat s.mods.missed 3 + bitNat s.mods.stopped 1 + bitNat s.mods.arm 0, s)
  | 0x098 => (s.mods.snapTick.toNat % 2 ^ 32, s)
  | 0x09C => (s.mods.snapTick.toNat / 2 ^ 32, s)
  | _ => (0, s)

/-- A read of the module registers (R452). DEDUCED (log 67): one of 8 bytes reads both 4-byte registers that it covers, the
lower one first. -/
def moduleRead (s : State) (off size : Nat) : Nat × State :=
  let a := moduleRead4 s off
  if size < 8 then a else
  let b := moduleRead4 a.2 (off + 4)
  (a.1 + 2 ^ 32 * b.1, b.2)

/-- A write of 4 bytes of the module registers (R452). In RECOVERY it does not act (R442). DESIGN CHOICE (log 69): the fields
of one write of STOPCTL act in the order MISSED, RESUME, ARM. -/
def moduleWrite4 (s : State) (off v : Nat) : State :=
  if s.recovery then s else
  match off with
  | 0x040 => (bits16 v).foldl portEnable s
  | 0x044 => (bits16 v).foldl (fun s p => portLeave s p 4) s
  | 0x080 =>
    { s with mods := { s.mods with stopTick := s.mods.stopTick.extractLsb' 32 32 ++ BitVec.ofNat 32 v } }
  | 0x084 => { s with mods := { s.mods with stopTick := BitVec.ofNat 32 v ++ s.mods.stopTick.extractLsb' 0 32 } }
  | 0x088 =>
    let s1 := if v.testBit 3 then { s with mods := { s.mods with missed := false } } else s
    let s2 := if v.testBit 2 then stopResume s1 else s1
    stopctlArm s2 (v.testBit 0)
  | 0x090 => if v.testBit 0 then cntSnapWrite s else s
  | 0x094 => if v.testBit 0 then cntClrWrite s else s
  | _ => s

/-- A write of the module registers (R452). DEDUCED (log 67): one of 8 bytes writes both 4-byte registers that it covers, the
lower one first. -/
def moduleWrite (s : State) (off size v : Nat) : State :=
  let s1 := moduleWrite4 s off (v % 2 ^ 32)
  if size < 8 then s1 else moduleWrite4 s1 (off + 4) (v / 2 ^ 32)

/-! ### The management window (R448, R449) -/

/-- A free command slot. -/
def CmdSlot.empty : CmdSlot := ⟨0, 0, 0, 0, 0, []⟩
def cmdSlot (s : State) (n : Nat) : CmdSlot := kgetD s.slots n .empty
def modSlotCmd (s : State) (n : Nat) (f : CmdSlot → CmdSlot) : State := { s with slots := kput s.slots n (f (cmdSlot s n)) }

/-- A byte of a command slot (R449). -/
def slotRead (x : CmdSlot) (b : Nat) : Nat :=
  if b < 2 then x.opcode / 256 ^ b % 256
  else if b = 3 then x.st
  else if 4 ≤ b && b < 8 then x.result / 256 ^ (b - 4) % 256
  else if 8 ≤ b && b < 16 then x.tick.toNat / 256 ^ (b - 8) % 256
  else if 16 ≤ b then (kgetD x.arg b 0).toNat else 0

/-- A write of one byte of a command slot (R449): none into a POSTED or RUNNING slot; STATE takes 1, or 0 to free a DONE
slot. -/
def slotWrite (x : CmdSlot) (b : Nat) (v : Byte) : CmdSlot :=
  if x.st = 1 || x.st = 2 then x
  else if b = 0 then { x with opcode := x.opcode / 256 * 256 + v.toNat }
  else if b = 1 then { x with opcode := x.opcode % 256 + 256 * v.toNat }
  else if b = 3 then (if v = 1 then { x with st := 1, phase := 0 } else if v = 0 && x.st = 3 then { x with st := 0 } else x)
  else if 16 ≤ b then { x with arg := if v = 0 then kdel x.arg b else kput x.arg b v }
  else x

/-- Writes bytes into a slot: STATE last, so that a wide write posts what it wrote. -/
def slotWriteAll (x : CmdSlot) (b : Nat) (bytes : List Byte) : CmdSlot :=
  let l := bytes.zipIdx.map fun y => (b + y.2, y.1)
  ((l.filter fun y => y.1 ≠ 3) ++ l.filter fun y => y.1 = 3).foldl (fun x y => slotWrite x y.1 y.2) x

/-- A leaf of a bench in the snapshot: the clocks of its cluster that no leaf has counted are those in which it lodged no wave
(R406). -/
def snapLeaf (s : State) (b k : Nat) : Nat :=
  let at_ (j : Nat) : Nat := kgetD s.mods.snap (16 * b + j) 0
  at_ k + (if k = 13 then kgetD s.mods.snapClocks (b / 32) 0 - ((List.range 14).map at_).sum else 0)

/-- The value of a counter in the snapshot (R452). -/
def snapRead (s : State) (off : Nat) : Nat :=
  let b := off / 128
  let k := off % 128 / 8
  let die := b / 512
  if 4 ≤ die || 14 ≤ k then 0 else
  snapLeaf s b k / 2 ^ (8 * (off % 8))

/-- A read of the management window: aligned, of 4 or 8 bytes; any other reads 0 (R448). -/
def mgmtRead (s : State) (off size : Nat) : Nat × State :=
  if !(size = 4 || size = 8) || off % size ≠ 0 then (0, s)
  else if off < 0x4000 then
    let x := cmdSlot s (off / 256)
    ((List.range size).foldr (fun i n => slotRead x (off % 256 + i) + 256 * n) 0, s)
  else if 0x10000 ≤ off && off < 0x20000 then moduleRead s (off - 0x10000) size
  else if 0x20000 ≤ off && off < 0x60000 then (snapRead s (off - 0x20000) % 256 ^ size, s)
  else (0, s)

/-- A write of the management window (R448) by an agent that owns command slots from `lo` up to `hi`. -/
def mgmtWrite (s : State) (lo hi off size : Nat) (bytes : List Byte) : State :=
  if !(size = 4 || size = 8) || off % size ≠ 0 then s
  else if off < 0x4000 then
    (if lo ≤ off / 256 && off / 256 < hi then modSlotCmd s (off / 256) fun x => slotWriteAll x (off % 256) bytes else s)
  else if 0x10000 ≤ off && off < 0x20000 then moduleWrite s (off - 0x10000) size (leNat bytes)
  else s

/-- A register of the endpoint (R451). -/
def endpointRead (s : State) (off : Nat) : Nat :=
  match off with
  | 0x0 => s.mods.h2dBase.toNat * 2 ^ 36
  | 0x8 => bitNat s.mods.h2dEn 15 + s.mods.h2dCtx % 4096
  | _ => 0

/-- A write of the endpoint's registers (R451); in RECOVERY it does not act (R442). -/
def endpointWrite (s : State) (off v : Nat) : State :=
  if s.recovery then s else
  match off with
  | 0x0 => { s with mods := { s.mods with h2dBase := BitVec.ofNat 12 (v / 2 ^ 36) } }
  | 0x8 => { s with mods := { s.mods with h2dEn := v.testBit 15, h2dCtx := v % 4096 } }
  | _ => s

end Sys2Proof.Machine
end

