-- ==== Sys2Proof/Machine/Memory.lean ====
section
/-! DEFINITION. Class 101: loads, tile-group loads, prefetch and stores (R248 to R257). -/

namespace Sys2Proof.Machine

/-! ### Addresses (R248 to R250) -/

/-- The effective address of a layout M operand in a lane (R248). -/
def memEa (s : State) (x : Body) (v : Wave) (o64 : Bool) (l : Nat) : Nat :=
  let off : VA := if !x.aux.mXp then 0 else if o64 then (src64 s v x.a l).signExtend 72 else (src s v x.a l).signExtend 72
  (v.base x.aux.mBase + off + x.aux.mImm.signExtend 72).toNat

/-- Bytes of an element and number of elements of a load or store (R249). -/
def elemSize (ty : Fmt) : Nat := fmtBits ty / 8
def accSize (x : Body) : Nat := elemSize x.ty * vecCount x.aux.mSub

/-- The lanes of a list whose address meets a condition, as a mask, and the lowest one's address. -/
def lanesWhere (l : List (Nat × Nat)) (p : Nat → Bool) : Mask × Nat :=
  let b := l.filter fun x => p x.2
  (maskOf fun n => b.any fun x => x.1 = n, ((b.head?).map Prod.snd).getD 0)

/-- The ALIGN and scratchpad range checks, steps 3 and 4 of R251, over lanes with their addresses. -/
def addrChecked (i : Iss) (s : State) (scratch : Bool) (unit size : Nat) (eas : List (Nat × Nat)) (k : State) : State :=
  let mis := lanesWhere eas fun a => a % unit ≠ 0
  let out := lanesWhere eas fun a => scratch && scratchSize s i.v.grid < a + size
  if mis.1 ≠ 0 then takeT s i.w i.sl 0x0B mis.1 mis.2 0
  else if out.1 ≠ 0 then takeT s i.w i.sl 0x0C out.1 out.2 0
  else k

/-- Which I/O window a translated access of the firmware context reaches (R434, R448). -/
inductive Window where
  | none | power (off : Nat) | mgmt (off : Nat)
deriving DecidableEq, Repr

def windowOf (s : State) (r : XRes) : Window :=
  match r with
  | .hit pa => (match homeOf s pa with
    | .power => .power (pa % 2 ^ 48 - s.cfg.pwrBase)
    | .mgmt => .mgmt (pa % 2 ^ 48 - s.cfg.mgmtBase)
    | _ => .none)
  | _ => .none

/-! ### Loads (R253 to R255) -/

/-- The lanes for which a load has elements: the executing lanes, or, into W, those that are no helper lanes where
there are any (R253). -/
def loadLanes (x : Body) (i : Iss) : Mask :=
  match x.d with
  | some (.w _) => if i.real = 0 then i.ex else i.real
  | _ => i.ex

/-- One element of a load. -/
structure Elem where
  lane : Nat
  ent : Nat
  ea : Nat
  ext : LoadExt

/-- An element as it issues: the bytes that the wave's own buffer holds (R66); a helper lane's element that would fault
is zero at once (R65): one that is misaligned, or beyond the scratchpad. -/
def issueElem (s : State) (i : Iss) (scratch mis : Bool) (acc : Nat × Nat) (e : Elem) : LoadItem :=
  let n := e.ext.size
  let own := (List.range n).map fun j =>
    if scratch then kget i.v.bufS (e.ea + j)
    else if (inFrame s i.v (e.ea + j)).isSome then none else kget i.v.bufD ((e.ea + j) % 2 ^ 72)
  let bad := i.v.helper.getLsbD e.lane && (mis || (scratch && scratchSize s i.v.grid < acc.1 + acc.2))
  let hit := scratch || (inFrame s i.v e.ea).isSome || (match xlate s i.v.ctx e.ea .read with | .hit _ => true | _ => false)
  ⟨e.lane, e.ent, scratch, e.ea, own, e.ext, if bad then some 0 else none, false, hit, false⟩

/-- Marks the elements' entries EMPTY with a producer attached (R48). -/
def markItems (v : Wave) (p : Nat) (items : List LoadItem) : Wave :=
  items.foldl (fun v it => (List.range it.ext.words).foldl (fun v k => v.mark (it.ent + k) it.lane (.empty p)) v) v

/-- Issues a load: its producer, its EMPTY entries, its path (R50, R252). -/
def issueLoad (x : Body) (i : Iss) (s : State) (path : Nat) (trk : Bool) (items : List LoadItem) : State :=
  if i.ex = 0 then wordEnd x i s s id else
  let p := s.nextId
  let q : Prod := ⟨i.w, i.sl, path, i.slot.pc, loadLanes x i, i.v.helper, .load items trk, .none, false⟩
  let s1 := { s with prods := kput s.prods p q, nextId := p + 1 }
  let s2 := s1.modWave i.w fun v => (markItems v p items).addPath path 1
  let sp := if path = 1 then 1 else 0
  prodEnd x i s s2 fun k => { k with
    mem := k.mem ++ (items.filter (·.seen)).map fun it => (it.lane, sp, it.ea, it.ext.size, false) }

/-- A load of the firmware context from an I/O window reads the register once, at issue, and delivers it to every executing lane,
each element its part of the access (R438, R448). A wrong width is ALIGN, and where only helper lanes execute they read zero (R65). -/
def windowLoad (x : Body) (i : Iss) (s : State) (win : Window) (size : Nat) (eas : List (Nat × Nat)) (elems : List Elem) (ea : Nat) : State :=
  let r : Option (Nat × State) := match win with
    | .power off => (powerLoad s off size).map fun v => (v, s)
    | .mgmt off => some (mgmtRead s off size)
    | .none => none
  let deliver (v : Nat) (s1 : State) : State := issueLoad x i s1 0 false (elems.map fun e =>
    let part := e.ea - ((eas.find? fun y => y.1 = e.lane).map Prod.snd).getD e.ea
    ⟨e.lane, e.ent, false, e.ea, [], e.ext, some (BitVec.ofNat 64 (v / 256 ^ part)), false, false, false⟩)
  match r with
  | none => if i.real = 0 then deliver 0 s else takeT s i.w i.sl 0x0B i.real ea 0
  | some (v, s1) => deliver v s1

/-- A load: path limit, checks, issue; one that reaches an I/O window in some lane reads the register of the lowest such lane
(R438). `eas` holds each lane's address and `size` the bytes of its access; `mis` says that
every lane's is misaligned. -/
def loadCore (x : Body) (i : Iss) (s : State) (scratch trk mis : Bool) (unit size : Nat) (eas : List (Nat × Nat)) (elems : List Elem) : State :=
  let path := if scratch then 1 else 0
  if 4095 ≤ i.v.path path && i.ex ≠ 0 then capSlot s i.w i.sl else
  let real := eas.filter fun y => !i.v.helper.getLsbD y.1
  addrChecked i s scratch unit size real
    (let cand := if real = [] then eas else real
     let inWindow (y : Nat × Nat) : Bool := windowOf s (xlate s i.v.ctx y.2 .read) ≠ .none
     let first := ((if scratch then none else cand.find? inWindow).orElse fun _ => cand.head?).getD (0, 0)
     let res := if scratch then XRes.page else xlate s i.v.ctx first.2 .read
     match windowOf s res, lostHome s (if scratch then [] else real.filterMap fun y => (xlate s i.v.ctx y.2 .read).pa?) with
     | .none, some m => linkLost s i.v.ctx m (some (.wave i.w))
     | .none, none => issueLoad x i s path trk (elems.map fun e =>
         let a := ((eas.find? fun y => y.1 = e.lane).map Prod.snd).getD 0
         issueElem s i scratch (mis || a % unit ≠ 0) (a, size) e)
     | w, _ => windowLoad x i s w size eas elems first.2)

/-- How an element of a TYPE is extended into its entry (R249). -/
def loadExt (ty : Fmt) : LoadExt := if ty = .i8 then .sext 1 else .zext (elemSize ty)

/-- LD, LD.TRK and LDS (R253). -/
def loadWord (o : Op) (x : Body) (s : State) (scratch trk : Bool) : Out :=
  memOp o x s fun i =>
    let ls := lanesOf (loadLanes x i)
    let eas := ls.map fun l => (l, memEa s x i.v (o64m x.md) l)
    let n := elemSize x.ty
    let e0 := ((x.d.bind opdEnt)).getD 0
    let elems := (eas.map fun y => (List.range (vecCount x.aux.mSub)).map fun j =>
      (⟨y.1, e0 + (if n = 8 then 2 * j else j), (y.2 + j * n) % 2 ^ 72, loadExt x.ty⟩ : Elem)).flatten
    loadCore x i s scratch trk false (accSize x) (accSize x) eas elems

/-- LD (R253). -/
def execLd (x : Body) (s : State) : Out := loadWord .ld x s false false
/-- LD.TRK (R78, R253). -/
def execLdTrk (x : Body) (s : State) : Out := loadWord .ldTrk x s false true
/-- LDS (R253). -/
def execLds (x : Body) (s : State) : Out := loadWord .lds x s true false

/-- The bit address of a lane's LDT element (R255). -/
def ldtBit (ea pitch w l : Nat) : Nat := 8 * (ea + l % 16 * pitch) + l / 16 * w

/-- LDT (R255). -/
def execLdt (x : Body) (s : State) : Out :=
  memOp .ldt x s fun i =>
    let scratch := x.aux.mSub.getLsbD 0
    let w := fmtBits x.ty
    let ls := lanesOf i.ex
    let ea := memEa s x i.v false 0
    let pitch := (src s i.v x.b (lowLane i.ex)).toNat
    let e0 := ((x.d.bind opdEnt)).getD 0
    let elem (l : Nat) : Elem :=
      let b := ldtBit ea pitch w l
      ⟨l, e0, b / 8, if w < 8 then .bits (b % 8) w else .zext (w / 8)⟩
    let unit := if w < 16 then 1 else w / 8
    let mis : Bool := ea % unit ≠ 0 || pitch % unit ≠ 0
    if i.real ≠ 0 && mis then takeT s i.w i.sl 0x0B i.real ea 0
    else
      let eas := ls.map fun l => (l, (elem l).ea)
      let size := ((ls.map fun l => (elem l).ext.size).max?).getD 1
      -- the range of each lane is that of its own element (R248)
      let outs := lanesWhere ((ls.filter fun l => !i.v.helper.getLsbD l).map fun l => (l, (elem l).ea + (elem l).ext.size))
        fun a => scratch && scratchSize s i.v.grid < a
      if 4095 ≤ i.v.path (if scratch then 1 else 0) && i.ex ≠ 0 then capSlot s i.w i.sl
      else if outs.1 ≠ 0 then takeT s i.w i.sl 0x0C outs.1 (elem (lowLane outs.1)).ea 0
      else if scratch then issueLoad x i s 1 false (ls.map fun l => issueElem s i true mis ((elem l).ea, (elem l).ext.size) (elem l))
      else loadCore x i s false false mis 1 size (eas.map fun y => (y.1, y.2 % 2 ^ 72)) (ls.map fun l => { elem l with ea := (elem l).ea % 2 ^ 72 })

/-- PREF (R256): it changes no state that a program can see, and no watch unit matches it. -/
def execPref (x : Body) (s : State) : Out := wordOp .pref x s fun i => countGangHalt (advance i s) i

/-! ### Stores (R257) -/

/-- The stored bytes of a lane: its elements in order (R249). -/
def storeData (s : State) (x : Body) (v : Wave) (l : Nat) : List Byte :=
  let n := elemSize x.ty
  ((List.range (vecCount x.aux.mSub)).map fun j =>
    if n = 8 then leBytes 8 (srcEntry s v x.b (2 * j + 1) l ++ srcEntry s v x.b (2 * j) l).toNat
    else leBytes n (srcEntry s v x.b j l).toNat).flatten

/-- The words that a store shows to value units: each element, in 32-bit halves, or its stored bits (R303). -/
def storeVals (x : Body) (l : Nat) (bytes : List Byte) : List (Nat × Word) :=
  let n := min 4 (elemSize x.ty)
  (List.range (bytes.length / n)).map fun j => (l, BitVec.ofNat 32 (leNat ((bytes.drop (n * j)).take n)))

/-- What a store shows to watch units. -/
def storeSeen (x : Body) (scratch : Bool) (l : List (Nat × Nat × List Byte)) (k : Seen) : Seen :=
  { k with
    mem := k.mem ++ l.map fun y => (y.1, (if scratch then 1 else 0), y.2.1, y.2.2.length, true)
    vals := k.vals ++ (l.map fun y => storeVals x y.1 y.2.2).flatten }

/-- The bytes of lanes, lowest lane first, by address: the highest lane's stand (R66). -/
def laneBytes (l : List (Nat × Nat × List Byte)) : List (Nat × Byte) :=
  (l.map fun y => y.2.2.zipIdx.map fun b => ((y.2.1 + b.2) % 2 ^ 72, b.1)).flatten

/-- Stores bytes at offsets of the wave's private slot: a producer is detached from a frame entry whose state no longer
reads EMPTY (R57, R298), and the divergence stack is what its table holds (R62). -/
def frameStore (l : List (Nat × Byte)) (v : Wave) : Wave :=
  if l = [] then v else
  let f := l.foldl (fun f y => framePut f y.1 y.2) v.frame
  { v with frame := f, stack := stkOf f v.stack.length }.settleAtt

/-- Puts a store's bytes into the trap frame where they lie there (R296) and the others into the wave buffer, which
alone the store hash takes (R413). -/
def storeInto (x : Body) (i : Iss) (s0 s : State) (scratch : Bool) (l : List (Nat × Nat × List Byte)) : State :=
  let all := laneBytes l
  let isFrame (y : Nat × Byte) : Bool := !scratch && (inFrame s i.v y.1).isSome
  let fr := all.filter isFrame
  let bytes := all.filter fun y => !isFrame y
  let go (s1 : State) : State :=
    let s2 := s1.modWave i.w fun v => frameStore
      (fr.filterMap fun y => (inFrame s i.v y.1).map fun o => (o, y.2))
      { v with hash := hashStores v.hash scratch ((l.filter fun y => scratch || (inFrame s i.v y.2.1).isNone).map fun y => (y.2.1, y.2.2)) }
    wordEnd x i s0 s2 (storeSeen x scratch l)
  -- the private slot takes the bytes at once, so that the wave's earlier loads read first (R67, R296)
  if fr ≠ [] && loadsOut (sampleWave s i.w) i.w then stallSlot (sampleWave s i.w) i.w i.sl else
  let s := if fr = [] then s else sampleWave s i.w
  if bytes = [] then go s else bufStore i s scratch bytes go

/-- A store of the firmware context to an I/O window: the bytes of its highest lane, once (R438, R448). -/
def windowStore (x : Body) (i : Iss) (s : State) (win : Window) (bytes : List Byte) (ea : Nat) : State :=
  match win with
  | .power off => match powerStore s off bytes.length (leNat bytes) with
    | none => takeT s i.w i.sl 0x0B i.real ea 0
    | some s1 =>
      let s2 := wordEnd x i s s1 id
      -- a CLQREQ write holds the slot to the end of its tick (R438, R441)
      if off % 0x1000 = 0 && off < 0x40000 then holdSlot i s2 (.sleep (s.tick.toNat + 1)) else s2
  | .mgmt off => wordEnd x i s (mgmtWrite s 0 64 off bytes.length bytes) id
  | .none => s

/-- ST and STS (R257). -/
def storeWord (o : Op) (x : Body) (s : State) (scratch : Bool) : Out :=
  memOp o x s fun i =>
    let ls := lanesOf i.real
    let l := ls.map fun n => (n, memEa s x i.v (o64m x.md) n, storeData s x i.v n)
    let eas := l.map fun y => (y.1, y.2.1)
    addrChecked i s scratch (accSize x) (accSize x) eas
      (if scratch then storeInto x i s s true l else
       match xlateLanes s i.v.ctx .write i.slot.denied (eas.filter fun y => (inFrame s i.v y.2).isNone) with
       | .bad pa => haltCtx s i.v.ctx 0x22 pa (some (.wave i.w))
       | .xlate m ea => takeT s i.w i.sl 0x0C m ea 0
       | .miss vas => parkSlot s i.w i.sl 1 true vas
       | .hits pas =>
         match lostHome s (pas.map Prod.snd), (l.getLast?) with
         | some m, _ => linkLost s i.v.ctx m (some (.wave i.w))
         | none, none => wordEnd x i s s id
         | none, some y =>
           match windowOf s (match pas.find? fun p => p.1 = y.1 with | some p => .hit p.2 | none => .page) with
           | .none => storeInto x i s s false l
           | w => windowStore x i s w y.2.2 y.2.1)

/-- ST (R257). -/
def execSt (x : Body) (s : State) : Out := storeWord .st x s false
/-- STS (R257). -/
def execSts (x : Body) (s : State) : Out := storeWord .sts x s true

end Sys2Proof.Machine
end

