-- ==== Sys2Proof/Machine/Commits.lean ====
section
/-! DEFINITION. COMMIT, COMMIT.CHK, ABORT and FENCE (R258 to R261). Each acts for the wave as a whole, once, if it has
at least one executing lane. -/

namespace Sys2Proof.Machine

/-- A word of the wave as a whole: with no executing lane it only moves on. -/
def wholeOp (o : Op) (x : Body) (s : State) (k : Iss → State) : Out :=
  withWave o x s fun i => if i.ex = 0 then wordEnd x i s s id else k i

/-- COMMIT at a scope (R72, R93, R114, R258). -/
def commitWord (o : Op) (x : Body) (s : State) (scope : Nat) : Out :=
  wholeOp o x s fun i => performCommit s i scope true fun s1 => wordEnd x i s s1 id

/-- COMMIT.BLK (R258). -/
def execCommitBlk (x : Body) (s : State) : Out := commitWord .commitBlk x s 1
/-- COMMIT.GANG (R258). -/
def execCommitGang (x : Body) (s : State) : Out := commitWord .commitGang x s 2
/-- COMMIT.DEV (R258). -/
def execCommitDev (x : Body) (s : State) : Out := commitWord .commitDev x s 3
/-- COMMIT.SYS (R258). -/
def execCommitSys (x : Body) (s : State) : Out := commitWord .commitSys x s 4

/-- Writes one value to D, FULL, in every executing lane or once into W, and ends the word. -/
def endWith (x : Body) (i : Iss) (s0 s : State) (c : Word) : State :=
  let wr := writeD i.v x.d i.ex fun _ => [c]
  wordEnd x i s0 (s.modWave i.w fun v => (writeD v x.d i.ex fun _ => [c]).v) fun k =>
    { k with vals := wr.vals.filter fun y => i.real.getLsbD y.1 }

/-- A checked commit (R79, R97, R259): the pending loads read first, so that a tracked one counts; a reason other than 0
commits nothing. The check and every step of the commit take one point: the check comes first, so that a block or gang
escalation which the commit's own entry causes does not count in it (log 58). -/
def chkWith (x : Body) (i : Iss) (s : State) (scope : Nat) : State :=
  let s1 := sampleWave s i.w
  match (s1.wave? i.w).map fun v => checkCode v.trk scope with
  | some 0 => gatedWhole s1 i scope (fun s => (commitAt s i.w i.sl scope).whole s) fun s2 => endWith x i s s2 0
  | some c => endWith x i s s1 (BitVec.ofNat 32 c)
  | none => s

/-- COMMIT.CHK.BLK (R79, R259). -/
def execCommitChkBlk (x : Body) (s : State) : Out :=
  wholeOp .commitChkBlk x s fun i => chkWith x i s 1

/-- COMMIT.CHK.GANG and COMMIT.CHK.DEV (R97, R259). -/
def execCommitChkGangDev (x : Body) (s : State) : Out :=
  wholeOp .commitChkGangDev x s fun i => chkWith x i s (scopeOf x.md)

/-- Some tracked byte is homed outside the module (R116). -/
def trackedOutside (s : State) (t : Track) : Bool :=
  t.bytes.any fun y => match homeOf s y.2 with | .module _ => true | .host _ => true | _ => false

/-- Whether a tracked byte at a home outside the module has met an entry there since its load is a free value (R116, log 6): one
that has is a CONFLICT at the device level. -/
def drawOutside (s : State) (w : Nat) : State :=
  match s.wave? w with
  | none => s
  | some v =>
    if !trackedOutside s v.trk then s else
    let d := s.draw
    if d.1.getLsbD 0 then d.2.modWave w fun v => { v with trk := { v.trk with confDev := true } } else d.2

/-- The shares of a checked COMMIT.SYS are staged as it would carry them now; no level below is left yet, since its check
and its steps take one point once every home has acknowledged (R97, R114, R116). -/
def stageCheck (s : State) (w sl : Nat) : CRes :=
  match commitAt s w sl 4 with
  | .ok s1 => (match kget s1.sysCommits s.nextId with
    | some c => .ok { s with sysCommits := kput s.sysCommits s.nextId { c with check := true }, nextId := s.nextId + 1 }
    | none => .ok s1)
  | r => r.whole s

/-- The check at the issue of COMMIT.CHK.SYS, over the bytes that its tracked loads have read, and the staging of its shares.
Its entries take their places in the orders when every home has acknowledged (R116, R410). -/
def chkSys (x : Body) (i : Iss) (s : State) : State :=
  let s1 := drawOutside (sampleWave s i.w) i.w
  match (s1.wave? i.w).map fun v => checkCode v.trk 3 with
  | some 0 => match stageCheck s1 i.w i.sl with
    | .ok s2 => holdSlot i s2 (.sysCommit (s2.nextId - 1))
    | r => onStep s1 i.w i.sl (lowLane i.ex) 1 (r.whole s1) id
  | some c => endWith x i s s1 (BitVec.ofNat 32 c)
  | none => s

/-- COMMIT.CHK.SYS (R116, R259). The word that waited for its commit writes its code when it issues again. -/
def execCommitChkSys (x : Body) (s : State) : Out :=
  wholeOp .commitChkSys x s fun i =>
    match sysDone s i with
    | some cid => endWith x i s { s with sysCommits := kdel s.sysCommits cid } 0
    | none => chkSys x i s

/-- ABORT.WAVE (R81, R260). A tracked load that has issued and not yet read counts in the set after it (log 56). -/
def execAbortWave (x : Body) (s : State) : Out :=
  wholeOp .abortWave x s fun i => wordEnd x i s (abortWave s i.w) id

/-- ABORT.BLK (R82, R260). -/
def execAbortBlk (x : Body) (s : State) : Out :=
  wholeOp .abortBlk x s fun i =>
    gated s i [blkStream s i.v.blk] (fun s => .ok (abortBlk s i.v.blk i.v.ctx)) fun s1 => wordEnd x i s s1 id

/-- ABORT.GANG (R98, R260). -/
def execAbortGang (x : Body) (s : State) : Out :=
  wholeOp .abortGang x s fun i =>
    gated s i [gangStream s i.v.gang] (fun s => .ok (abortGang s i.v.gang i.v.ctx)) fun s1 => wordEnd x i s s1 id

/-- The order codes of R167 that release and that acquire. -/
def releases (o : Nat) : Bool := o = 2 || o = 3 || o = 4
def acquires (o : Nat) : Bool := o = 1 || o = 3 || o = 4

/-- FENCE (R75, R100, R117, R261). An SC fence at SYS takes a ticket (R117): the model has the domain's order point in
this module (log 54). -/
def execFence (x : Body) (s : State) : Out :=
  wholeOp .fence x s fun i =>
    let scope := scopeOf x.md
    let o := x.aux.mOrder
    let go (s1 : State) : State :=
      let s2 := if acquires o then acquire s1 i.w else s1
      wordEnd x i s (if o = 4 && scope = 4 then { s2 with tickets := s2.tickets + 1 } else s2) id
    if releases o && scope ≠ 0 then performCommit s i scope true go else go s

end Sys2Proof.Machine
end

