-- ==== Sys2Proof/Machine/Atomics.lean ====
section
/-! DEFINITION. Atomics and reductions (R262 to R266): their operations, the requests they send to porters, and those
that act at once on the block level. -/

namespace Sys2Proof.Machine

/-! ### The operation at the level (R263) -/

/-- FADD.F32.RN of two codes (R222, R263). -/
def faddCode (a b : Nat) : Nat :=
  let l := [decodeF .f32 a, decodeF .f32 b]
  (finish l (Val.sum false l) .f32 0 false 0).1

/-- The value that an operation writes over the old one; none where it writes nothing (R263). -/
def atomNew (op : AtomOp) (ty : Fmt) (wide : Bool) (old b c : Nat) : Option Nat :=
  let m := if wide then 2 ^ 64 else 2 ^ 32
  match op with
  | .add => some ((old + b) % m)
  | .fadd => some (if wide then faddCode (old % 2 ^ 32) (b % 2 ^ 32) + 2 ^ 32 * faddCode (old / 2 ^ 32) (b / 2 ^ 32)
      else faddCode old b)
  | .min => some (if decodeI ty b < decodeI ty old then b else old)
  | .max => some (if decodeI ty old < decodeI ty b then b else old)
  | .and => some (old &&& b)
  | .or => some (old ||| b)
  | .xor => some (old ^^^ b)
  | .xchg => some b
  | .cas => if old = b then some c else none
  | .incw => some (if b ≤ old then 0 else old + 1)

/-- The operations that a phase holds without return (R106). -/
def heldOp : AtomOp → Bool
  | .xchg | .cas | .incw => false
  | _ => true

/-- The PCIe AtomicOp of an operation: FetchAdd 0, Swap 1, CAS 2 (R265). -/
def hostOp : AtomOp → Option Nat
  | .add => some 0
  | .xchg => some 1
  | .cas => some 2
  | _ => none

/-- A physical address at which an atomic faults XLATE (R265, R368, R434, R448). -/
def atomRefused (s : State) (op : AtomOp) (n pa : Nat) : Bool :=
  match homeOf s pa with
  | .host _ => (match hostOp op with | some k => !Config.hostAtomic k n | none => true)
  | .wake | .power | .mgmt => true
  | .module m =>
    if pa % 2 ^ 48 < 0xC000000000 then false
    else if pa % 2 ^ 48 < 0x10000000000 then true
    else (match hostOp op with | some k => !Config.hostAtomic (3 * (m + 1) + k) n | none => true)
  | _ => false

/-- A source as the bits of an atomic's operand. FADD reads a literal or a special as its integer value in F32 (R219,
R222), in both halves of a pair (log 62). -/
def atomSrc (s : State) (v : Wave) (op : AtomOp) (wide : Bool) (o : Option Opd) (l : Nat) : Nat :=
  let coded : Bool := match o with | some (.lit _) => true | some (.k _) => true | _ => false
  if op = .fadd && coded then
    let c := srcF s v .f32 o l 0
    if wide then c + 2 ^ 32 * c else c
  else if wide then (src64 s v o l).toNat else (src s v o l).toNat

/-- One lane of an atomic: its address, and where translation puts it. -/
structure AtomLane where
  lane : Nat
  ea : Nat
  pa : Nat
  b : Nat
  c : Nat
deriving DecidableEq

/-- What an atomic is: its operation, TYPE, width, scope, order, space, whether it returns. -/
structure AtomForm where
  op : AtomOp
  ty : Fmt
  wide : Bool
  scope : Nat
  order : Nat
  scratch : Bool
  ret : Bool
  reds : Bool

/-- The form of an ATOM or ATOMD word (R262). -/
def atomForm (x : Body) (op : AtomOp) (wide : Bool) : AtomForm :=
  ⟨op, x.ty, wide, scopeOf x.md, x.aux.mOrder, x.aux.mSub.getLsbD 1, x.aux.mSub.getLsbD 0, false⟩

/-- The form of a REDS word (R266). -/
def redsForm (x : Body) (op : AtomOp) : AtomForm := ⟨op, x.ty, false, scopeOf x.md, x.aux.mOrder, false, false, true⟩

def AtomForm.size (f : AtomForm) : Nat := if f.wide then 8 else 4

/-! ### At the block level (R74, R103) -/

/-- What an atomic at the block level has done so far: its entry, the old values by lane, the bytes written. -/
structure BlkAcc where
  res : CRes
  olds : KMap DWord
  outs : List (Nat × Byte)

/-- One lane's request at the block level, in device space or on scratchpad. It waits at a staged byte (R114). DESIGN CHOICE (log
73): one that writes nothing leaves its line out of the pool. -/
def blkAtomLane (i : Iss) (f : AtomForm) (acc : BlkAcc) (y : AtomLane) : BlkAcc :=
  match acc.res with
  | .ok s =>
    let n := f.size
    if !f.scratch && poolStaged s i.v y.ea y.pa n then ⟨.wait s, acc.olds, acc.outs⟩ else
    let old := leNat ((List.range n).map fun j =>
      if f.scratch then (match s.block? i.v.blk with | some b => scratchByte b (y.ea + j) | none => 0)
      else (poolByte s i.v (y.ea + j)).2)
    let olds := kput acc.olds y.lane (BitVec.ofNat 64 old)
    match atomNew f.op f.ty f.wide old y.b y.c with
    | none => ⟨.ok s, olds, acc.outs⟩
    | some nw =>
      let out := bytesAt y.ea n nw
      if f.scratch then
        ⟨match s.block? i.v.blk with
          | some b => if preRoom b (out.map Prod.fst) then .ok (enterScratch s i.v.blk out) else .wait s
          | none => .ok s, olds, acc.outs⟩
      else ⟨.ok (blkConflicts (s.modBlock i.v.blk fun b => { b with pool := putAll b.pool out }) i.v.blk (some i.w) (out.map Prod.fst)), olds,
        acc.outs ++ out⟩
  | _ => acc

/-- Every lane in turn, lowest first, whatever room the pool has. -/
def blkAtomRun (i : Iss) (f : AtomForm) (l : List AtomLane) (s : State) : BlkAcc :=
  l.foldl (blkAtomLane i f) ⟨.ok s, [], []⟩

/-- An atomic at the block level, as one entry: where the pool would have more than 2,048 lines, the pool is carried first and the
entry follows, or in strict mode it takes WBCAP (R77). -/
def blkAtom (i : Iss) (f : AtomForm) (l : List AtomLane) (s : State) : BlkAcc :=
  let r := blkAtomRun i f l s
  match r.res, s.block? i.v.blk with
  | .ok s1, some b =>
    let tooMany : Bool := match s1.block? i.v.blk with | some y => 2048 < lineCount (y.pool.map Prod.fst) | none => false
    if f.scratch || !tooMany then r
    else if escalates s b.grid then
      match blkEscalate s i.v.blk i.w with
      | .ok s2 => blkAtomRun i f l s2
      | e => ⟨e, r.olds, r.outs⟩
    else ⟨.fault s 0x0A, r.olds, r.outs⟩
  | _, _ => r

/-! ### Requests (R104) -/

/-- Where a lane's request acts, and the cluster of the porter that serves it. An address homed outside the module acts at
its home whatever the scope (R118). -/
def reqHome (s : State) (i : Iss) (f : AtomForm) (y : AtomLane) : ReqHome × Nat :=
  match homeOf s y.pa with
  | .here c => if f.scope = 2 then (.gang i.v.gang y.ea y.pa, clusterOf i.v.place) else (.dev y.pa, c)
  | _ => (.dev y.pa, 64)

/-- A lane's request. -/
def mkReq (s : State) (i : Iss) (f : AtomForm) (ret : Option Nat) (id : Nat) (y : AtomLane) : Req :=
  let h := reqHome s i f y
  let here := match homeOf s y.pa with | .here _ => true | _ => false
  { id, ctx := i.v.ctx, wave := i.w, slot := i.sl, lane := y.lane, pc := i.slot.pc, issuer := issuer s i.v y.lane
    seqNo := id, home := h.2, at_ := h.1, op := f.op, ty := f.ty, wide := f.wide, b := BitVec.ofNat 64 y.b
    c := BitVec.ofNat 64 y.c, ret
    holds := here && f.scope = 3 && !f.ret && (f.reds || (!f.wide && heldOp f.op)), acq := acquires f.order, hash := i.v.hash, first := i.issuer s }

/-- Sends one request per lane, in lane order. -/
def sendReqs (s : State) (i : Iss) (f : AtomForm) (ret : Option Nat) (l : List AtomLane) : State :=
  { s with
    hall := s.hall ++ l.zipIdx.map fun y => mkReq s i f ret (s.nextId + y.2) y.1
    nextId := s.nextId + l.length }

/-! ### The words -/

/-- What an atomic shows to watch units: it reads and writes its bytes, and a REDS writes them (R303, R379). -/
def atomSeen (f : AtomForm) (l : List AtomLane) (k : Seen) : Seen :=
  let sp := if f.scratch then 1 else 0
  { k with mem := k.mem ++ (if f.reds then [] else l.map fun y => (y.lane, sp, y.ea, f.size, false)) ++ l.map fun y => (y.lane, sp, y.ea, f.size, true) }

/-- Marks a destination EMPTY in lanes with a producer, and counts it on path 3 (R50, R252). -/
def addRet (x : Body) (wide : Bool) (p : Nat) (m : Mask) (v : Wave) : Wave :=
  let e := (x.d.bind opdEnt).getD 0
  ((lanesOf m).foldl (fun v l => (List.range (if wide then 2 else 1)).foldl (fun v k => v.mark (e + k) l (.empty p)) v) v).addPath 3 1

/-- The producer of a returning atomic, with the old values known so far. -/
def retProd (x : Body) (i : Iss) (wide : Bool) (m : Mask) (vals : KMap DWord) : Prod :=
  ⟨i.w, i.sl, 3, i.slot.pc, m, i.v.helper, .value vals wide ((x.d.bind opdEnt).getD 0), .none, false⟩

/-- Creates a returning atomic's producer, numbered `nextId`. -/
def openRet (x : Body) (i : Iss) (wide : Bool) (m : Mask) (vals : KMap DWord) (s : State) : State :=
  { s with prods := kput s.prods s.nextId (retProd x i wide m vals), nextId := s.nextId + 1 }.modWave i.w
    (addRet x wide s.nextId m)

/-- An SC atomic at SYS takes a ticket (R103, R117): the model has the domain's order point in this module (log 54). -/
def atomTicket (f : AtomForm) (s : State) : State :=
  if f.order = 4 && f.scope = 4 then { s with tickets := s.tickets + 1 } else s

/-- A lane acts at the block level: on scratchpad, or at scope BLK on an address homed in this module (R103, R118). -/
def atBlock (s : State) (f : AtomForm) (y : AtomLane) : Bool :=
  f.scratch || (decide (f.scope = 1) && (match homeOf s y.pa with | .here _ => true | _ => false))

/-- An atomic acts once its checks and its release are done: its lanes at the block level act at once, as one entry of the
block's order; the others send their requests. -/
def atomAct (x : Body) (i : Iss) (f : AtomForm) (s0 s1 : State) (l : List AtomLane) : State :=
  let near := l.filter (atBlock s1 f)
  let far := l.filter fun y => !atBlock s1 f y
  let send (s2 : State) (olds : KMap DWord) : State :=
    let s3 := if f.ret then openRet x i f.wide i.real olds s2 else s2
    let s4 := sendReqs s3 i f (if f.ret then some s2.nextId else none) far
    let s5 := if far = [] && acquires f.order then acquire s4 i.w else s4
    prodEnd x i s0 (atomTicket f s5) (atomSeen f l)
  if near = [] then send s1 [] else
    let r := blkAtom i f near s1
    entryAfter s0 s1 i (releases f.order) (if f.scratch then [blkStream s1 i.v.blk] else poolStreams s1 i.w r.outs)
      (fun s => (blkAtom i f near s).res) fun s2 => send s2 r.olds

/-- An atomic's lanes with their operands, before translation. -/
def atomLanes (x : Body) (i : Iss) (f : AtomForm) (s : State) : List AtomLane :=
  (lanesOf i.real).map fun l =>
    ⟨l, memEa s x i.v (o64c x.md) l, 0, atomSrc s i.v f.op f.wide x.b l, atomSrc s i.v f.op f.wide x.c l⟩

/-- An atomic or reduction (R251, R263, R264, R266): counter, ALIGN, range, translation, release, requests. -/
def atomWord (o : Op) (x : Body) (s : State) (f : AtomForm) : Out :=
  atomOp o x s fun i =>
    if i.real = 0 then wordEnd x i s s id
    else if f.ret && 4095 ≤ i.v.path 3 then capSlot s i.w i.sl
    else
      let l := atomLanes x i f s
      let eas := l.map fun y => (y.lane, y.ea)
      let rel (l : List AtomLane) : State :=
        if releases f.order then performCommit s i f.scope false fun s1 => atomAct x i f s s1 l else atomAct x i f s s l
      addrChecked i s f.scratch f.size f.size eas
        (if f.scratch then rel l else
         match xlateLanesIf s i.v.ctx (if f.reds then .write else .both) i.slot.denied (atomRefused s f.op f.size) eas with
         | .bad pa => haltCtx s i.v.ctx 0x22 pa (some (.wave i.w))
         | .xlate m ea => takeT s i.w i.sl 0x0C m ea 0
         | .miss vas => parkSlot s i.w i.sl 1 true vas
         | .hits pas => match lostHome s (pas.map Prod.snd) with
           | some m => linkLost s i.v.ctx m (some (.wave i.w))
           | none => rel (l.map fun y => { y with pa := ((pas.find? fun p => p.1 = y.lane).map Prod.snd).getD 0 }))

/-- ATOM.ADD (R262). -/
def execAtomAdd (x : Body) (s : State) : Out := atomWord .atomAdd x s (atomForm x .add false)
/-- ATOM.FADD (R262). -/
def execAtomFadd (x : Body) (s : State) : Out := atomWord .atomFadd x s (atomForm x .fadd false)
/-- ATOM.MIN (R262). -/
def execAtomMin (x : Body) (s : State) : Out := atomWord .atomMin x s (atomForm x .min false)
/-- ATOM.MAX (R262). -/
def execAtomMax (x : Body) (s : State) : Out := atomWord .atomMax x s (atomForm x .max false)
/-- ATOM.AND (R262). -/
def execAtomAnd (x : Body) (s : State) : Out := atomWord .atomAnd x s (atomForm x .and false)
/-- ATOM.OR (R262). -/
def execAtomOr (x : Body) (s : State) : Out := atomWord .atomOr x s (atomForm x .or false)
/-- ATOM.XOR (R262). -/
def execAtomXor (x : Body) (s : State) : Out := atomWord .atomXor x s (atomForm x .xor false)
/-- ATOM.XCHG (R262). -/
def execAtomXchg (x : Body) (s : State) : Out := atomWord .atomXchg x s (atomForm x .xchg false)
/-- ATOM.CAS (R262). -/
def execAtomCas (x : Body) (s : State) : Out := atomWord .atomCas x s (atomForm x .cas false)
/-- ATOM.INCW (R262). -/
def execAtomIncw (x : Body) (s : State) : Out := atomWord .atomIncw x s (atomForm x .incw false)
/-- ATOMD.ADD (R262). -/
def execAtomdAdd (x : Body) (s : State) : Out := atomWord .atomdAdd x s (atomForm x .add true)
/-- ATOMD.FADD (R262). -/
def execAtomdFadd (x : Body) (s : State) : Out := atomWord .atomdFadd x s (atomForm x .fadd true)
/-- ATOMD.MIN (R262). -/
def execAtomdMin (x : Body) (s : State) : Out := atomWord .atomdMin x s (atomForm x .min true)
/-- ATOMD.MAX (R262). -/
def execAtomdMax (x : Body) (s : State) : Out := atomWord .atomdMax x s (atomForm x .max true)
/-- ATOMD.AND (R262). -/
def execAtomdAnd (x : Body) (s : State) : Out := atomWord .atomdAnd x s (atomForm x .and true)
/-- ATOMD.OR (R262). -/
def execAtomdOr (x : Body) (s : State) : Out := atomWord .atomdOr x s (atomForm x .or true)
/-- ATOMD.XOR (R262). -/
def execAtomdXor (x : Body) (s : State) : Out := atomWord .atomdXor x s (atomForm x .xor true)
/-- ATOMD.XCHG (R262). -/
def execAtomdXchg (x : Body) (s : State) : Out := atomWord .atomdXchg x s (atomForm x .xchg true)
/-- ATOMD.CAS (R262). -/
def execAtomdCas (x : Body) (s : State) : Out := atomWord .atomdCas x s (atomForm x .cas true)
/-- ATOMD.INCW (R262). -/
def execAtomdIncw (x : Body) (s : State) : Out := atomWord .atomdIncw x s (atomForm x .incw true)
/-- REDS.ADD (R266). -/
def execRedsAdd (x : Body) (s : State) : Out := atomWord .redsAdd x s (redsForm x .add)
/-- REDS.FADD (R266). -/
def execRedsFadd (x : Body) (s : State) : Out := atomWord .redsFadd x s (redsForm x .fadd)
/-- REDS.MIN (R266). -/
def execRedsMin (x : Body) (s : State) : Out := atomWord .redsMin x s (redsForm x .min)
/-- REDS.MAX (R266). -/
def execRedsMax (x : Body) (s : State) : Out := atomWord .redsMax x s (redsForm x .max)
/-- REDS.AND (R266). -/
def execRedsAnd (x : Body) (s : State) : Out := atomWord .redsAnd x s (redsForm x .and)
/-- REDS.OR (R266). -/
def execRedsOr (x : Body) (s : State) : Out := atomWord .redsOr x s (redsForm x .or)
/-- REDS.XOR (R266). -/
def execRedsXor (x : Body) (s : State) : Out := atomWord .redsXor x s (redsForm x .xor)

end Sys2Proof.Machine
end

