-- ==== Sys2Proof/Machine/Barriers.lean ====
section
/-! DEFINITION. Waits on counters, block barriers, and gang and grid barriers (R269 to R271, R345 to R351). -/

namespace Sys2Proof.Machine

/-! ### Waiting on counters (R269) -/

/-- A seam that waits until a path's counter is at or below A. -/
def waitPath (o : Op) (x : Body) (s : State) (k : Nat) : Out :=
  wordOp o x s fun i =>
    seam x i s s (if i.ex = 0 then none else some (.path k (src s i.v x.a (lowLane i.ex)).toNat))

/-- WCNT (R269). -/
def execWcnt (x : Body) (s : State) : Out := waitPath .wcnt x s (x.aux.sSub.extractLsb' 0 3).toNat
/-- CPYW (R269): WCNT on path 2. -/
def execCpyw (x : Body) (s : State) : Out := waitPath .cpyw x s 2

/-! ### Block barriers (R270, R348) -/

/-- The barrier number in SUB[3:0]. -/
def barNum (x : Body) : Fin 16 := (x.aux.sSub.extractLsb' 0 4).toFin

/-- The issue checks of R86 on a word of the block's barrier area. -/
def barBad (b : Block) (n : Fin 16) (party : Nat) (m : BitVec 17) : Bool :=
  barIssueBad b.bars[n] party b.waves.length (b.seq.st ≠ .absent) m

/-- An arrival at a block barrier; none where it faults BARMASK (R348). -/
def barEnter (s : State) (bk : Nat) (n : Fin 16) (party : Nat) (m : BitVec 17) : Option State :=
  match s.block? bk with
  | none => none
  | some b =>
    if barBad b n party m || barMaskBad b.bars[n] m then none
    else some (s.modBlock bk fun b => barApply b n party m)

/-- The membership mask that a source holds. -/
def maskSrc (s : State) (i : Iss) (o : Option Opd) : BitVec 17 := (src s i.v o (lowLane i.ex)).extractLsb' 0 17

/-- A wave's arrival waits for an earlier commit of its other slot (R87); it passes its gate, is checked (R415, R86), and then
enters the block's order. -/
def arrive (x : Body) (i : Iss) (s : State) (k : State → State) : State :=
  if otherCommits i then stallSlot s i.w i.sl else
  match gateOne s i.v.ctx (blkStream s i.v.blk) (gridNo s i.v.grid) (i.issuer s) i.v.hash with
  | .wait s1 => stallSlot s1 i.w i.sl
  | .pass s1 => match barEnter s1 i.v.blk (barNum x) i.v.idx (maskSrc s i x.a) with
    | some s2 => k s2
    | none => takeT s i.w i.sl 0x09 i.ex 0 0

/-- BARA (R270): one arrival, whatever the lane mask; none with no executing lane (R86). -/
def execBara (x : Body) (s : State) : Out :=
  wordOp .bara x s fun i =>
    if i.ex = 0 then wordEnd x i s s id else arrive x i s fun s1 => wordEnd x i s s1 id

/-- BARW (R270). -/
def execBarw (x : Body) (s : State) : Out :=
  withWave .barw x s fun i => seam x i s s (if i.ex = 0 then none else some (.bar (barNum x).val))

/-- BARS (R270): an arrival, then the wait. -/
def execBars (x : Body) (s : State) : Out :=
  wordOp .bars x s fun i =>
    if i.ex = 0 then seam x i s s none else arrive x i s fun s1 => seam x i s s1 (some (.bar (barNum x).val))

/-! ### Gang and grid barriers (R271, R350, R351) -/

/-- A mask that names a GBLK which the gang does not hold (R271, R350). -/
def beyondGang (s : State) (g : Gang) (m : BitVec 8) : Bool :=
  (List.range 8).any fun k => m.getLsbD k && !(g.blocks.any fun b => match s.block? b with | some y => y.gblk = k | none => false)

/-- The checks of R271 on a wave's block mask. -/
def treeBad (s : State) (i : Iss) (xb : Bool) (m : BitVec 8) (b : Block) (g : Gang) : Bool :=
  let a := if xb then b.xbar else b.gbar
  let f := if xb then g.xb else g.gb
  let after : ArrWord := { a with waves := a.waves ||| BitVec.ofNat 16 (2 ^ i.v.idx) }
  m = 0 || !m.getLsbD b.gblk || beyondGang s g m || (a.waves ≠ 0 && a.bmask ≠ m) ||
  a.waves.getLsbD i.v.idx || (xb && !(match s.grid? i.v.grid with | some r => r.sync | none => false)) ||
  (blockArrives s b after && f.gmask ≠ 0 && f.gmask ≠ m)

/-- A wave's arrival at GBAR or XBAR: its bit in the block's word, and the block's arrival at the slot once the word
covers every wave that has not ended. -/
def treeEnter (s : State) (i : Iss) (xb : Bool) (m : BitVec 8) : State :=
  let add (a : ArrWord) : ArrWord := { a with bmask := m, waves := a.waves ||| BitVec.ofNat 16 (2 ^ i.v.idx) }
  let s1 := s.modBlock i.v.blk fun b => if xb then { b with xbar := add b.xbar } else { b with gbar := add b.gbar }
  match s1.block? i.v.blk with
  | some b => if blockArrives s1 b (if xb then b.xbar else b.gbar) then treeArrive s1 i.v.blk xb else s1
  | none => s1

/-- GBAR and XBAR (R271). -/
def treeWord (o : Op) (x : Body) (s : State) (xb : Bool) : Out :=
  wordOp o x s fun i =>
    if i.ex = 0 then seam x i s s none else
    -- after every earlier commit of the wave
    if otherCommits i then stallSlot s i.w i.sl else
    let m : BitVec 8 := (src s i.v x.a (lowLane i.ex)).extractLsb' 0 8
    match s.block? i.v.blk with
    | none => seam x i s s none
    | some b => match s.gang? b.gang with
      | none => seam x i s s none
      | some g =>
        if treeBad s i xb m b g then takeT s i.w i.sl 0x09 i.ex 0 0
        else
          let p := (if xb then b.xbar else b.gbar).phase.toNat
          seam x i s (treeEnter s i xb m) (some (if xb then .xbar p else .gbar p))

/-- GBAR (R271). -/
def execGbar (x : Body) (s : State) : Out := treeWord .gbar x s false
/-- XBAR (R271). -/
def execXbar (x : Body) (s : State) : Out := treeWord .xbar x s true

end Sys2Proof.Machine
end

