-- ==== Sys2Proof/Machine/Copies.lean ====
section
/-! DEFINITION. CPY and CPYQ (R272 to R274): what a copy is at issue. Its lines are events. -/

namespace Sys2Proof.Machine

/-- One copy of an instruction: source, destination and length. -/
structure CopyReq where
  src : Nat
  dst : Nat
  len : Nat
deriving DecidableEq, Repr

/-- DIR, ARV and the barrier number of a copy word (R272). -/
def cpyDir (x : Body) : Nat := (x.aux.mSub.extractLsb' 0 2).toNat
def cpyArv (x : Body) : Bool := x.aux.mSub.getLsbD 2
def cpyBar (x : Body) : Fin 16 := (x.aux.mSub.extractLsb' 3 4).toFin

/-- The copy of one lane (R272): the device address, the other side, the length. -/
def copyReq (x : Body) (i : Iss) (s : State) (dev l : Nat) : CopyReq :=
  let b := src s i.v x.b l
  let off : VA := if o64c x.md && !x.aux.mXp then (src64 s i.v x.b l).signExtend 72 else b.signExtend 72
  let len := (src s i.v x.c l).toNat
  match cpyDir x with
  | 0 => ⟨dev, b.toNat, len⟩
  | 1 => ⟨b.toNat, dev, len⟩
  | _ => ⟨dev, (i.v.base x.aux.mBase + off).toNat, len⟩

/-- The scratchpad range of R248 over a whole copy (R274). -/
def copyInRange (s : State) (i : Iss) (dir : Nat) (q : CopyReq) : Bool :=
  let size := scratchSize s i.v.grid
  q.len = 0 || (match dir with | 0 => q.dst + q.len ≤ size | 1 => q.src + q.len ≤ size | _ => true)

/-- Adds the copies of one instruction; the last one carries the arrival, if there is one (R273). -/
def addCopies (i : Iss) (s : State) (dir : Nat) (arr : Option (Nat × BitVec 17)) (l : List CopyReq) : State :=
  let real := l.filter fun q => q.len ≠ 0
  let l1 := if real = [] && arr.isSome then [⟨0, 0, 0⟩] else real
  let n := l1.length
  let mk (y : CopyReq × Nat) : Nat × Copy :=
    (s.nextId + y.2,
     { wave := i.w, slot := i.sl, blk := i.v.blk, ctx := i.v.ctx, pc := i.slot.pc, dir, src := y.1.src, dst := y.1.dst
       len := y.1.len, done := 0, group := s.nextId, arrive := if y.2 + 1 = n then arr else none, parked := none
       counted := y.1.len ≠ 0, place := i.v.place, issuer := issuer s i.v 126, hash := i.v.hash })
  { s with
    copies := (l1.zipIdx.map mk).foldl (fun (m : KMap Copy) (y : Nat × Copy) => kput m y.1 y.2) s.copies
    nextId := s.nextId + n }.modWave i.w fun v => v.addPath 2 real.length

/-- Issues copies: the barrier checks of R126, the counter, the range, then the PENDING bit (R251, R274). One that carries an
arrival waits for an earlier commit of the other slot (R87, R127). -/
def copyIssue (x : Body) (i : Iss) (s : State) (l : List (Nat × CopyReq)) : State :=
  let dir := cpyDir x
  let n := cpyBar x
  let m : BitVec 17 := match x.d with | some o => (srcAt s i.v o 0 0).extractLsb' 0 17 | none => 0
  let bad := cpyArv x && (match s.block? i.v.blk with | some b => barBad b n i.v.idx m | none => true)
  let outs := l.filter fun y => !copyInRange s i dir y.2
  if cpyArv x && otherCommits i then stallSlot s i.w i.sl
  else if bad then takeT s i.w i.sl 0x09 i.ex 0 0
  else if 4095 < i.v.path 2 + (l.filter fun y => y.2.len ≠ 0).length then capSlot s i.w i.sl
  else match outs with
    | y :: _ => takeT s i.w i.sl 0x0C (maskOf fun k => outs.any fun z => z.1 = k) (if dir = 0 then y.2.dst else y.2.src) 0
    | [] =>
      let s1 := if cpyArv x then s.modBlock i.v.blk fun b =>
          { b with bars := b.bars.set n { b.bars[n] with pending := b.bars[n].pending ||| BitVec.ofNat 17 (2 ^ i.v.idx) } }
        else s
      wordEnd x i s (addCopies i s1 dir (if cpyArv x then some (n.val, m) else none) (l.map Prod.snd)) id

/-- The sources of a copy: B, C, and the mask Wk of its arrival (R251, R272). -/
def copyNeeds (x : Body) (i : Iss) : List Need :=
  needs i.op x i.ex ++ (if cpyArv x then (match x.d.bind opdEnt with | some e => [⟨e, 1, i.ex, false⟩] | none => []) else [])

/-- CPY (R272, R273): one copy, if at least one lane executes. -/
def execCpy (x : Body) (s : State) : Out :=
  withWave .cpy x s fun i => checked i s (copyNeeds x i)
    (if i.ex = 0 then wordEnd x i s s id else
    let l := lowLane i.ex
    copyIssue x i s [(l, copyReq x i s (i.v.base x.aux.mBase + x.aux.mImm.signExtend 72).toNat l)])

/-- CPYQ (R272, R273): one copy per executing lane that is no helper lane, in lane order. -/
def execCpyq (x : Body) (s : State) : Out :=
  withWave .cpyq x s fun i => checked i s (copyNeeds x i)
    (if i.ex = 0 then wordEnd x i s s id else
    copyIssue x i s ((lanesOf i.real).map fun l => (l, copyReq x i s (memEa s x i.v (o64c x.md) l) l)))

end Sys2Proof.Machine
end

