-- ==== Sys2Proof/Machine/Phases.lean ====
section
/-! DEFINITION. Requests as they act at their level (R103, R105), deterministic phases (R106, R107, R267) and versioned
scalars (R135, R275). -/

namespace Sys2Proof.Machine

/-! ### One request at its level -/

/-- The bytes that a request changes at the device level or in a gang's pool. -/
def Req.size (r : Req) : Nat := if r.wide then 8 else 4

/-- The value at which a request acts: a scalar's OPEN half, the gang level, or the byte's home. -/
def reqOld (s : State) (r : Req) : Nat :=
  match r.at_ with
  | .scalar n => (match s.ctx? r.ctx with | some c => ((c.vsOpen.toList[n]?).getD 0).toNat | none => 0)
  | .dev pa => devNat s r.ctx pa r.size
  | .gang g va pa => leNat ((List.range r.size).map fun j =>
      match (s.gang? g).bind fun g => kget g.pool (va + j) with
      | some b => b
      | none => devByte s r.ctx (pa + j))

/-- Writes a request's result at its level as one entry of the issuing wave. -/
def reqWrite (s : State) (r : Req) (nw : Nat) : CRes :=
  match r.at_ with
  | .scalar n => .ok (s.modCtx r.ctx fun c =>
      if h : n < 16 then { c with vsOpen := c.vsOpen.set n (BitVec.ofNat 32 nw) } else c)
  | .dev pa => .ok { devEntry s r.ctx (some r.wave) (bytesAt pa r.size nw) with free := s.free + 1 }
  | .gang g va _ => enterGang s g r.wave (some r.wave) (bytesAt va r.size nw)

/-- A request acts (R263): the old value, and what its entry gives. -/
def applyReq (s : State) (r : Req) : Nat × CRes :=
  let old := reqOld s r
  match atomNew r.op r.ty r.wide old r.b.toNat r.c.toNat with
  | none => (old, .ok s)
  | some nw => (old, reqWrite s r nw)

/-! ### Deterministic phases -/

/-- Rank of a held request (R106): issuer index, then issue sequence. -/
def rankLt (a b : Req) : Bool := a.issuer.toNat < b.issuer.toNat || (a.issuer = b.issuer && a.seqNo < b.seqNo)

/-- Inserts a request by rank. -/
def rankInsert (r : Req) : List Req → List Req
  | [] => [r]
  | x :: t => if rankLt r x then r :: x :: t else x :: rankInsert r t

/-- Requests in ascending rank. -/
def byRank (l : List Req) : List Req := l.foldl (fun a r => rankInsert r a) []

/-- Applies requests in turn; a held request fits its home, so every application is done. -/
def applyAll (s : State) (l : List Req) : State :=
  l.foldl (fun s r => match (applyReq s r).2 with | .ok s1 => s1 | _ => s) s

/-- One porter applies a context's held requests and then its overflowed ones, each in ascending rank (R107). -/
def closePorter (c : Nat) (s : State) (cl : Nat) : State :=
  let k := s.cluster cl
  let mine (l : List Req) : List Req := l.filter fun r => r.ctx = c
  let rest (l : List Req) : List Req := l.filter fun r => r.ctx ≠ c
  (applyAll s (byRank (mine k.held) ++ byRank (mine k.ovf))).modCluster cl fun k =>
    { k with held := rest k.held, ovf := rest k.ovf, ovfAddrs := k.ovfAddrs.filter fun y => y.1 ≠ c }

/-- Some held request of a context acts at a staged byte, for which the closing waits (R114). -/
def closeWaits (s : State) (c : Nat) : Bool :=
  s.clusters.any fun k => (k.2.held ++ k.2.ovf).any fun r => r.ctx = c && (match r.span with
    | some (a, n) => (List.range n).any fun j => stagedByte s (a + j)
    | none => false)

/-- The closing entry of a context's phase (R107): every porter applies its share, and a non-zero dropped count is a
divergence in replay (R416). -/
def closePhase (s : State) (c : Nat) : State :=
  let dropped := match s.ctx? c with | some x => x.dropped | none => 0
  let replay := match s.ctx? c with | some x => x.rec_.mode = 2 | none => false
  let s1 := (kfind s.clusters fun _ _ => true).foldl (closePorter c) s
  let s2 := s1.modCtx c fun x => { x with phase := false, dropped := 0 }
  if replay && dropped ≠ 0 then diverge s2 c 5 0 0 0 0 0 (BitVec.ofNat 64 dropped) else s2

/-- DPHASE.OPEN (R267): an opening while the phase is open is ignored. -/
def execDphaseOpen (x : Body) (s : State) : Out :=
  wholeOp .dphaseOpen x s fun i =>
    wordEnd x i s (s.modCtx i.v.ctx fun c => if c.phase then c else { c with phase := true, dropped := 0 }) id

/-- DPHASE.CLOSE (R267): it waits for the wave's held-class requests to reach their porters; the dropped count goes to D,
0 where the phase was shut. -/
def execDphaseClose (x : Body) (s : State) : Out :=
  wholeOp .dphaseClose x s fun i =>
    -- meanwhile the other slot issues no load, store or atomic
    if (s.hall.any fun r => r.wave = i.w && r.holds) || closeWaits s i.v.ctx then setEntry (stallSlot s i.w i.sl) i.w i.sl (some closeEntry)
    else match s.ctx? i.v.ctx with
      | none => endWith x i s s 0
      | some c =>
        if c.phase then endWith x i s (closePhase s i.v.ctx) (BitVec.ofNat 32 c.dropped) else endWith x i s s 0

/-! ### Versioned scalars (R275) -/

/-- One lane's VSRED request into OPEN of a scalar: its porter is that of cluster n of die 0 (R135). -/
def vsReq (x : Body) (i : Iss) (s : State) (y : Nat × Nat) : Req :=
  let n := x.aux.vIdx
  { id := s.nextId + y.2, ctx := i.v.ctx, wave := i.w, slot := i.sl, lane := y.1, pc := i.slot.pc
    issuer := issuer s i.v y.1, seqNo := s.nextId + y.2, home := n, at_ := .scalar n
    op := if x.ty = .f32 then .fadd else .add, ty := x.ty, wide := false
    b := BitVec.ofNat 64 (atomSrc s i.v (if x.ty = .f32 then .fadd else .add) false x.b y.1), c := 0
    ret := none, holds := true, acq := false, hash := i.v.hash, first := i.issuer s }

/-- VSRED (R275). -/
def execVsred (x : Body) (s : State) : Out :=
  wordOp .vsred x s fun i =>
    let l := lanesOf i.real
    wordEnd x i s { s with hall := s.hall ++ l.zipIdx.map (vsReq x i s), nextId := s.nextId + l.length } id

/-- VSRD (R275): SHUT, as at its issue, into D. -/
def execVsrd (x : Body) (s : State) : Out :=
  wholeOp .vsrd x s fun i =>
    if 4095 ≤ i.v.path 3 then capSlot s i.w i.sl else
    let m := match x.d with | some (.w _) => laneBit (lowLane i.ex) | _ => i.ex
    let v : Word := match s.ctx? i.v.ctx with | some c => (c.vsShut.toList[x.aux.vIdx]?).getD 0 | none => 0
    wordEnd x i s (openRet x i false m ((lanesOf m).map fun l => (l, v.setWidth 64)) s) id

/-- VSCL (R275): SHUT := OPEN, OPEN := 0, after every earlier VSRED of the wave has been served or held. -/
def execVscl (x : Body) (s : State) : Out :=
  wholeOp .vscl x s fun i =>
    let waits := s.hall.any fun r => r.wave = i.w && (match r.at_ with | .scalar _ => true | _ => false)
    if waits then stallSlot s i.w i.sl else
    let n := x.aux.vIdx
    wordEnd x i s (s.modCtx i.v.ctx fun c =>
      if h : n < 16 then { c with vsShut := c.vsShut.set n c.vsOpen[n], vsOpen := c.vsOpen.set n 0 } else c) id

end Sys2Proof.Machine
end

