-- ==== Sys2Proof/Machine/Matrix.lean ====
section
/-! DEFINITION. The matrix sequencer's words and the wave's words that reach the matrix unit (R277 to R294), with the
arithmetic of the unit (R156, R157). -/

namespace Sys2Proof.Machine

/-! ### Operand buffer (R146, R147, R281) -/

/-- A free handle. -/
def Resv.free : Resv := ⟨0, 0, 0, false, 0, .u32⟩
/-- A handle's record. -/
def handle (b : Block) (h : Nat) : Resv := (b.handles.toList[h]?).getD .free
/-- K-steps that a range holds. -/
def Resv.ks (r : Resv) : Nat := r.len / fmtBits r.fmt
/-- Block length L; 0 where the range is unscaled. -/
def Resv.blkLen (r : Resv) : Nat := match r.blk with | 1 => 16 | 2 => 32 | 3 => 64 | _ => 0
/-- K-blocks of the scale area: ⌈32·KS ÷ L⌉. -/
def Resv.kblocks (r : Resv) : Nat := if r.blkLen = 0 then 0 else (32 * r.ks + r.blkLen - 1) / r.blkLen
/-- The byte ranges of a reservation: its planes and its scale records, as (start, length). -/
def Resv.spans (r : Resv) : List (Nat × Nat) :=
  (128 * r.base, 128 * r.len) :: (if r.blkLen = 0 then [] else [(8 * r.soff, 256 * r.kblocks)])
/-- Two byte ranges meet. -/
def spansMeet (a b : Nat × Nat) : Bool := a.1 < b.1 + b.2 && b.1 < a.1 + a.2

/-- A byte of the operand buffer. -/
def obufByte (b : Block) (a : Nat) : Byte := kgetD b.obuf a 0
/-- Writes a byte of the operand buffer. -/
def obufPut (m : KMap Byte) (a : Nat) (v : Byte) : KMap Byte := if v = 0 then kdel m a else kput m a v

/-- The place of bit (row, k) of plane p of a range: byte and bit (R146). -/
def planeBit (r : Resv) (t p row k : Nat) : Nat × Nat :=
  (128 * r.base + 128 * (fmtBits r.fmt * t + p) + 4 * row + k / 8, k % 8)

/-- The code of element (row, 32t + k) of a range. -/
def planeCode (b : Block) (r : Resv) (t row k : Nat) : Nat :=
  (List.range (fmtBits r.fmt)).foldl (fun n p =>
    let y := planeBit r t p row k
    if (obufByte b y.1).getLsbD y.2 then n + 2 ^ p else n) 0

/-- Writes the code of one element into the planes. -/
def planePut (r : Resv) (t row k code : Nat) (m : KMap Byte) : KMap Byte :=
  (List.range (fmtBits r.fmt)).foldl (fun m p =>
    let y := planeBit r t p row k
    let o := kgetD m y.1 0
    let one : Byte := BitVec.ofNat 8 (2 ^ y.2)
    obufPut m y.1 (if code.testBit p then o ||| one else o &&& ~~~one)) m

/-- The place of the scale record of a row and K-block (R147). -/
def scaleAt (r : Resv) (kb row : Nat) : Nat := 8 * r.soff + 8 * (32 * kb + row)

/-- Writes a scale record, its reserved bits zero (R143). -/
def scalePut (r : Resv) (kb row rec_ : Nat) (m : KMap Byte) : KMap Byte :=
  (bytesAt (scaleAt r kb row) 8 (rec_ % 2 ^ 40)).foldl (fun m y => obufPut m y.1 y.2) m

/-- The scale record that governs K index k of a row: SCALE and SPECIAL; 1.0 and 0x80 where unscaled (R143). -/
def scaleOf (b : Block) (r : Resv) (k row : Nat) : Nat × Nat :=
  if r.blkLen = 0 then (0x3F800000, 0x80) else
  let a := scaleAt r (k / r.blkLen) row
  (leNat ((List.range 4).map fun j => obufByte b (a + j)), (obufByte b (a + 4)).toNat)

/-! ### Tiles and the unit's arithmetic (R132, R156, R157) -/

def Tile.lost : Tile := ⟨.lost, 0, 0, []⟩
def tile (b : Block) (t : Nat) : Tile := kgetD b.tiles t .lost
def modTile (b : Block) (t : Nat) (f : Tile → Tile) : Block := { b with tiles := kput b.tiles t (f (tile b t)) }
/-- An element's code in a tile; the key is 32 × row + column. -/
def Tile.elem (t : Tile) (i j : Nat) : Word := kgetD t.elems (32 * i + j) 0
/-- Writes elements; the list holds no zero. -/
def Tile.put (t : Tile) (l : List (Nat × Word)) : Tile :=
  { t with elems := l.foldl (fun m y => if y.2 = 0 then kdel m y.1 else kput m y.1 y.2) t.elems }

/-- The exact value of an element of a range (R140 to R142). -/
def elemVal (b : Block) (r : Resv) (t row k : Nat) : Val :=
  let c := planeCode b r t row k
  if isFloat r.fmt then decodeSv r.fmt c (scaleOf b r (32 * t + k) row).2 else .ofInt (decodeI r.fmt c)

/-- The runs of a K-step: halves where a block length is 16 (R156). -/
def runsOf (ra rb : Resv) : List (List Nat) :=
  if ra.blkLen = 16 || rb.blkLen = 16 then [List.range 16, (List.range 16).map (· + 16)] else [List.range 32]

/-- MatrixStep (R156): the new accumulator of one element; every NaN is 0x7FC00000 (R157). -/
def matrixStep (b : Block) (ra rb : Resv) (kP : Word) (t i j : Nat) (acc : Word) : Word :=
  let runs := (runsOf ra rb).map fun r =>
    let sum := Val.sum false (r.map fun k =>
      if kP.getLsbD k then (elemVal b ra t i k).mul (elemVal b rb t j k) else .zero false)
    let k0 := 32 * t + (r.head?).getD 0
    sum.mul ((decodeF .f32 (scaleOf b ra k0 i).1).mul (decodeF .f32 (scaleOf b rb k0 j).1))
  let v := Val.sum false [decodeF .f32 acc.toNat, Val.sum false runs]
  if v.isNan then 0x7FC00000 else BitVec.ofNat 32 (rnF32 v)

/-- The elements that the row and column predicates keep. -/
def keptElems (rowP colP : Word) : List (Nat × Nat) :=
  ((List.range 32).filter fun i => rowP.getLsbD i).flatMap fun i => ((List.range 32).filter fun j => colP.getLsbD j).map fun j => (i, j)

/-- A queued step's effect on its tile (R285, R286). An MMA reads its ranges at this one point, as OBST and MLD write theirs
at one point: where they race, every 16 × 4 group falls on the same side (R131, log 63). -/
def matApply (b : Block) (m : MatStep) : Tile :=
  let t := tile b m.tile
  let kept := keptElems m.rowP m.colP
  if m.zero then (if m.lostStart then { t with elems := [] } else t.put (kept.map fun y => (32 * y.1 + y.2, 0)))
  else
    let ra := handle b m.oa
    let rb := handle b m.ob
    t.put (kept.map fun y => (32 * y.1 + y.2,
      (List.range m.n).foldl (fun acc st => matrixStep b ra rb m.kP st y.1 y.2 acc) (t.elem y.1 y.2)))

/-- Accumulator elements as watch units see them: their indices in their space (R303). -/
def elemsSeen (t : Nat) (l : List (Nat × Nat)) (write : Bool) : List (Nat × Nat × Nat × Nat × Bool) :=
  l.map fun y => (0, 2, 1024 * t + 32 * y.1 + y.2, 1, write)

/-- What the matrix unit touches as it performs a step (R303, R396): an MMA reads and writes the elements it keeps, an MZA
writes them, and every one of a tile that was LOST. -/
def matSeen (m : MatStep) : List (Nat × Nat × Nat × Nat × Bool) :=
  if m.zero then elemsSeen m.tile (if m.lostStart then keptElems (BitVec.allOnes 32) (BitVec.allOnes 32) else keptElems m.rowP m.colP) true
  else elemsSeen m.tile (keptElems m.rowP m.colP) false ++ elemsSeen m.tile (keptElems m.rowP m.colP) true

/-! ### The sequencer's words -/

/-- The core number of a block. -/
def blockCore (b : Block) : Nat := 8 * (16 * b.die + b.cl) + b.core
/-- The core's matrix queue. -/
def matQueue (s : State) (b : Block) : List MatStep := kgetD s.matrix (blockCore b) []
/-- The block's operand area in bytes (R277, R320). -/
def obufSize (s : State) (b : Block) : Nat := match descOf s b.grid with | some d => 16384 * d.obk | none => 0

/-- A queued MMA of the block reads the range of a handle (R279). -/
def readPending (s : State) (i : SIss) (h : Nat) : Bool :=
  (matQueue s i.b).any fun m => m.blk = i.bk && !m.zero && (m.oa = h || m.ob = h)

/-- Changes the block and ends the word. -/
def seqEnd (s : State) (i : SIss) (f : Block → Block) : State := seqDone (s.modBlock i.bk f) i [] []

/-- The issuer of a sequencer's logged entry: the block's wave 0 with LANE = 127 (R410). -/
def seqIssuer (s : State) (i : SIss) : Word :=
  let g := match s.gang? i.b.gang with | some g => g.idx | none => 0
  BitVec.ofNat 32 (g * 2 ^ 14 + i.b.gblk % 8 * 2 ^ 11 + 127)

/-- Passes a sequencer's entry through its block's gate (R410, R415). -/
def seqGated (s : State) (i : SIss) (k : State → State) : State :=
  match gateOne s i.b.ctx (blkStream s i.bk) (gridNo s i.b.grid) (seqIssuer s i) 0 with
  | .wait s1 => seqWait s1 i.bk
  | .pass s1 => k s1

/-- MRES (R282). -/
def execMres (x : Body) (s : State) : Out :=
  withSeq s fun i =>
    let h := seqIdx x.d
    let base := (seqSrc i.b x.a).toNat
    let len := (seqSrc i.b x.b).toNat
    let blk := (x.aux.qSub.extractLsb' 0 2).toNat
    let soff := if blk = 0 then 0 else (seqSrc i.b x.c).toNat
    let r : Resv := ⟨soff, len, base, true, blk, x.ty⟩
    let size := obufSize s i.b
    let beyond := r.spans.any fun y => size < y.1 + y.2
    let overlap := (List.range 32).any fun k => (handle i.b k).live && r.spans.any fun y => (handle i.b k).spans.any (spansMeet y)
    if (handle i.b h).live || len = 0 || len % fmtBits x.ty ≠ 0 || beyond || overlap then seqFault s i.bk 0x0F 0
    else seqEnd s i fun b => if hh : h < 32 then { b with handles := b.handles.set h r } else b

/-- MREL (R283): waits for MMAs that read the range (R279). -/
def execMrel (x : Body) (s : State) : Out :=
  withSeq s fun i =>
    let h := seqIdx x.d
    if (handle i.b h).live && readPending s i h then seqWait s i.bk
    else seqEnd s i fun b => if hh : h < 32 then { b with handles := b.handles.set h { handle b h with live := false } } else b

/-- A byte of scratchpad as of the snapshot point (R129, R130). -/
def snapByte (b : Block) (off : Nat) : Byte :=
  match kget b.pre (off / 64) with
  | some ((_, l) :: _) => (l[off % 64]?).getD 0
  | _ => scratchByte b off

/-- n bits from a bit address of scratchpad, as of the snapshot point, little-endian (R145). -/
def snapBits (b : Block) (bit n : Nat) : Nat :=
  leNat ((List.range ((bit % 8 + n + 7) / 8)).map fun j => snapByte b (bit / 8 + j)) / 2 ^ (bit % 8) % 2 ^ n

/-- MLD (R284): bits of a 32 × 32 tile, or 32 scale records, into a handle's range. -/
def execMld (x : Body) (s : State) : Out :=
  withSeq s fun i =>
    let h := seqIdx x.d
    let r := handle i.b h
    let tr := x.aux.qSub.getLsbD 0
    let sc := x.aux.qSub.getLsbD 1
    let a := (seqSrc i.b x.a).toNat
    let p := (seqSrc i.b x.b).toNat
    let c := (seqSrc i.b x.c).toNat
    let w := fmtBits r.fmt
    let size := scratchSize s i.b.grid
    let rows := if sc then [(a, 256)] else (List.range 32).map fun n => (a + n * p, 4 * w)
    if !r.live || (if sc then r.kblocks ≤ c else r.ks ≤ c) then seqFault s i.bk 0x0F 0
    else if a % 4 ≠ 0 || (!sc && p % 4 ≠ 0) then seqFault s i.bk 0x0B a
    else if rows.any fun y => size < y.1 + y.2 then seqFault s i.bk 0x0C a
    else if readPending s i h then seqWait s i.bk
    else
      let mem := rows.map fun y => (0, 1, y.1, y.2, false)
      let put (b : Block) : KMap Byte :=
        if sc then (List.range 32).foldl (fun m row => scalePut r c row (snapBits b (8 * (a + 8 * row)) 64) m) b.obuf
        else (List.range 32).foldl (fun m row => (List.range 32).foldl (fun m k =>
          planePut r c row k (snapBits b (if tr then 8 * (a + k * p) + row * w else 8 * (a + row * p) + k * w) w) m) m) b.obuf
      seqDone (s.modBlock i.bk fun b => { b with obuf := put b }) i mem []

/-- Queues a step on a tile (R132, R278): a full queue of 8 makes the sequencer wait. -/
def queueStep (s : State) (i : SIss) (t : Nat) (m : MatStep) : State :=
  if 8 ≤ (matQueue s i.b).length then seqWait s i.bk else
  seqEnd { s with matrix := kput s.matrix (blockCore i.b) (matQueue s i.b ++ [m]) } i fun b =>
    modTile b t fun y => { y with st := .empty, queued := y.queued + 1 }

/-- MMA (R285). -/
def execMma (x : Body) (s : State) : Out :=
  withSeq s fun i =>
    let t := seqIdx x.d
    let oa := seqIdx x.a
    let ob := seqIdx x.b
    let n := (seqSrc i.b x.c).toNat
    let a := handle i.b oa
    let b := handle i.b ob
    let k := i.b.seq
    if n = 0 then seqEnd s i id
    else if !a.live || !b.live || a.ks < n || b.ks < n then seqFault s i.bk 0x0F 0
    else if (tile i.b t).st = .lost then seqFault s i.bk 0x05 0
    else if (tile i.b t).holds ≠ 0 then seqFault s i.bk 0x0E 0
    else queueStep s i t ⟨i.bk, t, false, oa, ob, n, k.rowP, k.colP, k.kP, false, k.pc, 0⟩

/-- MZA (R286). -/
def execMza (x : Body) (s : State) : Out :=
  withSeq s fun i =>
    let t := seqIdx x.d
    let k := i.b.seq
    if (tile i.b t).holds ≠ 0 then seqFault s i.bk 0x0E 0
    else queueStep s i t ⟨i.bk, t, true, 0, 0, 0, k.rowP, k.colP, k.kP, (tile i.b t).st = .lost, k.pc, 0⟩

/-- MPRED (R287). -/
def execMpred (x : Body) (s : State) : Out :=
  withSeq s fun i => seqEnd s i fun b => { b with seq := { b.seq with
    rowP := seqSrc i.b x.a, colP := seqSrc i.b x.b, kP := seqSrc i.b x.c } }

/-- The barrier number in SUB[3:0] of a sequencer word (R288). -/
def seqBar (x : Body) : Fin 16 := (x.aux.qSub.extractLsb' 0 4).toFin

/-- MSIG (R288): one arrival of party 16. -/
def execMsig (x : Body) (s : State) : Out :=
  withSeq s fun i => seqGated s i fun s1 =>
    match barEnter s1 i.bk (seqBar x) 16 ((seqSrc i.b x.a).extractLsb' 0 17) with
    | some s2 => seqDone s2 i [] []
    | none => seqFault s i.bk 0x09 0

/-- MWAIT (R129, R130, R288): returns at once, or ends the window and waits for the completing arrival. -/
def execMwait (x : Body) (s : State) : Out :=
  withSeq s fun i =>
    let n := seqBar x
    if barWaits i.b.bars[n] 16 then
      -- with every wave ended it is stopped there (R291)
      blockLastWave (watchSeq (s.modBlock i.bk fun b => endWindow { b with seq := { b.seq with st := .waitBar n.val } }) i.bk (seqSeen s i) (seqSeen s i) i.b.seq.pc) i.bk
    else seqEnd s i fun b => moveSnap b n

/-- Writes a Q register. -/
def setQ (b : Block) (o : Option Opd) (v : Word) : Block :=
  match o with
  | some (.q k) => { b with seq := { b.seq with q := b.seq.q.set k.val v } }
  | _ => b

/-- The sequencer goes to a target (R169). -/
def seqBranch (x : Body) (s : State) (i : SIss) (f : Block → Block) : State :=
  watchSeq (seqJump (s.modBlock i.bk f) i.bk (i.b.seq.pc + x.aux.qTgt.signExtend 32 * 16)) i.bk (seqSeen s i) (seqSeen s i) i.b.seq.pc

/-- MLOOP.DEC (R289). -/
def execMloopDec (x : Body) (s : State) : Out :=
  withSeq s fun i =>
    let v := seqSrc i.b x.d - 1
    if v ≠ 0 then seqBranch x s i fun b => setQ b x.d v else seqEnd s i fun b => setQ b x.d v

/-- MLOOP.JMP (R289). -/
def execMloopJmp (x : Body) (s : State) : Out := withSeq s fun i => seqBranch x s i id

/-- MLOOP.SET (R289). -/
def execMloopSet (x : Body) (s : State) : Out := withSeq s fun i => seqEnd s i fun b => setQ b x.d (seqSrc i.b x.a)

/-- MLOOP.ADD (R289). -/
def execMloopAdd (x : Body) (s : State) : Out :=
  withSeq s fun i => seqEnd s i fun b => setQ b x.d (seqSrc i.b x.d + seqSrc i.b x.a)

/-- The bytes of an MST, by element in row order. -/
def mstBytes (x : Body) (i : SIss) (t : Tile) (off pitch : Nat) : List (Nat × List Byte) :=
  let w := fmtBits x.ty / 8
  (keptElems i.b.seq.rowP i.b.seq.colP).map fun y =>
    let a := if x.aux.qSub.getLsbD 0 then off + y.2 * pitch + y.1 * w else off + y.1 * pitch + y.2 * w
    (a, leBytes w (roundTo (decodeF .f32 (t.elem y.1 y.2).toNat) x.ty (rmOf x.md) (satOf x.md) 0).1)

/-- Puts one byte of an MST. Where elements overlap the manual does not say whose byte stands: a free value says whether
a further one replaces it (log 6). -/
def mstByte (a : State × KMap Byte) (y : Nat × Byte) : State × KMap Byte :=
  if (kget a.2 y.1).isNone then (a.1, kput a.2 y.1 y.2) else
  let d := a.1.draw
  (d.2, if d.1.getLsbD 0 then kput a.2 y.1 y.2 else a.2)

/-- MST (R290): waits until its tile is FULL, then enters the block level at one point; a full pre-image store is WBCAP
(R130). -/
def execMst (x : Body) (s : State) : Out :=
  withSeq s fun i =>
    let n := seqIdx x.a
    let t := tile i.b n
    let off := (seqSrc i.b x.b).toNat
    let pitch := (seqSrc i.b x.c).toNat
    let w := fmtBits x.ty / 8
    let l := mstBytes x i t off pitch
    if off % w ≠ 0 || pitch % w ≠ 0 then seqFault s i.bk 0x0B off
    else if l.any fun y => scratchSize s i.b.grid < y.1 + w then seqFault s i.bk 0x0C off
    else if t.st = .lost then seqFault s i.bk 0x05 0
    else if t.st = .empty then seqWait s i.bk
    else if !preRoom i.b (l.map Prod.fst) then seqFault s i.bk 0x0A 0
    else seqGated s i fun s1 =>
      let r := ((l.map fun y => y.2.zipIdx.map fun z => (y.1 + z.2, z.1)).flatten).foldl mstByte (s1, [])
      seqDone (enterScratch r.1 i.bk r.2) i
        (l.map (fun y => (0, 1, y.1, w, true)) ++
         elemsSeen n (keptElems i.b.seq.rowP i.b.seq.colP) false)
        (l.map fun y => (0, BitVec.ofNat 32 (leNat y.2)))

/-- MEND (R291): the sequencer stops, and a block whose waves have ended retires. -/
def execMend (_ : Body) (s : State) : Out :=
  withSeq s fun i =>
    let s1 := watchSeq (s.modBlock i.bk fun b => endWindow { b with seq := { b.seq with st := .ended } }) i.bk (seqSeen s i) (seqSeen s i) i.b.seq.pc
    blockRetire s1 i.bk

/-! ### OBST and ACRD (R293, R294) -/

/-- Entries that an OBST reads, by the handle's format (R293). -/
def obstSpan (r : Resv) (sc : Bool) : Nat := if sc then 2 else 16 / perEntry r.fmt

/-- The number of entries of a wave's level: M has the kernel's allotment (R20). -/
def levelSize (s : State) (g : Nat) : Opd → Nat
  | .h _ => 8
  | .n _ => 32
  | .m _ => match descOf s g with | some d => 16 * d.mbanks | none => 0
  | _ => 0
/-- An operand's index in its level. -/
def opdIdx : Opd → Nat
  | .h i => i.val
  | .n i => i.val
  | .m i => i.val
  | _ => 0

/-- The lanes in which an OBST reads its entries: those of a scale record, or every one (R293). -/
def obstLanes (x : Body) (i : Iss) : Mask := if x.aux.xBits.getLsbD 5 then i.ex &&& 0xFFFFFFFF else i.ex

/-- The sources of an OBST: every entry that it reads, and B (R51, R293). Of a handle that is not live, and of a span that
leaves its level, the entries that exist are checked, before OBRANGE (R164, log 25). -/
def obstNeeds (s : State) (x : Body) (i : Iss) : List Need :=
  let r := match s.block? i.v.blk with | some b => handle b (x.aux.xBits.extractLsb' 0 5).toNat | none => Resv.free
  let room := match x.a with | some a => levelSize s i.v.grid a - opdIdx a | none => 0
  let n := if r.live then obstSpan r (x.aux.xBits.getLsbD 5) else 1
  ⟨((x.a.bind opdEnt).getD 0), min n room, obstLanes x i, x.eb.getLsbD 2⟩ ::
    needOf (uni1) x.b i.ex (x.eb.getLsbD 1)

/-- OBST (R293). -/
def execObst (x : Body) (s : State) : Out :=
  withWave .obst x s fun i =>
    match x.a, s.block? i.v.blk with
    | some a, some b =>
      let sc := x.aux.xBits.getLsbD 5
      let r := handle b (x.aux.xBits.extractLsb' 0 5).toNat
      let c := (src s i.v x.b (lowLane i.ex)).toNat
      let span := obstSpan r sc
      let bad := !r.live || (if sc then r.kblocks ≤ c else r.ks ≤ c) || levelSize s i.v.grid a < opdIdx a + span
      let m := obstLanes x i
      let e := (opdEnt a).getD 0
      let w := fmtBits r.fmt
      if i.ex = 0 then wordEnd x i s s id
      else checked i s (obstNeeds s x i)
        (if bad then takeT s i.w i.sl 0x0F i.ex 0 0 else
         let entry (l j : Nat) : Nat := (i.v.cell (e + j) l).val.toNat
         let put (o : KMap Byte) : KMap Byte := (lanesOf m).foldl (fun o l =>
          if sc then scalePut r c l (entry l 0 + 2 ^ 32 * entry l 1) o
          else (List.range 16).foldl (fun o j =>
            let n := perEntry r.fmt
            planePut r c (l % 32) (16 * (l / 32) + j) (entry l (j / n) / 2 ^ (w * (j % n)) % 2 ^ w) o) o) o
         wordEnd x i s (s.modBlock i.v.blk fun b => { b with obuf := put b.obuf }) id)
    | _, _ => wordEnd x i s s id

/-- What an ACRD shows to watch units: the elements that each lane reads (R303). -/
def acrdSeen (i : Iss) (t s0 n : Nat) (k : Seen) : Seen :=
  { k with mem := k.mem ++ ((lanesOf i.real).map fun l => (List.range n).map fun c =>
      (l, 2, 1024 * t + 32 * (2 * (s0 + c) + l / 32) + l % 32, 1, false)).flatten }

/-- Issues an ACRD on a FULL tile: a read hold, EMPTY entries, path 4 (R132, R294). -/
def acrdIssue (x : Body) (i : Iss) (s : State) (t s0 n : Nat) : State :=
  let e := (x.d.bind opdEnt).getD 0
  let p := s.nextId
  let q : Prod := ⟨i.w, i.sl, 4, i.slot.pc, i.ex, i.v.helper, .acrd t s0 n e, .none, false⟩
  let s1 := { s with prods := kput s.prods p q, nextId := p + 1 }
  let s2 := s1.modBlock i.v.blk fun b => modTile b t fun y => { y with holds := y.holds + 1 }
  let s3 := s2.modWave i.w fun v => ((lanesOf i.ex).foldl (fun v l =>
    (List.range n).foldl (fun v c => v.mark (e + c) l (.empty p)) v) v).addPath 4 1
  prodEnd x i s s3 (acrdSeen i t s0 n)

/-- A tile that an ACRD waits for under step 3 of R51: EMPTY, with no caret (R132, R294). -/
def acrdStarves (s : State) (x : Body) (i : Iss) : Bool :=
  i.ex ≠ 0 && !x.eb.getLsbD 2 && (match s.block? i.v.blk with
    | some b => (tile b (x.aux.xBits.extractLsb' 0 6).toNat).st = .empty
    | none => false)

/-- ACRD (R294): the tile as a source under R51 and R132, then OBRANGE (R164); a tile that the kernel does not have is OBRANGE. -/
def execAcrd (x : Body) (s : State) : Out :=
  wordOp .acrd x s fun i =>
    let t := (x.aux.xBits.extractLsb' 0 6).toNat
    let n := acrdCount x.aux.xBits
    let s0 := (src s i.v x.b (lowLane i.ex)).toNat
    let tiles := match descOf s i.v.grid with | some d => d.tiles | none => 0
    match s.block? i.v.blk with
    | none => wordEnd x i s s id
    | some b =>
      if i.ex = 0 then wordEnd x i s s id
      else if tiles ≤ t then takeT s i.w i.sl 0x0F i.ex 0 0
      else match (tile b t).st with
        | .lost => takeT s i.w i.sl 0x05 i.ex 0 0
        | .empty => if x.eb.getLsbD 2 then takeT s i.w i.sl 0x06 i.ex 0 0 else starveSlot s i.w i.sl
        | .full =>
          if 15 < s0 + n - 1 then takeT s i.w i.sl 0x0F i.ex 0 0
          else if 4095 ≤ i.v.path 4 then capSlot s i.w i.sl else acrdIssue x i s t s0 n

end Sys2Proof.Machine
end

