-- ==== Sys2Proof/Machine/System.lean ====
section
/-! DEFINITION. Class 111: traps, halts, code and time (R297 to R301), watch units (R302 to R305), mailbox and markers
(R315, R316). -/

namespace Sys2Proof.Machine

/-! ### Traps and halts -/

/-- TRAP (R297): TRAPINS with INFO imm, or the debug halt of TRAP.BRK at the word, which takes no fault, so that watch units
evaluate it (R396). Either counts under a gang halt (R399). -/
def execTrap (x : Body) (s : State) : Out :=
  wholeOp .trap x s fun i =>
    if x.aux.iBrk then watchWord i (haltWave s i.w 2 0 i.slot.mask x.aux.iImm i.slot.pc) (seenOf x i s)
    else countGangHalt (takeTrap s i.w ⟨0x12, false, false, i.sl, x.aux.iImm, i.slot.pc, i.slot.pc + 16, i.ex, 0, [], i.ex⟩) i

/-- RTT (R298): outside the handler ILLCTX; a malformed frame is a double fault recorded as ILLFLD. -/
def execRtt (x : Body) (s : State) : Out :=
  wholeOp .rtt x s fun i =>
    if !i.v.inHandler then takeT s i.w i.sl 0x04 i.ex 0 0
    else if rttBad i.v then takeT s i.w i.sl 0x02 i.ex 0 0
    else wordDone x i s (s.putWave i.w (rttWave s i.v))

/-- HALT (R299): the slot's PC advances past the HALT. -/
def execHalt (x : Body) (s : State) : Out :=
  wholeOp .halt x s fun i => haltWave (wordEnd x i s s id) i.w 1 0 i.slot.mask 0 i.slot.pc

/-- ICINV (R300): the model keeps no fetched word, so every later word is fetched again anyway. -/
def execIcinv (x : Body) (s : State) : Out := wholeOp .icinv x s fun i => wordEnd x i s s id

/-- SLEEPT (R301). -/
def execSleept (x : Body) (s : State) : Out :=
  wordOp .sleept x s fun i =>
    let n := (src s i.v x.a (lowLane i.ex)).toNat
    let s1 := wordEnd x i s s id
    if i.ex = 0 || n = 0 then s1 else holdSlot i s1 (.sleep (s.tick.toNat + n))

/-! ### Watch units (R302, R305) -/

/-- A word of a configuration with its reserved bits zero (R302). -/
def watchKeep (j : Nat) (w : Word) : Word :=
  match j with
  | 0 => w &&& 0x0FFFFFC0
  | 1 => w &&& 0x801FFFFF
  | 4 => w &&& 0xFF
  | 7 => w &&& 0xFF
  | _ => w

/-- A configuration that R302 marks ILLFLD in unit n. -/
def watchBad (n : Nat) (u : WatchUnit) : Bool :=
  3 < u.kind || 3 < u.space || 4 < u.vcond || u.action = 7 || (u.chain && n = 0)

/-- The cores that a selector names: every core of the module, or one (R302). -/
def coresOf (sel : Word) : List Nat :=
  if sel.msb then List.range 512 else [(sel.extractLsb' 12 9).toNat]

/-- WPSET (R305): C0 to C7 into unit n of the selected cores, count and status cleared. The units of its issue evaluate the
word itself (R396). -/
def execWpset (x : Body) (s : State) : Out :=
  wordOp .wpset x s fun i =>
    let n := (x.aux.xBits.extractLsb' 0 4).toNat
    let c : Vector Word 8 := Vector.ofFn fun j => watchKeep j.val (srcEntry s i.v x.a j.val 0)
    let u : WatchUnit := ⟨c, 0, false⟩
    if i.ex = 0 then wordEnd x i s s id
    else if watchBad n u then takeT s i.w i.sl 0x02 i.ex 0 0
    else
      let s1 := wordEnd x i s s id
      { s1 with watch := (coresOf (u.w 1)).foldl (fun m k => kput m (16 * k + n) u) s1.watch }

/-- WPCLR (R305). -/
def execWpclr (x : Body) (s : State) : Out :=
  wordOp .wpclr x s fun i =>
    let n := (x.aux.xBits.extractLsb' 0 4).toNat
    if i.ex = 0 then wordEnd x i s s id
    else
      let s1 := wordEnd x i s s id
      { s1 with watch := (coresOf (src s i.v x.a (lowLane i.ex))).foldl (fun m k => kdel m (16 * k + n)) s1.watch }

/-- A context is privileged (R355). -/
def isPriv (s : State) (c : Nat) : Bool := match s.ctx? c with | some x => x.priv | none => false

/-- Word j of a watch unit: C0 to C7, the count, STATUS (R305). -/
def watchWordOf (u : WatchUnit) (j : Nat) : Word :=
  if j < 8 then u.w j else if j = 8 then u.count else (if u.matched then 2 else 0) + (if u.arm then 1 else 0)

/-- WPRD (R305): 0 with ALL, and to an unprivileged context for another context's unit. -/
def execWprd (x : Body) (s : State) : Out :=
  wordOp .wprd x s fun i =>
    let n := (x.aux.xBits.extractLsb' 0 4).toNat
    let j := (x.aux.xBits.extractLsb' 4 4).toNat
    let sel := src s i.v x.a (lowLane i.ex)
    let u := watchUnit s (sel.extractLsb' 12 9).toNat n
    endWith x i s s (if sel.msb || (!isPriv s i.v.ctx && u.ctx ≠ i.v.ctx) then 0 else watchWordOf u j)

/-! ### Mailbox and markers -/

/-- DBMW (R315): A as read in the lowest executing lane, checked only there. -/
def execDbmw (x : Body) (s : State) : Out :=
  withWave .dbmw x s fun i =>
    if i.ex = 0 then wordEnd x i s s id else
    let k : Fin 16 := (x.aux.xBits.extractLsb' 0 4).toFin
    checked i s (lowNeeds x i)
      (wordEnd x i s (s.modCtx i.v.ctx fun c => { c with mailbox := c.mailbox.set k (src64 s i.v x.a (lowLane i.ex)) }) id)

/-- DBMR (R315). -/
def execDbmr (x : Body) (s : State) : Out :=
  withWave .dbmr x s fun i =>
    let k : Fin 16 := (x.aux.xBits.extractLsb' 0 4).toFin
    let v : DWord := match s.ctx? i.v.ctx with | some c => c.mailbox[k] | none => 0
    retire x i s (laneEff x i false fun _ => .plain (wordsOf true v.toNat))

/-- An RMARK at its block's gate in REPLAY (R415, R416): it matches the head marker, or diverges. -/
def markReplay (s : State) (c key grid : Nat) (iss : Word) (imm : Nat) : Gate :=
  match s.ctx? c with
  | none => .pass s
  | some x =>
    if x.rec_.diverged then .wait s else
    let t := (findStream x.rec_ key grid).getD (LogStream.new key grid 0 0)
    let after (s1 : State) : Gate := match s1.ctx? c with
      | some y => if y.rec_.mode = 2 then .wait s1 else .pass s1
      | none => .pass s1
    match withHead s c x.rec_ t with
    | none => after (diverge s c 4 key grid t.chunk 0 0 (iss.setWidth 64))
    | some t =>
      let d := BitVec.ofNat 64 (devNat s c t.at_ 8)
      if t.headRun = 0 && t.headIss = iss && logLow d = imm then
        let s1 := letPass s c t iss 0
        .pass (match (s1.ctx? c).bind fun y => findStream y.rec_ key grid with
          | some y => goThrough s1 c y iss
          | none => s1)
      else
        after (diverge s c 3 key grid t.chunk t.recs.length
          (BitVec.ofNat 64 (t.headIss.toNat + 2 ^ 32 * (if t.headRun = 0 then logLow d else 0)))
          (BitVec.ofNat 64 (iss.toNat + 2 ^ 32 * imm)))

/-- RMARK (R316): a marker into the trace, and into the record log or against it. -/
def execRmark (x : Body) (s : State) : Out :=
  wholeOp .rmark x s fun i =>
    let key := blkStream s i.v.blk
    let g := gridNo s i.v.grid
    let imm := x.aux.iImm.toNat % 2 ^ 20
    let gate : Gate := match s.ctx? i.v.ctx with
      | some c => (match c.rec_.mode with
        | 1 => .pass (recordEntry s i.v.ctx key g (i.issuer s) 0 (some imm))
        | 2 => markReplay s i.v.ctx key g (i.issuer s) imm
        | _ => .pass s)
      | none => .pass s
    match gate with
    | .wait s1 => stallSlot s1 i.w i.sl
    | .pass s1 => wordEnd x i s (traceWave s1 i.w 2 0 (lowLane i.ex) i.slot.pc x.aux.iImm.toNat) id

end Sys2Proof.Machine
end

