-- ==== Sys2Proof/Machine/Inspect.lean ====
section
/-! DEFINITION. Inspecting a halted wave: HRD, HWR, HSTEP, HRUN and HSTAT (R306 to R314). The word that a step executes
at its target is a later turn of the agenda. -/

namespace Sys2Proof.Machine

/-! ### Targets (R306, R308) -/

/-- The context of a WAVEREF, if it names the inspector's context as its debug context. -/
def refCtx (s : State) (insp : Nat) (ref : Word) : Option Nat :=
  let c := (ref.extractLsb' 20 12).toNat
  match s.ctx? c with
  | some x => if x.dbgEn && x.dbgCtx = insp then some c else none
  | none => none

/-- The target of a WAVEREF: a live wave of its context lodged at its place. -/
def target (s : State) (insp : Nat) (ref : Word) : Option Nat :=
  match refCtx s insp ref with
  | none => none
  | some c => (kfind s.waves fun _ v => v.ctx = c && v.alive && v.st ≠ .saved &&
      (placeId v.place).extractLsb' 4 15 = ref.extractLsb' 4 15).head?

/-- Every wave of a HALTED context counts as halted (R308). -/
def ctxHalted (s : State) (c : Nat) : Bool := match s.ctx? c with | some x => x.st = .halted | none => false
/-- A wave that is HALTED: its own debug halt, or its context's. -/
def isHalted (s : State) (v : Wave) : Bool := v.st = .halted || ctxHalted s v.ctx

/-- The target word of an inspector's instruction. -/
def refOf (x : Body) (i : Iss) (s : State) : Word := src s i.v x.a (lowLane i.ex)

/-! ### HSTAT (R308) -/

/-- A slot's three words and its state bits. -/
def slotWords (x : Slot) : List Word :=
  [x.pc, x.mask.extractLsb' 0 32, x.mask.extractLsb' 32 32, x.stepped.extractLsb' 0 32, x.stepped.extractLsb' 32 32]

/-- LIVE, HELD and WAIT of a slot. -/
def slotBits (x : Slot) : Nat :=
  (if x.live then 1 else 0) + (if x.hold = .join then 2 else 0) + (match x.hold with | .seam _ => 4 | _ => 0)

/-- REASON of a halted wave: its own halt's, or its context's (R308). -/
def haltReason (v : Wave) : Nat := if v.st = .halted || v.halt.reason = 8 then v.halt.reason else 6

/-- The 16 words of HSTAT. -/
def hstatWords (s : State) (w : Option Nat) : List Word :=
  match w.bind fun w => s.wave? w with
  | none => List.replicate 16 0
  | some v =>
    let depth := v.stack.length % 256 * 2 ^ 24
    if !isHalted s v then BitVec.ofNat 32 (1 + depth) :: List.replicate 15 0
    else
      let h := v.halt
      [BitVec.ofNat 32 (2 + 256 * haltReason v + 2 ^ 16 * (h.unit % 16) + depth)] ++ slotWords v.slot0 ++ slotWords v.slot1 ++
      [BitVec.ofNat 32 (slotBits v.slot0 + 16 * slotBits v.slot1), h.mat.extractLsb' 0 32, h.mat.extractLsb' 32 32, h.info,
       h.tick.extractLsb' 0 32]

/-- HSTAT (R308). -/
def execHstat (x : Body) (s : State) : Out :=
  wordOp .hstat x s fun i =>
    retire x i s (laneEff x i false fun _ => .plain (hstatWords s (target s i.v.ctx (refOf x i s))))

/-! ### HRD and HWR (R309 to R311) -/

/-- Selector fields, and whether it is good for a target (R309). -/
def selSpace (b : Word) : Nat := (b.extractLsb' 28 4).toNat
def selIdx (b : Word) : Nat := (b.extractLsb' 0 12).toNat
def selOk (s : State) (v : Wave) (b : Word) : Bool :=
  let mAlloc := match descOf s v.grid with | some d => 16 * d.mbanks | none => 0
  let n := match selSpace b with
    | 0 => 40
    | 1 => 40
    | 2 => mAlloc
    | 3 => 128
    | 4 => 7
    | 5 => 24
    | 6 => 1
    | 7 => 3
    | _ => 0
  b.extractLsb' 12 16 = 0 && selIdx b < n
/-- A per-wave item. -/
def selWave (b : Word) : Bool := selSpace b = 3 || selSpace b = 5 || selSpace b = 7

/-- The value of an item in a lane (R309, R310). -/
def itemVal (v : Wave) (b : Word) (l : Nat) : Word :=
  let k := selIdx b
  match selSpace b with
  | 0 => (v.cell k l).val
  | 1 => BitVec.ofNat 32 (stateCode (v.cell k l).st)
  | 2 => (v.cell (40 + k) l).val
  | 3 => (v.cell (552 + k) 0).val
  | 4 => if (v.pred k).getLsbD l then 1 else 0
  | 5 => let a := (v.bases.toList[k / 3]?).getD 0
    (match k % 3 with | 0 => a.extractLsb' 0 32 | 1 => a.extractLsb' 32 32 | _ => (a.extractLsb' 64 8).setWidth 32)
  | 6 => (v.flag l).setWidth 32
  | _ => match k with | 0 => v.slot0.pc | 1 => v.slot1.pc | _ => v.fpen.setWidth 32

/-- HRD (R310): 0 for an absent or running target, and for a bad selector. -/
def execHrd (x : Body) (s : State) : Out :=
  wordOp .hrd x s fun i =>
    let b := src s i.v x.b (lowLane i.ex)
    let get (l : Nat) : Word := match (target s i.v.ctx (refOf x i s)).bind fun w => s.wave? w with
      | some v => if isHalted s v && selOk s v b then itemVal v b l else 0
      | none => 0
    retire x i s (laneEff x i false fun l => .plain [get l])

/-- Sets one word of a 72-bit base. -/
def baseWord (a : VA) (j : Nat) (c : Word) : VA :=
  match j with
  | 0 => a.extractLsb' 32 40 ++ c
  | 1 => a.extractLsb' 64 8 ++ (c ++ a.extractLsb' 0 32)
  | _ => c.extractLsb' 0 8 ++ a.extractLsb' 0 64

/-- Writes an item in a lane (R311). -/
def itemPut (v : Wave) (b : Word) (l : Nat) (c : Word) : Wave :=
  let k := selIdx b
  match selSpace b with
  | 0 => v.put k l c
  | 1 => v.mark k l (if c = 0 then .full else .lost)
  | 2 => v.put (40 + k) l c
  | 3 => v.put (552 + k) 0 c
  | 4 => v.setPred k (laneBit l) (if c.getLsbD 0 then allLanes else 0)
  | 5 => if h : k / 3 < 8 then { v with bases := v.bases.set (k / 3) (baseWord v.bases[k / 3] (k % 3) c) } else v
  | 6 => v.setFlags l (c.extractLsb' 0 6)
  | _ => match k with
    | 0 => v.modSlot 0 fun a => { a with pc := c }
    | 1 => v.modSlot 1 fun a => { a with pc := c }
    | _ => { v with fpen := c.extractLsb' 0 6 }

/-- A C that is uniform by its level (R311). -/
def uniformSrc : Option Opd → Bool
  | some (.w _) => true
  | some (.s _) => true
  | some (.lit _) => true
  | some (.k x) => specialUniform x
  | _ => false

/-- The status of an HWR (R307, R311); 0 where it takes effect. -/
def hwrStatus (s : State) (w : Option Nat) (b : Word) (cs : List Word) : Nat :=
  match w.bind fun w => s.wave? w with
  | none => 3
  | some v =>
    if !isHalted s v then 2
    else if !selOk s v b then 10
    else if selSpace b = 1 && cs.any (fun c => c ≠ 0 && c ≠ 2) then 10
    else if selSpace b = 7 && selIdx b < 2 then
      (if !(v.slot (selIdx b)).live then 4 else if cs.any (fun c => c.extractLsb' 0 4 ≠ 0) then 10 else 0)
    else 0

/-- HWR (R311): a per-wave item takes a uniform C, else ILLLEV. -/
def execHwr (x : Body) (s : State) : Out :=
  wordOp .hwr x s fun i =>
    let b := src s i.v x.b (lowLane i.ex)
    if i.ex = 0 then wordEnd x i s s id
    else if selWave b && !uniformSrc x.c then takeT s i.w i.sl 0x03 i.ex 0 0
    else
      let w := target s i.v.ctx (refOf x i s)
      let ls := lanesOf i.ex
      let st := hwrStatus s w b (ls.map fun l => src s i.v x.c l)
      let s1 := match st, w with
        | 0, some w => s.modWave w fun v => if selWave b then itemPut v b 0 (src s i.v x.c (lowLane i.ex))
            else ls.foldl (fun v l => itemPut v b l (src s i.v x.c l)) v
        | _, _ => s
      endWith x i s s1 (BitVec.ofNat 32 st)

/-! ### HSTEP and HRUN (R312 to R314) -/

/-- The entry of a trap frame that an operand names. -/
def frameEnt (d : Option Opd) : Option Nat := (d.bind opdEnt).filter (· < 40)

/-- Ends an inspector's wait: the status goes to D, and its slot, numbered as in `holdAt`, goes on; an H or N entry of a slot in
the trap frame is the frame's (R57). -/
def finishInspect (s : State) (insp k status : Nat) : State :=
  s.modWave insp fun v => match v.holdAt k with
    | .inspect _ _ _ d ex _ =>
      let x := BitVec.ofNat 32 status
      let v1 := match (if k < 2 then none else frameEnt d) with
        | some e => (lanesOf ex).foldl (fun v l => frameWord v e l x) v
        | none => (writeD v d ex fun _ => [x]).v
      v1.letGo k
    | _ => v

/-- A status that an HSTEP returns before it looks at the word (R312, in the table's order). -/
def hstepEarly (s : State) (w : Option Nat) (mode : Word) : Option Nat :=
  match w.bind fun w => s.wave? w with
  | none => some 3
  | some v =>
    let a := v.slot (if mode.getLsbD 0 then 1 else 0)
    let lane := (mode.extractLsb' 2 7).toNat
    if !isHalted s v then some 2
    else if mode.extractLsb' 9 23 ≠ 0 then some 10
    else if !a.live then some 4
    else if a.hold = .join then some 5
    else if mode.getLsbD 1 && (64 ≤ lane || !a.mask.getLsbD lane || a.stepped.getLsbD lane) then some 6
    else none

/-- HSTEP (R312): the slot holds until the step's turn has run at the target. -/
def execHstep (x : Body) (s : State) : Out :=
  wordOp .hstep x s fun i =>
    if i.ex = 0 then wordEnd x i s s id else
    let w := target s i.v.ctx (refOf x i s)
    let mode := src s i.v x.b (lowLane i.ex)
    match hstepEarly s w mode, w with
    | none, some w =>
      let sl := if mode.getLsbD 0 then 1 else 0
      let lane := if mode.getLsbD 1 then some (mode.extractLsb' 2 7).toNat else none
      (holdSlot i (wordEnd x i s s id) (.inspect w sl lane x.d i.ex s.tick.toNat)).push [.hstep w sl lane i.w i.sl]
    | st, _ => endWith x i s s (BitVec.ofNat 32 (st.getD 3))

/-- The waves of an HRUN's scope: the target, its gang, its context. -/
def hrunScope (s : State) (c : Nat) (w : Option Nat) (scope : Nat) : List Nat :=
  match scope with
  | 0 => w.toList
  | 1 => (match w.bind fun w => s.wave? w with
    | some t => kfind s.waves fun _ v => v.gang = t.gang && v.alive
    | none => [])
  | _ => kfind s.waves fun _ v => v.ctx = c && v.alive

/-- The halted slots of a scope that have STEPPED lanes, as 2 × wave + slot (R314). -/
def steppedSlots (s : State) (ws : List Nat) : List Nat :=
  ws.flatMap fun w => match s.wave? w with
    | none => []
    | some v => if !isHalted s v then [] else
      [0, 1].filterMap fun sl => if (v.slot sl).live && (v.slot sl).stepped ≠ 0 then some (2 * w + sl) else none

/-- HRUN (R314): statuses that release nothing, else the steps and the release as later turns. -/
def execHrun (x : Body) (s : State) : Out :=
  wordOp .hrun x s fun i =>
    if i.ex = 0 then wordEnd x i s s id else
    let ref := refOf x i s
    let w := target s i.v.ctx ref
    let b := src s i.v x.b (lowLane i.ex)
    let scope := b.toNat
    if 2 < scope then endWith x i s s 10
    else match refCtx s i.v.ctx ref with
      | none => endWith x i s s (if scope = 0 then 3 else 0)
      | some c =>
        let v := w.bind fun w => s.wave? w
        if scope = 0 && v.isNone then endWith x i s s 3
        else if scope = 0 && (match v with | some v => !isHalted s v | none => true) then endWith x i s s 2
        else (holdSlot i (wordEnd x i s s id) (.inspect (w.getD 0) 0 none x.d i.ex s.tick.toNat)).push
          [.hrun (steppedSlots s (hrunScope s c w scope)) c w scope i.w i.sl]

/-- A context halted by HALTREQ alone goes LIVE again (R357). -/
def releaseCtx (s : State) (c : Nat) : State :=
  s.modCtx c fun x => if x.st = .halted && x.cause = 0x25 && x.faults = [] then { x with st := .live, cause := 0 } else x

/-- The state of a wave that goes on after a halt (R330): seated, waiting at its seams, or unseated. -/
def resumedSt (s : State) (v : Wave) : WaveSt :=
  if v.seat.isNone then
    (if [v.slot0, v.slot1].any (fun x => x.live && (match x.hold with | .seam c => condHolds s v c | _ => true)) then .ready else .lodged)
  else if v.parkTime.isSome then .parked else if v.waiting then .seatwait else .seated

/-- Releases a wave from its debug halt; one whose last lanes have ended there ends (R330). -/
def releaseWave (s : State) (w : Nat) : State :=
  let s1 := s.modWave w fun v =>
    let v1 := { v with halt := ⟨0, 0, 0, 0, 0⟩, gangHalt := none }
    if v.st = .halted then { v1 with st := resumedSt s v } else v1
  match s.wave? w with
  | some v => if v.st = .halted && !v.slot0.live && !v.slot1.live then endWave s1 w else s1
  | none => s1

/-- The release of HRUN (R314): the context with scope 2, then each halted wave whose context runs; the status. -/
def hrunRelease (s : State) (c : Nat) (w : Option Nat) (scope : Nat) : State × Nat :=
  let s1 := if scope = 2 then releaseCtx s c else s
  let ws := (hrunScope s1 c w scope).filter fun k => match s1.wave? k with | some v => isHalted s1 v | none => false
  if ctxHalted s1 c then (s1, if ws = [] then 0 else 9)
  else
    let s2 := ws.foldl releaseWave s1
    let bs := match scope with
      | 0 => []
      | _ => ((hrunScope s1 c w scope).filterMap fun k => (s1.wave? k).map Wave.blk).eraseDups
    (bs.foldl (fun s b => s.modBlock b fun b => { b with seq := { b.seq with halted := false } }) s2, 0)

end Sys2Proof.Machine
end

