-- ==== Sys2Proof/Machine/Waves.lean ====
section
/-! DEFINITION. Events of a wave: waits that end, seats, forced unseats, arrivals of producers (R48 to R58, R254, R301,
R312, R330 to R332). -/

namespace Sys2Proof.Machine

/-- Slots of a wave that stalled may be tried again. -/
def unstall (s : State) (w : Nat) : State :=
  s.modWave w fun v => { v with
    slot0 := { v.slot0 with stalled := false, starved := false, capped := false }
    slot1 := { v.slot1 with stalled := false, starved := false, capped := false } }

/-- The inspectors that step a slot and wait for it, with their slots numbered as in `holdAt` (R57, R312). -/
def inspectorsOf (s : State) (w sl : Nat) : List (Nat × Nat) :=
  s.waves.flatMap fun x => [0, 1, 2, 3].filterMap fun k => match x.2.holdAt k with
    | .inspect w' sl' _ _ _ _ => if w' = w && sl' = sl then some (x.1, k) else none
    | _ => none

/-- A target that has been stepped: its halt names STEP and its new position (R308). -/
def steppedHalt (s : State) (w sl : Nat) : State :=
  s.modWave w fun v => if v.alive then { v with halt := ⟨8, 0, (v.slot sl).mask, 0, s.tick⟩ } else v

/-- A live context that may run (R360). -/
def ctxLive (s : State) (c : Nat) : Bool := match s.ctx? c with | some x => x.st = .live | none => false

/-! ### Waits that end -/

/-- Whether a gang is being evicted. -/
def evicting (s : State) (gk : Nat) : Bool := match s.gang? gk with | some g => g.st = .evicting | none => false

/-- A wave that an eviction saves where it stands: every live slot at a seam, and an empty stack (R54, R336). -/
def evictHere (s : State) (v : Wave) : Bool :=
  evicting s v.gang && v.waiting && v.stack = [] && (v.st = .seatwait || v.st = .lodged || v.st = .ready)

/-- A slot leaves its seam: it stands at the next word. -/
def Wave.leaveSeam (v : Wave) (sl : Nat) : Wave :=
  (if v.st = .seatwait then { v with st := .seated } else v).modSlot sl fun a =>
    { a.goTo (a.pc + 16) with hold := .none }

/-- A slot whose seam has nothing to wait for leaves it as it issues its next word (R192): the wave as that word finds
it. -/
def Wave.ripe (v : Wave) (sl : Nat) : Wave :=
  let x := v.slot sl
  if x.hold ≠ .seam .ready then v else
  (v.leaveSeam sl).modSlot sl fun a => { a with stalled := x.stalled, starved := x.starved, capped := x.capped }

/-- A slot's wait at a seam ends: it goes on past the seam (R330). A SEAM with nothing to wait for counts as waiting until
its slot next issues (R192), so that it leaves the seam only then; an unseated wave becomes READY. A halted wave goes on
only where an inspector steps that slot, and a wave that an eviction takes here stays for its save (R336). -/
def seamGoesOn (s : State) (w sl : Nat) : State :=
    match s.wave? w with
    | none => s
    | some v => match (v.slot sl).hold with
      | .seam c =>
        let insp := inspectorsOf s w sl
        let may := v.alive && v.st ≠ .saved && (if isHalted s v then insp ≠ [] else ctxLive s v.ctx)
        if !may || !condHolds s v c || evictHere s v then s else
        let v1 := if v.st = .lodged then { v with st := .ready } else v
        if c = .ready then s.putWave w v1 else
        let s1 := s.putWave w (v1.leaveSeam sl)
        insp.foldl (fun s x => finishInspect s x.1 x.2 0) (if insp = [] then s1 else steppedHalt s1 w sl)
      | _ => s

/-- SEAM_WAIT_END (R330). -/
def execSeamWaitEnd (w sl : Nat) (s : State) : Out := .next (seamGoesOn s w sl)

/-- SLEEPT_EXPIRY (R301). -/
def execSleeptExpiry (w sl : Nat) (s : State) : Out :=
  .next (match s.wave? w with
    | none => s
    | some v => match (v.slot sl).hold with
      | .sleep till => if till ≤ s.tick.toNat then s.putWave w (v.modSlot sl fun a => { a.awake with hold := .none }) else s
      | _ => s)

/-- HSTEP_WAIT_TIMEOUT (R312): the inspectors of a slot that has waited 65,536 ticks return WAITS. -/
def execHstepWaitTimeout (w sl : Nat) (s : State) : Out :=
  .next ((inspectorsOf s w sl).foldl (fun s x => match (s.wave? x.1).map fun v => v.holdAt x.2 with
    | some (Hold.inspect _ _ _ _ _ since) => if since + 65536 ≤ s.tick.toNat then finishInspect s x.1 x.2 7 else s
    | _ => s) s)

/-! ### Seats (R55, R331, R332, R385) -/

/-- Some record holds an access of the wave (R385). -/
def wavePages (s : State) (w : Nat) : Bool :=
  (s.fbuf ++ s.fmiss).any fun r => !r.answered && r.holders.any fun h => match h with
    | .slot k _ => k = w
    | .carry k _ => k = w
    | .lanes p _ => (match kget s.prods p with | some q => q.wave = w | none => false)
    | _ => false

/-- The waves of a bench. -/
def benchWaves (s : State) (b : Nat) : List (Nat × Wave) := s.waves.filter fun x => x.2.alive && benchOf x.2.place = b

/-- The place of a wave in its bench's lodging order: age, then slot. -/
def lodgeKey (v : Wave) : Nat := 16 * v.age + v.place.slot

/-- The least of a list by a key. -/
def leastBy (f : Nat × Wave → Nat) : List (Nat × Wave) → Option (Nat × Wave)
  | [] => none
  | x :: t => match leastBy f t with
    | none => some x
    | some y => if f y < f x then some y else some x

/-- Force-unseats a seated wave: every entry stays as it is (R55), and the event counts. -/
def forceUnseat (s : State) (w : Nat) (v : Wave) : State :=
  traceWave (countEvent (s.putWave w { v with st := .forced, forced := true, seat := none, slot0 := v.slot0.awake, slot1 := v.slot1.awake }) v.ctx 0) w 5 1 0 v.slot0.pc 0

/-- The first case of R55: a slot has stalled under R51 step 3 for more than 4,096 bench clocks. -/
def starvedOut (v : Wave) : Bool := [v.slot0, v.slot1].any fun x => x.live && 4096 < x.starveClocks

/-- The first and third case of R55: a slot has starved, or no slot has been able to issue for 4,096 bench clocks while some live
lane is not waiting at a seam. -/
def stalledOut (v : Wave) : Bool :=
  starvedOut v || (!v.waiting && [v.slot0, v.slot1].all fun x => !x.live || 4096 ≤ x.clocks)

/-- FORCED_UNSEAT (R55): of a SEATED wave, and of a PARKED one a slot of which starves, as it may on the lanes of a load that
are parked (log 72); its third case waits for the parking to end (R330). -/
def execForcedUnseat (s : State) : Out :=
  .next (match s.wave? s.unit with
    | some v =>
      if ((v.st = .seated && stalledOut v) || (v.st = .parked && starvedOut v)) && v.seat.isSome && ctxLive s v.ctx then
        forceUnseat s s.unit v else s
    | none => s)

/-- PARKLIMIT_EXPIRY (R385). -/
def execParklimitExpiry (s : State) : Out :=
  .next (match s.wave? s.unit with
    | some v => match v.parkTime with
      | some t =>
        if (v.st = .seated || v.st = .seatwait || v.st = .parked) && v.seat.isSome && !isHalted s v && wavePages s s.unit &&
            s.cfg.parklimit < t then
          forceUnseat s s.unit v else s
      | none => s
    | none => s)

/-- DROWSY_BANK_WAKE (R432): a bank's data is kept while it is drowsy, so its waking changes no state. -/
def execDrowsyBankWake (_bench _bank : Nat) (s : State) : Out := .next s

/-- A word of this module's memory that has read with an uncorrectable error does so until it is written, for a page walk too
(R377). -/
def badWord (s : State) (pa : Nat) : State :=
  if isDevice s pa && !s.mods.badEcc.contains (pa / 8) then { s with mods := { s.mods with badEcc := pa / 8 :: s.mods.badEcc } } else s

/-- ECC_UNCORRECTABLE (R68, R360): the context takes ECCFATAL; one that is not LIVE takes none, which leaves a word for a walk to
find (log 6). -/
def execEccUncorrectable (ctx addr : Nat) (s : State) : Out := .next (haltCtx (badWord s addr) ctx 0x20 addr none)

/-- ILLEGAL_WORD_ISSUE (R177): a word that is no instruction takes ILLOP. -/
def execIllegalWordIssue (w : BitVec 128) (s : State) : Out :=
  match s.cur with
  | .wave k sl lanes _ => match s.wave? k with
    | some v => if !(v.alive && (v.slot sl).live) then .fault .noIssuer
      else match decodeWord (DecEnv.full false) w with
        | .error .illop => .next (takeT s k sl 0x01 ((v.slot sl).mask &&& lanes) 0 0)
        | _ => .next s
    | none => .fault .noIssuer
  | .seq b => match s.block? b with
    | some _ => match decodeWord (DecEnv.full true) w with
      | .error .illop => .next (seqFault s b 0x01 0)
      | _ => .next s
    | none => .fault .noIssuer
  | .none => .fault .noIssuer

/-! ### Arrivals of producers (R48 to R50, R56, R57, R254) -/

/-- Puts a word where its producer is still attached; a detached one discards it (R48, R49). -/
def deliverWord (v : Wave) (p e l : Nat) (x : Word) : Wave :=
  if !attached v p e l then v
  else if inFrameEntry v p e l then frameWord v e l x
  else v.put e l x

/-- Makes an entry LOST where its producer is still attached. -/
def loseWord (v : Wave) (p e l : Nat) : Wave :=
  if !attached v p e l then v else if inFrameEntry v p e l then frameState v e l 2 else v.mark e l .lost

/-- The words that a load element's bits become (R249, R255). -/
def LoadExt.out (x : LoadExt) (d : Nat) : List Word :=
  match x with
  | .zext 8 => wordsOf true d
  | .zext n => [BitVec.ofNat 32 (d % 256 ^ n)]
  | .sext n => [BitVec.ofInt 32 (signed (8 * n) d)]
  | .bits off n => [BitVec.ofNat 32 (d / 2 ^ off % 2 ^ n)]

/-- Delivers the words of one element; the wave and the words written. -/
def deliverItem (p : Nat) (a : Wave × List (Nat × Word)) (it : LoadItem) : Wave × List (Nat × Word) :=
  match it.data with
  | none => a
  | some d => ((it.ext.out d.toNat).zipIdx).foldl (fun a y =>
      if attached a.1 p (it.ent + y.2) it.lane then
        (deliverWord a.1 p (it.ent + y.2) it.lane y.1, a.2 ++ [(it.lane, y.1)]) else a) a

/-- Takes a producer's lanes off every fault record. -/
def unparkProd (s : State) (p : Nat) : State :=
  let off (r : FaultRec) : FaultRec := { r with holders := r.holders.filter fun h => match h with | .lanes q _ => q ≠ p | _ => true }
  { s with fbuf := s.fbuf.map off, fmiss := s.fmiss.map off }

/-- A producer is done: its path falls (R252). -/
def endProd (s : State) (p : Nat) (q : Prod) : State :=
  { s with prods := kdel s.prods p }.modWave q.wave fun v => v.subPath q.path

/-- The word of a slot that REPLAY has let go has yet to walk again (R385). -/
def Wave.walksAgain (v : Wave) : Bool := (v.slot0.live && v.slot0.again) || (v.slot1.live && v.slot1.again)

/-- The wave's parking ends once no record holds one of its accesses and none that REPLAY has let go has yet to walk again
(R385). -/
def endPark (s : State) (w : Nat) : State :=
  if wavePages s w || (match s.wave? w with | some v => v.walksAgain | none => false) then s else settleHalt (s.modWave w fun v => { v with
    parkTime := none, st := if v.st = .parked then (if v.waiting then .seatwait else .seated) else v.st }) w

/-- A word's arrival seen by watch units: values written, and addresses that were not seen at issue (R303, R396). -/
def arrivalSeen (s : State) (q : Prod) (w : Nat) (vals : List (Nat × Word)) (items : List LoadItem) : State :=
  let real (l : Nat) : Bool := !q.helper.getLsbD l
  let mem := (items.filter fun it => !it.seen && it.data.isSome && real it.lane).map fun it =>
    (it.lane, (if it.scratch then 1 else 0), it.ea, it.ext.size, false)
  let now := { Seen.none with lanes := q.shown.lanes, mem, vals := vals.filter fun y => real y.1 }
  watchWave s w q.slot { q.shown with mem := q.shown.mem ++ mem, vals := now.vals } now (.late q.pc) q.pc

/-- A load of a wave whose gang is saved reads no pool (R99): what it has not read it reads after the restore. -/
def poolAway (s : State) (v : Wave) : Bool :=
  match s.gang? v.gang with | some g => g.st = .saved || g.st = .restoring | none => false

/-- The lanes of a load that a refused address makes LOST: every one that is left (R254). -/
def loadRefused (s : State) (p : Nat) (q : Prod) (rest : List LoadItem) : State :=
  let lost := rest.foldl (fun m it => m ||| laneBit it.lane) (0 : Mask)
  let ea := ((rest.head?).map (·.ea)).getD 0
  let s1 := s.modWave q.wave fun v => rest.foldl (fun v it =>
    (List.range it.ext.words).foldl (fun v k => loseWord v p (it.ent + k) it.lane) v) v
  endPark (unparkProd (addLate (endProd s1 p q) q.wave ⟨0x0C, q.pc, lost, ea, 0, false, true, some q.slot, q.shown.exec⟩) p) q.wave

/-- The lanes of a load that miss a page stay EMPTY and park (R254): `pages` names the lanes and addresses. -/
def loadParks (s : State) (p : Nat) (q : Prod) (v : Wave) (left : List LoadItem) (trk : Bool) (pages : List (Nat × Nat)) : State :=
  let s1 := { s with prods := kput s.prods p { q with kind := .load left trk } }
  match pages with
  | [] => s1
  | (l0, a0) :: _ =>
    let s2 := traceWave s1 q.wave 4 0x30 (if q.shown.exec = 0 then l0 else lowLane q.shown.exec) q.pc a0
    startPark (pages.foldl (fun s y =>
      addMiss s v.ctx y.2 0 (placeId v.place) (issuer s v y.1) false (.lanes p (laneBit y.1))) s2) q.wave

/-- A load's data arrives (R254): every lane that translation lets through reads at one point of each level; a lane from
which the load is detached reports no fault (R49). It waits for an earlier load of the wave that has yet to read a byte of
it (R92). -/
def loadArrives (s : State) (p : Nat) (q : Prod) (v : Wave) (items0 : List LoadItem) (trk : Bool) : State :=
  let items := items0.map (settleItem s v p q.helper)
  let ms := (items.filter LoadItem.due).map fun it => (it, itemMiss s v it)
  match ms.findSome? (fun y => match y.2 with | .bad pa => some pa | _ => none),
      ms.findSome? (fun y => match y.2 with | .lost m => some m | _ => none) with
  | some pa, _ => haltCtx s v.ctx 0x22 pa (some (.wave q.wave))
  | none, some m => linkLost s v.ctx m (some (.wave q.wave))
  | none, none =>
    let s0 := sampleEarlier { s with prods := kput s.prods p { q with kind := .load items trk } } q.wave p items
    if ms.any (fun y => y.2 = .wait) || loadBehind s0 q.wave p items || (poolAway s v && items.any fun it => !it.scratch && it.due) then s else
    let s1 := readItems s0 p
    match kget s1.prods p, s1.wave? q.wave with
    | some q1, some v1 =>
      let its := match q1.kind with | .load l _ => l | _ => items
      let hit := its.filter fun it => it.data.isSome && !it.dead
      let rest := its.filter LoadItem.unread
      let d := hit.foldl (deliverItem p) (v1, [])
      let pages := ms.filterMap fun y => match y.2 with | .page a => some (y.1.lane, a) | _ => none
      let left := its.map fun it => if it.data.isSome then { it with dead := true }
        else if pages.any (fun y => y.1 = it.lane) then { it with held := true } else it
      let s2 := arrivalSeen (unstall (s1.putWave q.wave d.1) q.wave) q q.wave d.2 hit
      if ms.any (fun y => y.2 = .xlate) then loadRefused s2 p q1 rest
      else if rest.isEmpty then endPark (unparkProd (endProd s2 p q1) p) q.wave
      else loadParks s2 p q1 v left trk pages
    | _, _ => s

/-- Old values arrive in the lanes served so far (R263). -/
def valueArrives (s : State) (p : Nat) (q : Prod) (v : Wave) (vals : KMap DWord) (wide : Bool) (ent : Nat) : State :=
  if vals = [] then s else
  let d := vals.foldl (fun (a : Wave × List (Nat × Word)) y =>
    ((wordsOf wide y.2.toNat).zipIdx).foldl (fun (a : Wave × List (Nat × Word)) z =>
      if attached a.1 p (ent + z.2) y.1 then (deliverWord a.1 p (ent + z.2) y.1 z.1, a.2 ++ [(y.1, z.1)]) else a) a) (v, [])
  let done := maskOf fun l => (kget vals l).isSome
  let q1 := { q with lanes := q.lanes &&& ~~~done, kind := .value [] wide ent }
  let s1 := arrivalSeen (unstall (s.putWave q.wave d.1) q.wave) q q.wave d.2 []
  if q1.lanes = 0 then endProd s1 p q else { s1 with prods := kput s1.prods p q1 }

/-- A producer's data arrives. -/
def prodArrives (s : State) (p : Nat) : State :=
  match kget s.prods p with
  | none => s
  | some q => match s.wave? q.wave with
    | none => { s with prods := kdel s.prods p }
    | some v =>
      if !v.alive then unparkProd { s with prods := kdel s.prods p } p else
      match q.kind with
      | .load items trk => loadArrives s p q v items trk
      | .value vals wide ent => valueArrives s p q v vals wide ent
      | .acrd _ _ _ _ => s

/-- PRODUCER_DATA_ARRIVAL (R48, R50, R56, R254). -/
def execProducerDataArrival (s : State) : Out := .next (prodArrives s s.unit)

end Sys2Proof.Machine
end

