-- ==== Sys2Proof/Machine/Couriers.lean ====
section
/-! DEFINITION. The couriers (R124 to R127, R273, R274), the porters (R104 to R108), and the matrix unit's completions
(R132, R278, R294), as events. -/

namespace Sys2Proof.Machine

/-! ### Couriers -/

/-- A wave that has not ended. -/
def waveLives (s : State) (w : Nat) : Bool := match s.wave? w with | some v => v.alive | none => false

/-- The bytes of a copy's next entry: up to the end of the destination's 64-byte line (R124). -/
def Copy.chunk (c : Copy) : Nat := min (64 - (c.dst + c.done) % 64) (c.len - c.done)

/-- The block of a copy's scratchpad is being restored (R127). -/
def copyDeferred (s : State) (c : Copy) : Bool :=
  match s.block? c.blk with | some b => b.st = .restoring | none => false

/-- A copy of one CPYQ waits for the earlier lanes' copies (R273). -/
def copyEarlier (s : State) (id : Nat) (c : Copy) : Bool :=
  s.copies.any fun y => y.2.group = c.group && y.1 < id && y.2.done < y.2.len

/-- A translation miss of another copy holds the courier (R274). -/
def courierHeld (s : State) (id : Nat) (c : Copy) : Bool :=
  s.copies.any fun y => y.1 ≠ id && courierOf y.2 = courierOf c && y.2.parked.isSome

/-- What a courier meets at one side of a line: the bytes' physical addresses, or a refusal at an address, a wait, a
missing page, a malformed entry, an unreachable home. -/
inductive Side where
  | ok (pas : List Nat)
  | refused (ea : Nat)
  | wait
  | miss (va : Nat)
  | bad (pa : Nat)
  | lost (m : Nat)
deriving DecidableEq, Repr

/-- Joins the translation of one byte to those after it. -/
def Side.cons (r : Side) (t : Side) : Side :=
  match r, t with
  | .ok l, .ok k => .ok (l ++ k)
  | .ok _, y => y
  | x, _ => x

/-- Translates one byte for a courier: a copy that reaches an I/O window is refused (R274, R368, R434, R448). -/
def sideByte (s : State) (c va : Nat) (k : Acc) : Side :=
  match xlate s c (va % 2 ^ 72) k with
  | .xlate => .refused va
  | .page | .pageWrite => .miss va
  | .bad pa => .bad pa
  | .hit pa => match homeOf s pa with
    | .wake | .power | .mgmt => .refused va
    | _ => match lostHome s [pa] with | some m => .lost m | none => if stagedByte s pa || cutOff s pa then .wait else .ok [pa]

/-- Translates n bytes from an address. -/
def sideOf (s : State) (c va n : Nat) (k : Acc) : Side :=
  (List.range n).foldr (fun i t => (sideByte s c (va + i) k).cons t) (.ok [])

/-- A copy is done or ended: the counter falls; without an arrival the copy is gone (R125, R274). -/
def copyEnds (s : State) (id : Nat) (c : Copy) : State :=
  let s1 := s.modWave c.wave fun v => if c.counted then v.subPath 2 else v
  if c.arrive.isSome then { s1 with copies := kput s1.copies id { c with done := c.len, parked := none } }
  else { s1 with copies := kdel s1.copies id }

/-- A permission failure ends the copy at the failing line (R274). -/
def copyFails (s : State) (id : Nat) (c : Copy) (ea : Nat) : State :=
  let s1 := copyEnds s id c
  if waveLives s c.wave then addLate s1 c.wave ⟨0x0C, c.pc, 0, ea, 0, false, true, some c.slot, 0⟩ else countEvent s1 c.ctx 8

/-- A courier is held at its line until the page is resident (R274, R381). -/
def copyParks (s : State) (id : Nat) (c : Copy) (va : Nat) (write : Bool) : State :=
  let s1 := trace s c.ctx 4 (if write then 0x31 else 0x30) 0 c.issuer c.pc va
  let s2 := { s1 with copies := kput s1.copies id { c with parked := some s1.fseq } }
  addMiss s2 c.ctx va (if write then 5 else 4) 0 0 write (.copy id)

/-- A line's bytes have been written: the copy moves on, or ends. -/
def copyMoves (s : State) (id : Nat) (c : Copy) : State :=
  if c.done + c.chunk < c.len then { s with copies := kput s.copies id { c with done := c.done + c.chunk } }
  else copyEnds s id c

/-- The source bytes of a line at a point of their home level (R124). -/
def lineBytes (s : State) (c : Copy) (pas : List Nat) : List Byte :=
  if c.dir = 1 then (match s.block? c.blk with
    | some b => (List.range c.chunk).map fun i => scratchByte b (c.src + c.done + i)
    | none => List.replicate c.chunk 0)
  else pas.map fun pa => devByte s c.ctx pa

/-- Writes a line into its destination level: scratchpad through the block's gate, with a pre-image where one is needed
(R127, R130); device memory as one entry (R123). -/
def lineWrite (s : State) (id : Nat) (c : Copy) (bytes : List Byte) : State :=
  let va := c.dst + c.done
  if c.dir = 0 then
    match s.block? c.blk with
    | none => copyMoves s id c
    | some b =>
      if !preRoom b ((List.range c.chunk).map (va + ·)) then s else
      match gateOne s c.ctx (blkStream s c.blk) (gridNo s b.grid) c.issuer c.hash with
      | .wait s1 => s1
      | .pass s1 => copyMoves (enterScratch s1 c.blk (bytes.zipIdx.map fun y => (va + y.2, y.1))) id c
  else match sideOf s c.ctx va c.chunk .write with
    | .ok pas => copyMoves (devEntry s c.ctx none (pas.zip bytes)) id c
    | .refused ea => copyFails s id c ea
    | .wait => s
    | .miss a => copyParks s id c a true
    | .bad pa => haltCtx s c.ctx 0x22 pa (copyEngine c)
    | .lost m => linkLost s c.ctx m (copyEngine c)

/-- COURIER_LINE (R124, R127, R273, R274): the next line of copy `unit`. -/
def execCourierLine (s : State) : Out :=
  .next (match kget s.copies s.unit with
    | none => s
    | some c =>
      if c.len ≤ c.done || c.parked.isSome || !ctxLive s c.ctx || copyDeferred s c || copyEarlier s s.unit c || courierHeld s s.unit c then s
      else if c.dir = 1 then lineWrite s s.unit c (lineBytes s c [])
      else match sideOf s c.ctx (c.src + c.done) c.chunk .read with
        | .ok pas =>
          let d := lineBytes s c pas
          lineWrite { s with free := s.free + 1 } s.unit c d
        | .refused ea => copyFails s s.unit c ea
        | .wait => s
        | .miss a => copyParks s s.unit c a false
        | .bad pa => haltCtx s c.ctx 0x22 pa (copyEngine c)
        | .lost m => linkLost s c.ctx m (copyEngine c))

/-- The arrival's PENDING bit is cleared (R348). -/
def clearPending (b : Block) (n : Fin 16) (party : Nat) : Block :=
  { b with bars := b.bars.set n { b.bars[n] with pending := b.bars[n].pending &&& ~~~(BitVec.ofNat 17 (2 ^ party)) } }

/-- A carried arrival is applied (R126, R348): a mask that differs from the stored one fails it. -/
def applyArrival (s : State) (c : Copy) (n : Fin 16) (party : Nat) (m : BitVec 17) : State :=
  let s1 := s.modBlock c.blk fun b => clearPending b n party
  match s1.block? c.blk with
  | none => s1
  | some b =>
    if barMaskBad b.bars[n] m then
      (if waveLives s c.wave then addLate s1 c.wave ⟨0x09, c.pc, 0, 0, 0, false, true, some c.slot, 0⟩ else countEvent s1 c.ctx 8)
    else s1.modBlock c.blk fun b => barApply b n party m

/-- CARRIED_ARRIVAL (R126, R127, R273): the arrival of copy `unit`, after the last line of every copy of its word. -/
def execCarriedArrival (s : State) : Out :=
  .next (match kget s.copies s.unit with
    | none => s
    | some c => match c.arrive with
      | none => s
      | some (n, m) =>
        if c.done < c.len || (s.copies.any fun y => y.2.group = c.group && y.1 ≠ s.unit) || !ctxLive s c.ctx || copyDeferred s c then s
        else
          let party := match s.wave? c.wave with | some v => v.idx | none => 0
          let grid := match s.block? c.blk with | some b => b.grid | none => 0
          match gateOne s c.ctx (blkStream s c.blk) (gridNo s grid) c.issuer c.hash with
          | .wait s1 => s1
          | .pass s1 => applyArrival { s1 with copies := kdel s1.copies s.unit } c (Fin.ofNat 16 n) party m)

/-! ### Porters (R104 to R108) -/

/-- A context whose porters and matrix steps go on: a live one, or one that an emergency save settles (R363). -/
def ctxSettles (s : State) (c : Nat) : Bool :=
  match s.ctx? c with | some x => x.st = .live || x.st = .emergency | none => false

/-- Two requests act on a common byte or scalar. -/
def sameAddr (a b : Req) : Bool :=
  match a.at_, b.at_ with
  | .dev p, .dev q => p < q + b.size && q < p + a.size
  | .gang g p _, .gang h q _ => g = h && p < q + b.size && q < p + a.size
  | .scalar n, .scalar m => a.ctx = b.ctx && n = m
  | _, _ => false

/-- A context in REPLAY: the gates order its requests (R415). -/
def inReplay (s : State) (c : Nat) : Bool := match s.ctx? c with | some x => x.rec_.mode = 2 | none => false

/-- A request that arrived earlier at the same address, or fills the hall before this one (R104, R105). -/
def reqBehind (s : State) (r : Req) : Bool :=
  let before := s.hall.takeWhile fun y => y.id ≠ r.id
  1024 ≤ (before.filter fun y => y.home = r.home).length ||
  before.any fun y => sameAddr y r && ctxSettles s y.ctx && (!inReplay s r.ctx || y.wave = r.wave)

/-- A request reaches a staged byte, at which it waits; at a gang's pool, one that the pool does not hold (R114). -/
def reqStaged (s : State) (r : Req) : Bool :=
  match r.at_ with
  | .dev a => (List.range r.size).any fun j => stagedByte s (a + j)
  | .gang g va pa => (List.range r.size).any fun j =>
      stagedByte s (pa + j) && (match s.gang? g with | some k => (kget k.pool (va + j)).isNone | none => true)
  | .scalar _ => false

/-- A request enters the overflow list, or is dropped and counted (R107). -/
def overflow (s : State) (cl : Nat) (r : Req) : State :=
  let s1 := s.modCluster cl fun k =>
    { k with ovfAddrs := if k.ovfAddrs.contains (r.ctx, r.at_) then k.ovfAddrs else k.ovfAddrs ++ [(r.ctx, r.at_)] }
  if (s1.cluster cl).ovf.length < 65536 then s1.modCluster cl fun k => { k with ovf := k.ovf ++ [r] }
  else countEvent (s1.modCtx r.ctx fun c => { c with dropped := c.dropped + 1 }) r.ctx 7

/-- The addresses in a porter's holding buffers, over every context. -/
def heldAddrs (k : Cluster) : List (Nat × ReqHome) := (k.held.map fun y => (y.ctx, y.at_)).eraseDups

/-- A porter holds a request (R107): the 16 lowest ranks of an address, 256 addresses. -/
def holdReq (s : State) (r : Req) : State :=
  let k := s.cluster r.home
  let mine := k.held.filter fun y => y.ctx = r.ctx && y.at_ = r.at_
  let add (s : State) : State := s.modCluster r.home fun k => { k with held := k.held ++ [r] }
  if mine = [] then
    (if k.ovfAddrs.contains (r.ctx, r.at_) || 256 ≤ (heldAddrs k).length then overflow s r.home r else add s)
  else if mine.length < 16 then add s
  else match (byRank mine).getLast? with
    | some top =>
      if rankLt r top then
        overflow (s.modCluster r.home fun k => { k with held := k.held.filter (fun y => y.id ≠ top.id) ++ [r] }) r.home top
      else overflow s r.home r
    | none => add s

/-- The streams of a request's service, a gang escalation included (R96, R410); a request to another home has none here. -/
def reqStreams (s : State) (r : Req) : List Nat :=
  match r.at_ with
  | .gang g va _ =>
    [gangStream s g] ++ (match s.gang? g, s.wave? r.wave with
      | some k, some v =>
        if recOn s r.ctx && escalates s k.grid && decide (65536 < lineCount ((putAll k.pool (bytesAt va r.size 0)).map Prod.fst)) then
          portsOf s ((carryOf s k.ctx v.denied k.pool).bytes.map Prod.fst)
        else []
      | _, _ => [])
  | .scalar n => [portStream n]
  | .dev _ => if r.home < 64 then [portStream r.home] else []

/-- The old value returns to the requesting lane (R104). -/
def reqReturn (s : State) (r : Req) (old : Nat) : State :=
  match r.ret with
  | none => s
  | some p => { s with prods := kmod s.prods p fun q => match q.kind with
      | .value vals wide ent => { q with kind := .value (kput vals r.lane (BitVec.ofNat 64 old)) wide ent }
      | _ => q }

/-- A returning request whose destination is no longer attached in its lane (R49). -/
def reqDetached (s : State) (r : Req) : Bool :=
  match r.ret.bind fun p => (kget s.prods p).map fun q => (p, q), s.wave? r.wave with
  | some (p, q), some v => (match q.kind with
    | .value _ wide ent => !((List.range (if wide then 2 else 1)).any fun k => attached v p (ent + k) r.lane)
    | _ => false)
  | _, _ => false

/-- A gang-scope request that the pool has no room for (R96): WBCAP after issue, and the lane's destination is LOST. Each
lane that is refused gives a fault of its own (log 64); one from which the atomic is detached reports none (R49). -/
def reqRefused (s : State) (r : Req) : State :=
  let s1 := if reqDetached s r then s else addLate s r.wave ⟨0x0A, r.pc, laneBit r.lane, 0, 0, false, true, some r.slot, laneBit r.lane⟩
  match r.ret.bind fun p => (kget s1.prods p).map fun q => (p, q) with
  | none => s1
  | some (p, q) => match q.kind with
    | .value vals wide ent =>
      let s2 := s1.modWave r.wave fun v =>
        (List.range (if wide then 2 else 1)).foldl (fun v k => loseWord v p (ent + k) r.lane) v
      let q1 := { q with lanes := q.lanes &&& ~~~(laneBit r.lane) }
      if q1.lanes = 0 && vals = [] then endProd s2 p q1 else { s2 with prods := kput s2.prods p q1 }
    | _ => s1

/-- After a request is served or held: the hall's entry frees, an acquire whose last lane has returned takes effect
(R103), and what waited in the wave may try again. -/
def reqDone (s : State) (r : Req) : State :=
  let s1 := { s with hall := s.hall.filter fun y => y.id ≠ r.id }
  let s2 := if r.acq && !(s1.hall.any fun y => y.wave = r.wave && y.acq) then acquire s1 r.wave else s1
  unstall s2 r.wave

/-- The gang escalation of a request misses a page: it is held on the record, as its wave's carry (R381, R383), with a FAULT trace
record of the wave's (R405). -/
def reqMiss (r : Req) (s : State) (va : Nat) : State :=
  let place : Word := match s.wave? r.wave with | some v => placeId v.place | none => 0
  addMiss (trace s r.ctx 4 0x31 place r.first r.pc va) r.ctx va 6 place r.issuer true (.req r.id)

/-- An outstanding record holds a request (R383). -/
def reqHeld (s : State) (r : Req) : Bool := (s.fbuf ++ s.fmiss).any fun y => !y.answered && y.holders.contains (.req r.id)

/-- A request acts at its home, through the gate of its stream. -/
def serveReq (s : State) (r : Req) : State :=
  let grid := match s.wave? r.wave with | some v => gridNo s v.grid | none => 0
  match gateAll s r.ctx grid r.first r.hash (reqStreams s r) with
  | .wait s1 => s1
  | .pass s1 =>
    let a := applyReq s1 r
    match a.2 with
    | .ok s2 => reqDone (reqReturn { s2 with free := s2.free + 1 } r a.1) r
    | .fault _ _ => reqDone (reqRefused s r) r
    | .park _ vas => vas.foldl (reqMiss r) s
    | .bad _ pa => haltCtx s r.ctx 0x22 pa (some (reqEngine s r))
    | .lost _ c m => linkLost s c m (some (reqEngine s r))
    | .wait _ => s

/-- A request at the pool of a gang that is saved waits there until the gang is restored (R99). -/
def reqAway (s : State) (r : Req) : Bool :=
  match r.at_ with
  | .gang g _ _ => (match s.gang? g with | some k => k.st = .saved || k.st = .restoring | none => false)
  | _ => false

/-- PORTER_SERVE (R105 to R108): request `unit` is held while its phase is open, else served. -/
def execPorterServe (s : State) : Out :=
  .next (match s.hall.find? fun r => r.id = s.unit with
    | none => s
    | some r =>
      if !ctxSettles s r.ctx || reqHeld s r || reqBehind s r || reqStaged s r || reqAway s r then s
      else if r.holds && (match s.ctx? r.ctx with | some c => c.phase | none => false) then reqDone (holdReq s r) r
      else match lostHome s (match r.at_ with | .dev pa => [pa] | _ => []) with
        | some m => linkLost s r.ctx m (some (reqEngine s r))
        | none => if (match r.at_ with | .dev pa => cutOff s pa | _ => false) then s else serveReq s r)

/-! ### The matrix unit (R132, R278, R294) -/

/-- The first step of a core's queue whose context runs (R278, R360). -/
def matNext (s : State) : List MatStep → Option (MatStep × List MatStep)
  | [] => none
  | m :: t =>
    if ctxSettles s (ctxOfBlock s m.blk) then some (m, t)
    else (matNext s t).map fun y => (y.1, m :: y.2)

/-- The bench clocks that a matrix step takes (R285). -/
def stepClocks (b : Block) (m : MatStep) : Nat :=
  if m.zero then 0 else (fmtBits (handle b m.oa).fmt * (if fmtBits (handle b m.ob).fmt ≤ 8 then 1 else 2)) * m.n

/-- A matrix step has executed for all its clocks. -/
def stepDone (s : State) (m : MatStep) : Bool := match s.block? m.blk with | some b => stepClocks b m ≤ m.ran | none => true

/-- One bench clock of a core's queue: its first step whose context runs executes. -/
def matClock (s : State) : List MatStep → List MatStep
  | [] => []
  | m :: t => if ctxSettles s (ctxOfBlock s m.blk) then { m with ran := m.ran + 1 } :: t else m :: matClock s t

/-- One bench clock of the matrix units: an MMA carries 512 in each clock in which it executes (R430). -/
def matrixTick (s : State) : State :=
  s.matrix.foldl (fun s y =>
    match matNext s y.2 with
    | some (m, _) =>
      if !clockRuns s (y.1 / 8) || stepDone s m then s
      else addCharge { s with matrix := kput s.matrix y.1 (matClock s y.2) } (y.1 / 8) 512
    | none => s) s

/-- MATRIX_COMPLETE (R132, R156, R285, R286): the next step of core `unit` completes once it has executed for its clocks; its tile
is FULL after the last one. -/
def execMatrixComplete (s : State) : Out :=
  .next (match matNext s (kgetD s.matrix s.unit []) with
    | none => s
    | some (m, t) =>
      if !stepDone s m then s else
      let s1 := { s with matrix := kput s.matrix s.unit t }
      let s2 := s1.modBlock m.blk fun b =>
        let y := matApply b m
        modTile b m.tile fun _ => { y with queued := y.queued - 1, st := if y.queued ≤ 1 then .full else .empty }
      -- the unit touches the elements now; the word itself was seen at its issue (R396)
      match s.block? m.blk with
      | none => s2
      | some b =>
        let now := { Seen.none with lanes := 1, mem := matSeen m }
        watchSeq s2 m.blk { now with pc := some (codeBase s b.grid + m.pc.toNat) } now m.pc)

/-- What a lane of an ACRD receives: row 2·(first + c) + lane ÷ 32, column lane mod 32 of the tile (R294). -/
def acrdWord (t : Tile) (first c l : Nat) : Word := t.elem (2 * (first + c) + l / 32) (l % 32)

/-- ACRD_DELIVERY (R132, R294): the slices of producer `unit` arrive, and the read hold ends. -/
def execAcrdDelivery (s : State) : Out :=
  .next (let p := s.unit
    match kget s.prods p with
    | none => s
    | some q => match q.kind, s.wave? q.wave with
      | .acrd tl first count ent, some v =>
        let t := match s.block? v.blk with | some b => tile b tl | none => Tile.lost
        let free (s : State) : State := s.modBlock v.blk fun b => modTile b tl fun y => { y with holds := y.holds - 1 }
        if !v.alive then free { s with prods := kdel s.prods p } else
        let d := (lanesOf q.lanes).foldl (fun (a : Wave × List (Nat × Word)) l =>
          (List.range count).foldl (fun (a : Wave × List (Nat × Word)) c =>
            if attached a.1 p (ent + c) l then
              (deliverWord a.1 p (ent + c) l (acrdWord t first c l), a.2 ++ [(l, acrdWord t first c l)]) else a) a) (v, [])
        endProd (free (arrivalSeen (unstall (s.putWave q.wave d.1) q.wave) q q.wave d.2 [])) p q
      | _, _ => s)

end Sys2Proof.Machine
end

