-- ==== Sys2Proof/Machine/Rooms.lean ====
section
/-! DEFINITION. The resources of a cluster (R35, R36, R324), what every gang holds of them, and whether a gang fits. -/

namespace Sys2Proof.Machine

/-- Free lodging slots and free M banks of one bench. -/
structure BenchRoom where
  slots : Nat
  banks : Nat
deriving DecidableEq, Repr

/-- What is free on one core: its benches, accumulator tiles, and operand buffer in units of 16 KiB. -/
structure CoreRoom where
  benches : List BenchRoom
  tiles : Nat
  obk : Nat
deriving DecidableEq, Repr

/-- What is free on one cluster: its cores, placement bytes of its vault, tree slots. -/
structure ClRoom where
  cores : List CoreRoom
  vault : Nat
  trees : Nat
deriving DecidableEq, Repr

/-- An empty cluster (R33, R36, R41): core 0's bench B3 offers 15 slots and 60 banks. -/
def ClRoom.empty (s : State) : ClRoom :=
  let bench : BenchRoom := ⟨16, 64⟩
  ⟨(List.range 8).map fun k => ⟨[bench, bench, bench, if k = 0 then ⟨15, 60⟩ else bench], 64, 32⟩,
   (30 - s.cfg.vwin) * 2 ^ 20, 32⟩

/-- Vault bytes of a gang's pool (R91). -/
def gangVault : Nat := 4 * 2 ^ 20
/-- Vault bytes of one block: scratchpad, barrier area, block pool, pre-image store (R324). -/
def blockVault (d : Desc) : Nat := 256 * d.scratch + 256 + 128 * 1024 + (if d.hasMs then 16 * 1024 else 0)

/-- Changes the k-th element of a list. -/
def listMod {α : Type} (l : List α) (k : Nat) (f : α → α) : List α := l.zipIdx.map fun (x, i) => if i = k then f x else x

/-- Takes one wave's slot and banks from a bench. -/
def takeWave (d : Desc) (r : ClRoom) (core bench : Nat) : ClRoom :=
  { r with cores := listMod r.cores core fun c => { c with
      benches := listMod c.benches bench fun b => ⟨b.slots - 1, b.banks - d.mbanks⟩ } }

/-- Takes one block's vault. -/
def takeVault (d : Desc) (r : ClRoom) : ClRoom := { r with vault := r.vault - blockVault d }

/-- Takes one block's tiles, operand buffer and vault. -/
def takeBlock (d : Desc) (r : ClRoom) (core : Nat) : ClRoom :=
  { takeVault d r with cores := listMod r.cores core fun c => { c with tiles := c.tiles - d.tiles, obk := c.obk - d.obk } }

/-- Takes a gang's pool and tree slot. -/
def takeGang (r : ClRoom) : ClRoom := { r with vault := r.vault - gangVault, trees := r.trees - 1 }

/-- Takes a reserved placement (R325, R341). -/
def takePlacement (d : Desc) (r : ClRoom) (pl : Placement) : ClRoom :=
  pl.blocks.foldl (fun r b => b.waves.foldl (fun r w => takeWave d r b.core w.1) (takeBlock d r b.core)) (takeGang r)

/-- A gang that holds a placement: one that is resident or on its way off. -/
def Gang.placed (g : Gang) : Bool := g.st = .resident || g.st = .evicting

/-- A block that holds its core's resources: those of a SAVED one are free (R334). -/
def onCore (b : Block) : Bool := b.st = .resident || b.st = .saving

/-- What a placed gang leaves free of a cluster: its waves that have not ended and its blocks that have not retired; the vault
of a SAVED block goes with its gang's pool and tree slot, when the gang is SAVED (R334, R335, log 35). -/
def takePlaced (s : State) (r : ClRoom) (g : Gang) : ClRoom :=
  match descOf s g.grid with
  | none => r
  | some d => g.blocks.foldl (fun r bk => match s.block? bk with
      | none => r
      | some b => if b.st = .retired then r else if !onCore b then takeVault d r else
        b.waves.foldl (fun r w => match s.wave? w with
          | some v => if v.alive then takeWave d r b.core v.place.bench else r
          | none => r) (takeBlock d r b.core)) (takeGang r)

/-- What is free on a cluster, but for the gangs that are skipped. -/
def roomOf (s : State) (c : Nat) (skip : List Nat) : ClRoom :=
  s.gangs.foldl (fun r y =>
    let r1 := if y.2.placed && 16 * y.2.die + y.2.cl = c && !skip.contains y.1 then takePlaced s r y.2 else r
    match y.2.castle, descOf s y.2.grid with
    | some pl, some d => if 16 * pl.die + pl.cl = c then takePlacement d r1 pl else r1
    | _, _ => r1) (ClRoom.empty s)

/-- How many waves of a kernel a bench takes. -/
def benchCap (d : Desc) (b : BenchRoom) : Nat := if d.mbanks = 0 then b.slots else min b.slots (b.banks / d.mbanks)

/-- A core has room for one block (R324). -/
def coreFits (d : Desc) (c : CoreRoom) : Bool :=
  d.waves ≤ (c.benches.map (benchCap d)).sum && d.tiles ≤ c.tiles && d.obk ≤ c.obk

/-- A cluster has room for a gang of n blocks on distinct cores (R324). -/
def clFits (d : Desc) (r : ClRoom) (n : Nat) : Bool :=
  1 ≤ r.trees && gangVault + n * blockVault d ≤ r.vault && n ≤ (r.cores.filter (coreFits d)).length

/-! ### Clusters that take placements -/

/-- The clusters of a partition. -/
def partClusters (s : State) (p : Nat) : List Nat := kfind s.clusters fun _ x => x.part = some p

/-- A cluster of the partition that takes new placements (R358, R436). -/
def clusterOpen (s : State) (p c : Nat) : Bool :=
  let x := s.cluster c
  c < 64 && x.part = some p && x.st = 0 && !x.leaving && !s.mods.railsOff

/-- Private slots of a context's arena that waves hold (R64), reservations included. -/
def privUsed (s : State) (c : Nat) : List Nat :=
  (s.waves.filterMap fun y => if y.2.ctx = c && y.2.alive then some y.2.priv else none) ++
  (s.gangs.flatMap fun y => if y.2.ctx = c && y.2.st = .pending then
      (match y.2.castle with | some pl => pl.blocks.flatMap fun b => b.waves.map fun w => w.2.2 | none => []) else [])

/-- Where a private slot lies, if its pages translate to RESIDENT leaves with R and W (R64). -/
def privAt (s : State) (c k : Nat) : Option Nat :=
  (xlate s c ((match s.ctx? c with | some x => x.privVa.toNat | none => 0) + 2 ^ 15 * k) .both).pa?

/-- A private slot's pages translate to RESIDENT leaves with R and W (R64). -/
def privOk (s : State) (c k : Nat) : Bool := (privAt s c k).isSome

/-- The private slots of a context's arena that are free (R64). -/
def privLeft (s : State) (c : Nat) : Nat := (match s.ctx? c with | some x => x.privN | none => 0) - (privUsed s c).length

/-! ### The blocks of a gang (R322) -/

/-- The coordinates and GBLK of the blocks of gang i that lie inside the grid, in GBLK order. -/
def gangBlocks (r : Grid) (i : Nat) : List (Nat × Nat × Nat × Nat) :=
  let d := r.desc
  let gx := i % ((r.nx + d.gx - 1) / d.gx)
  let gy := i / ((r.nx + d.gx - 1) / d.gx) % ((r.ny + d.gy - 1) / d.gy)
  let gz := i / ((r.nx + d.gx - 1) / d.gx) / ((r.ny + d.gy - 1) / d.gy)
  (List.range (d.gx * d.gy * d.gz)).filterMap fun k =>
    let x := gx * d.gx + k % d.gx
    let y := gy * d.gy + k / d.gx % d.gy
    let z := gz * d.gz + k / d.gx / d.gy
    if x < r.nx && y < r.ny && z < r.nz then some (x, y, z, k) else none

/-- The number of gangs of a grid: NX · NY · NZ (R322). -/
def gangCount (r : Grid) : Nat :=
  ((r.nx + r.desc.gx - 1) / r.desc.gx) * ((r.ny + r.desc.gy - 1) / r.desc.gy) * ((r.nz + r.desc.gz - 1) / r.desc.gz)

/-- Some cluster that the context's placements may use has room for n blocks. -/
def someFits (s : State) (p : Nat) (d : Desc) (n : Nat) (skip : List Nat) : Bool :=
  (partClusters s p).any fun c => clusterOpen s p c && clFits d (roomOf s c skip) n

/-- The core, bench and lodging slot of every wave of a placement. -/
def siteSlots (pl : Placement) : List (Nat × Nat × Nat) := pl.blocks.flatMap fun b => b.waves.map fun w => (b.core, w.1, w.2.1)

/-- A lodging slot of a cluster is taken: by a wave lodged there, or by a reservation (R324, R325, R341). -/
def usedSlot (s : State) (c : Nat) (skip : List Nat) (y : Nat × Nat × Nat) : Bool :=
  (s.waves.any fun v => v.2.alive && clusterOf v.2.place = c &&
    (match s.gang? v.2.gang, s.block? v.2.blk with | some g, some b => g.placed && onCore b && !skip.contains v.2.gang | _, _ => false) &&
    v.2.place.core = y.1 && v.2.place.bench = y.2.1 && v.2.place.slot = y.2.2) ||
  s.gangs.any fun z => match z.2.castle with | some q => 16 * q.die + q.cl = c && (siteSlots q).contains y | none => false

/-- Each core of a placement has room for its block, and each bench for the block's waves (R324). -/
def coresTake (d : Desc) (r : ClRoom) (pl : Placement) : Bool :=
  pl.blocks.all fun b => match r.cores[b.core]? with
    | none => false
    | some k => coreFits d k && (k.benches.zipIdx).all fun y => (b.waves.filter fun w => w.1 = y.2).length ≤ benchCap d y.1

/-- A placement is good for n blocks (R35, R324): distinct cores, free slots and banks for every wave, a free tree slot. The
porter's lodging slot on core 0's bench B3 is slot 15 (R36, log 66). -/
def siteOk (s : State) (d : Desc) (pl : Placement) (n : Nat) (skip : List Nat) : Bool :=
  let c := 16 * pl.die + pl.cl
  let r := roomOf s c skip
  let cores := pl.blocks.map (·.core)
  let sites := siteSlots pl
  let treeUsed := s.gangs.any fun y => (y.2.placed && !skip.contains y.1 && 16 * y.2.die + y.2.cl = c && y.2.tree = pl.tree) ||
    (match y.2.castle with | some q => 16 * q.die + q.cl = c && q.tree = pl.tree | none => false)
  decide (pl.cl < 16) && decide (pl.die < 4) && decide (pl.blocks.length = n) && decide (cores.eraseDups = cores) && cores.all (· < 8) &&
  decide (pl.tree < 32) && !treeUsed && decide (sites.eraseDups = sites) &&
  pl.blocks.all (fun b => decide (b.waves.length = d.waves) && b.waves.all fun w => decide (w.1 < 4) && decide (w.2.1 < if b.core = 0 && w.1 = 3 then 15 else 16)) &&
  !(sites.any (usedSlot s c skip)) && clFits d r n && coresTake d r pl

/-- The private slots of a new placement: distinct, in the arena and free (R64). -/
def privsOk (s : State) (c : Nat) (pl : Placement) : Bool :=
  let ks := pl.blocks.flatMap fun b => b.waves.map fun w => w.2.2
  let used := privUsed s c
  let n := match s.ctx? c with | some x => x.privN | none => 0
  decide (ks.eraseDups = ks) && ks.all fun k => decide (k < n) && !used.contains k

/-! ### The checks at acceptance (R327) -/

/-- Takes n waves from a core's benches, bench by bench: how many more waves the core takes depends on their number alone. -/
def fillBenches (d : Desc) : Nat → List BenchRoom → List BenchRoom
  | _, [] => []
  | n, b :: t =>
    let k := min n (benchCap d b)
    ⟨b.slots - k, b.banks - k * d.mbanks⟩ :: fillBenches d (n - k) t

/-- Free slots of a core. -/
def coreSlots (d : Desc) (c : CoreRoom) : Nat := (c.benches.map (benchCap d)).sum

/-- How many blocks of a kernel a core has room for. -/
def coreBlocks (d : Desc) (c : CoreRoom) : Nat :=
  let n := coreSlots d c / d.waves
  let n := if d.tiles = 0 then n else min n (c.tiles / d.tiles)
  if d.obk = 0 then n else min n (c.obk / d.obk)

/-- Fills the blocks of one gang into distinct cores, those with room for the most blocks first. -/
def fillCores (d : Desc) : Nat → List Nat → ClRoom → ClRoom
  | 0, _, r => r
  | k + 1, taken, r =>
    let l := r.cores.zipIdx.filter fun y => coreFits d y.1 && !taken.contains y.2
    match l with
    | [] => r
    | y :: t =>
      let best := t.foldl (fun m z => if coreBlocks d m.1 < coreBlocks d z.1 then z else m) y
      fillCores d k (best.2 :: taken) { takeBlock d r best.2 with
        cores := listMod (takeBlock d r best.2).cores best.2 fun c => { c with benches := fillBenches d d.waves c.benches } }

/-- Inserts a gang size into a list, the largest first. -/
def sizeInsert (n : Nat) : List Nat → List Nat
  | [] => [n]
  | m :: t => if m < n then n :: m :: t else m :: sizeInsert n t

/-- A list of gang sizes, the largest first, fits into clusters in some way: every cluster is tried for each gang. -/
def fitAll (d : Desc) : List Nat → List ClRoom → Bool
  | [], _ => true
  | n :: t, rs => rs.zipIdx.any fun y => clFits d y.1 n && fitAll d t (listMod rs y.2 fun r => fillCores d n [] (takeGang r))

/-- A launch is TOOBIG for its context's partition with every cluster empty (R327). -/
def tooBig (s : State) (x : Ctx) (r : Grid) : Bool :=
  let cs := partClusters s x.part
  let d := r.desc
  let most := min d.gx r.nx * min d.gy r.ny * min d.gz r.nz
  let e := ClRoom.empty s
  (e.cores.filter (coreFits d)) = [] || e.vault < gangVault + most * blockVault d || x.privN < most * d.waves ||
  (r.sync && (2048 < gangCount r || x.privN < r.nx * r.ny * r.nz * d.waves ||
    !fitAll d (((List.range (gangCount r)).map fun i => (gangBlocks r i).length).foldl (fun l n => sizeInsert n l) []) (cs.map fun _ => e)))

end Sys2Proof.Machine
end

