-- ==== Sys2Proof/Machine/Gangs.lean ====
section
/-! DEFINITION. Gangs: placement (R322 to R327, R337), saves and restores (R335 to R341, R362, R363), and the completion of
a kernel (R137, R328, R329), as events. -/

namespace Sys2Proof.Machine

/-! ### Placement -/

/-- The mask of the first n lanes. -/
def firstLanes (n : Nat) : Mask := BitVec.ofNat 64 (2 ^ n - 1)

/-- The lanes of wave `idx` of a block that its shape fills, and those with the helper lanes of its last quad (R17). -/
def waveLanes (d : Desc) (idx : Nat) : Mask × Mask :=
  let n := min 64 (d.bx * d.byy * d.bz - 64 * idx)
  (firstLanes n, firstLanes ((n + 3) / 4 * 4))

/-- The W entries at launch (R321): word i in Wi, every other one zero. -/
def launchEnts (params : List Word) : KMap Cell :=
  params.zipIdx.map fun (p, i) => (64 * (552 + i), (⟨p, .full⟩ : Cell))

/-- A wave as its placement leaves it: lodged, slot 0 at ENTRY (R59, R321, R325). -/
def newWave (r : Grid) (gk bk idx age : Nat) (place : Place) (priv : Nat) : Wave :=
  let m := waveLanes r.desc idx
  { ctx := r.ctx, grid := 0, gang := gk, blk := bk, idx, place, priv, age
    st := .ready, seat := none, passed := 0, yielded := false, waitSince := 0, parkTime := none, whole := false
    helper := m.2 &&& ~~~m.1
    slot0 := .at_ r.desc.entry m.2, slot1 := .free, lastSlot := 0, stack := []
    ents := launchEnts r.params
    preds := Vector.replicate 7 0, bases := Vector.replicate 8 0, flags := [], fpen := 0, rng := 0, tickCap := 0
    paths := Vector.replicate 5 0, bufD := [], bufS := [], trk := Wave.noTrack false, hash := 0
    frame := [], frameAtt := [], frameHold0 := .none, frameHold1 := .none, inHandler := false
    late := [], halt := ⟨0, 0, 0, 0, 0⟩, haltDue := none, gangHalt := none, denied := [], kept := none
    frameDenied0 := [], frameDenied1 := [], forced := false, privPa := none }

/-- A block's sequencer at placement (R278). -/
def newSeq (r : Grid) : Sequencer :=
  { st := if r.desc.hasMs then .run else .absent, pc := r.desc.msOff
    q := Vector.ofFn fun i => (r.params[i.val]?).getD 0
    rowP := BitVec.allOnes 32, colP := BitVec.allOnes 32, kP := BitVec.allOnes 32, parked := false, halted := false, waits := false }

/-- A block as its placement leaves it (R129, R130, R278, R345). -/
def newBlock (r : Grid) (gr gk die cl core : Nat) (at_ : Nat × Nat × Nat × Nat) (waves : List Nat) : Block :=
  { ctx := r.ctx, grid := gr, gang := gk, gblk := at_.2.2.2, bx := at_.1, byy := at_.2.1, bz := at_.2.2.1, die, cl, core
    st := .resident, waves, scratch := [], pool := [], bars := Vector.replicate 16 ⟨0, 0, 0, 0⟩, gbar := ⟨0, 0, 0⟩, xbar := ⟨0, 0, 0⟩
    window := r.desc.hasMs, pre := [], saved := [], stamp := 0, doneAt := Vector.replicate 16 0, snapAt := 0
    seq := newSeq r, handles := Vector.replicate 32 ⟨0, 0, 0, false, 0, .u32⟩, obuf := [], tiles := [], kept := none }

/-- Adds one block and its waves to a gang. -/
def addBlock (r : Grid) (gr gk die cl : Nat) (s : State) (y : (Nat × Nat × Nat × Nat) × BlockSite) : State :=
  let bk := s.nextId
  let n := y.2.waves.length
  let ws := (List.range n).map (bk + 1 + ·)
  let mk (z : (Nat × Nat × Nat) × Nat) : Nat × Wave :=
    (bk + 1 + z.2, { newWave r gk bk z.2 gk ⟨die, cl, y.2.core, z.1.1, z.1.2.1⟩ z.1.2.2 with grid := gr, privPa := privAt s r.ctx z.1.2.2 })
  { s with
    blocks := kput s.blocks bk (newBlock r gr gk die cl y.2.core y.1 ws)
    waves := (y.2.waves.zipIdx.map mk).foldl (fun m z => kput m z.1 z.2) s.waves
    nextId := bk + 1 + n }

/-- A gang not yet placed. -/
def Gang.new (ctx grid idx : Nat) : Gang :=
  { ctx, grid, idx, die := 0, cl := 0, st := .pending, pool := [], tree := 0, gb := ⟨0, 0, 0⟩, xb := ⟨0, 0, 0⟩, xbDie := false
    blocks := [], firstTick := 0, resident := 0, saveStart := 0, evictTicks := 0, image := none, castle := none, savedOrder := 0
    withdrawn := false, kept := none }

/-- Commits one gang's placement (R325): its blocks and waves, all at one moment. A private slot that does not translate
ends the grid (R64). -/
def commitPlace (s : State) (gr idx : Nat) (pl : Placement) : State :=
  match s.grid? gr with
  | none => s
  | some r =>
    if !(pl.blocks.all fun b => b.waves.all fun w => privOk s r.ctx w.2.2) then gridFault s gr 0x0C 0 else
    let gk := s.nextId
    let s1 := ((gangBlocks r idx).zip pl.blocks).foldl (addBlock r gr gk pl.die pl.cl) { s with nextId := gk + 1 }
    let bks := kfind s1.blocks fun _ b => b.gang = gk
    let g := { Gang.new r.ctx gr idx with die := pl.die, cl := pl.cl, tree := pl.tree, st := .resident, blocks := bks, firstTick := s.tick, resident := s.tick }
    { s1 with gangs := kmap (kput s1.gangs gk g) fun _ g => { g with withdrawn := false } }.modGrid gr fun r =>
      { r with gangs := r.gangs ++ [gk] }

/-- The last pending gang has been committed (R328). -/
def allPlaced (s : State) (gr : Nat) : State :=
  s.modGrid gr fun r => if r.st = .placing && r.pending = [] then { r with st := .placed } else r

/-- Reserves a gang of a GRIDSYNC grid; with the last one the whole grid is committed (R327), until a private slot that does
not translate ends it (R64, R328). -/
def reserveSync (s : State) (gr idx : Nat) (pl : Placement) : State :=
  match s.grid? gr with
  | none => s
  | some r =>
    let g := { Gang.new r.ctx gr idx with die := pl.die, cl := pl.cl, tree := pl.tree, castle := some pl }
    let s1 := { s with gangs := kput s.gangs s.nextId g, nextId := s.nextId + 1 }.modGrid gr fun r => { r with pending := r.pending.tail }
    if r.pending.tail ≠ [] then s1 else
    let held := s1.gangs.filter fun y => y.2.grid = gr && y.2.st = .pending
    let s2 := { s1 with gangs := s1.gangs.filter fun y => !(y.2.grid = gr && y.2.st = .pending) }
    let placing (s : State) : Bool := match s.grid? gr with | some r => r.st = .placing | none => false
    allPlaced (held.foldl (fun s y => match y.2.castle with
      | some p => if placing s then commitPlace s gr y.2.idx p else s
      | none => s) s2) gr

/-! ### Priority (R325, R326, R337, R338) -/

/-- Priority class of a context. -/
def classOf (s : State) (c : Nat) : Nat := match s.ctx? c with | some x => x.cls | none => 3
/-- Partition of a context. -/
def partOf (s : State) (c : Nat) : Nat := match s.ctx? c with | some x => x.part | none => 0

/-- A gang's blocks that have not retired. -/
def liveBlocks (s : State) (g : Gang) : List Nat :=
  g.blocks.filter fun b => match s.block? b with | some x => x.st ≠ .retired | none => false

/-- A SAVED gang of an equally or more urgent class that could be restored goes first (R338). -/
def savedFirst (s : State) (c : Nat) : Bool :=
  s.gangs.any fun y => y.2.st = .saved && ctxLive s y.2.ctx && partOf s y.2.ctx = partOf s c && classOf s y.2.ctx ≤ classOf s c &&
    (match descOf s y.2.grid with | some d => someFits s (partOf s c) d (liveBlocks s y.2).length [] | none => false)

/-- An earlier kernel of the context still has gangs to place (R325). -/
def earlierKernel (s : State) (gr : Nat) (r : Grid) : Bool :=
  s.grids.any fun y => y.1 < gr && y.2.ctx = r.ctx && y.2.st = .placing &&
    (y.2.pending ≠ [] || s.gangs.any fun z => z.2.grid = y.1 && z.2.st = .pending)

/-- The I/O die has a free grid entry for a GRIDSYNC grid (R349). -/
def gridEntry (s : State) (gr : Nat) : Bool :=
  (s.grids.filter fun y => y.2.sync && y.1 ≠ gr && (y.2.gangs ≠ [] || s.gangs.any fun z => z.2.grid = y.1) && y.2.st ≠ .done).length < 64

/-- What a gang of n blocks needs beside a cluster's room is free: private slots (R64), and a GRIDSYNC grid's entry (R349). -/
def headEnters (s : State) (gr : Nat) (r : Grid) (n : Nat) : Bool :=
  n * r.desc.waves ≤ privLeft s r.ctx && (!r.sync || gridEntry s gr)

/-- A head gang of n blocks finds room in its partition (R325). -/
def headFits (s : State) (gr : Nat) (r : Grid) (n : Nat) : Bool :=
  headEnters s gr r n && someFits s (partOf s r.ctx) r.desc n []

/-- A more urgent kernel of the partition has a head gang that finds room: it is served first (R325). -/
def urgentFirst (s : State) (c : Nat) : Bool :=
  s.grids.any fun y => y.2.st = .placing && ctxLive s y.2.ctx && partOf s y.2.ctx = partOf s c && classOf s y.2.ctx < classOf s c &&
    !earlierKernel s y.1 y.2 && (match y.2.pending with
      | [] => false
      | i :: _ => headFits s y.1 y.2 (gangBlocks y.2 i).length)

/-- The gangs on their way off, whose resources the head gang counts on. -/
def evictingNow (s : State) : List Nat := kfind s.gangs fun _ g => g.st = .evicting

/-- What limits the waves of a kernel that a bench takes, lodging slots or M banks, is more plentiful in the second room. -/
def benchFrees (d : Desc) (b0 b1 : BenchRoom) : Bool :=
  (b0.slots < b1.slots && (d.mbanks = 0 || b0.slots ≤ b0.banks / d.mbanks)) ||
  (d.mbanks ≠ 0 && b0.banks < b1.banks && b0.banks / d.mbanks ≤ b0.slots)

/-- Of what a gang of n blocks needs on a cluster, something that the first room lacks is more plentiful in the second: a tree
slot, vault, or on a core lodging slots and banks, tiles or operand buffer (R324, R337). -/
def freesLacking (d : Desc) (n : Nat) (r0 r1 : ClRoom) : Bool :=
  let need := gangVault + n * blockVault d
  (r0.trees < 1 && r0.trees < r1.trees) || (r0.vault < need && r0.vault < r1.vault) ||
  ((r0.cores.filter (coreFits d)).length < n && (r0.cores.zip r1.cores).any fun y =>
    (coreSlots d y.1 < d.waves && (y.1.benches.zip y.2.benches).any fun z => benchFrees d z.1 z.2) || (y.1.tiles < d.tiles && y.1.tiles < y.2.tiles) ||
    (y.1.obk < d.obk && y.1.obk < y.2.obk))

/-- A gang may be a victim of a head gang (R337): resident, of a running context and a less urgent class, with room for its
image, on a cluster of the partition where its eviction frees a resource that the head still lacks. -/
def victimOk (s : State) (p cls : Nat) (d : Desc) (n k : Nat) (g : Gang) : Bool :=
  let c := 16 * g.die + g.cl
  let ev := evictingNow s
  g.st = .resident && !g.withdrawn && ctxLive s g.ctx && cls < classOf s g.ctx && clusterOpen s p c && imagesRoom s k g &&
  freesLacking d n (roomOf s c ev) (roomOf s c (k :: ev))

/-- Orders victims: the least urgent class first, then the latest first placement (R337). -/
def victimBefore (s : State) (a b : Gang) : Bool :=
  classOf s b.ctx < classOf s a.ctx || (classOf s a.ctx = classOf s b.ctx && b.firstTick.toNat < a.firstTick.toNat)

/-- Inserts a candidate in that order. -/
def victimInsert (s : State) (x : Nat × Gang) : List (Nat × Gang) → List (Nat × Gang)
  | [] => [x]
  | y :: t => if victimBefore s x.2 y.2 then x :: y :: t else y :: victimInsert s x t

/-- Evicts candidates in turn until the head gang fits; one that has come to free nothing the head lacks is passed over. -/
def evictUntil (p cls : Nat) (d : Desc) (n : Nat) (s : State) (l : List (Nat × Gang)) : State :=
  l.foldl (fun s y => if someFits s p d n (evictingNow s) || !victimOk s p cls d n y.1 y.2 then s else startEvict s y.1) s

/-- VICTIM_SELECTION (R337) for the head gang of a grid. -/
def chooseVictims (s : State) (r : Grid) (n : Nat) : State :=
  let p := partOf s r.ctx
  let cls := classOf s r.ctx
  if someFits s p r.desc n (evictingNow s) then s else
  evictUntil p cls r.desc n s ((s.gangs.filter fun y => victimOk s p cls r.desc n y.1 y.2).foldl (fun l y => victimInsert s y l) [])

/-- The reservations on a cluster of the partition that a kernel of class `cls` may cancel: of less urgent placements, restores
and castlings (R326). -/
def lessReserved (s : State) (p cls c : Nat) : List Nat :=
  kfind s.gangs fun _ g => reservedOn c g && cls < classOf s g.ctx && partOf s g.ctx = p

/-- Cancels a reservation that holds something that a gang of n blocks lacks on a cluster, where it does not fit yet (R326). -/
def cancelNeeded (d : Desc) (n c : Nat) (s : State) (k : Nat) : State :=
  if clFits d (roomOf s c []) n then s
  else if freesLacking d n (roomOf s c []) (roomOf (dropReserved s k) c []) then dropReserved s k else s

/-- Cancels what a head gang of n blocks needs of the less urgent reservations on a cluster (R326). -/
def cancelLess (s : State) (r : Grid) (n c : Nat) : State :=
  (lessReserved s (partOf s r.ctx) (classOf s r.ctx) c).foldl (cancelNeeded r.desc n c) s

/-- A cluster on which a head gang of n blocks fits once less urgent reservations there are cancelled. -/
def cancelGives (s : State) (r : Grid) (n c : Nat) : Bool :=
  clusterOpen s (partOf s r.ctx) c && clFits r.desc (roomOf (cancelLess s r n c) c []) n

/-- Makes room for a head gang that fits nowhere: less urgent reservations are cancelled on one cluster where that gives room, the
one named if it does; where none does, wherever they hold what the head lacks, and victims are chosen (R326, R337). -/
def makeRoom (s : State) (r : Grid) (n c : Nat) : State :=
  let cs := partClusters s (partOf s r.ctx)
  match (c :: cs).find? (cancelGives s r n) with
  | some k => cancelLess s r n k
  | none => chooseVictims (cs.foldl (fun s k => cancelLess s r n k) s) r n

/-- GANG_PLACE (R325 to R328, R337): the head gang of a grid is reserved and committed where the dispatcher puts it;
where it fits nowhere, room is made for it, unless it lacks what no other kernel's gangs hold. -/
def execGangPlace (g : Nat) (pl : Placement) (s : State) : Out :=
  .next (match s.grid? g with
    | none => s
    | some r => match r.pending with
      | [] => s
      | idx :: _ =>
        let c := 16 * pl.die + pl.cl
        let n := (gangBlocks r idx).length
        if r.st ≠ .placing || !ctxLive s r.ctx || earlierKernel s g r || savedFirst s r.ctx || urgentFirst s r.ctx || !headEnters s g r n then s else
        let fits (s : State) : Bool := clusterOpen s (partOf s r.ctx) c && siteOk s r.desc pl n [] && privsOk s r.ctx pl
        let go (s : State) : State :=
          if r.sync then reserveSync s g idx pl
          else allPlaced (commitPlace (s.modGrid g fun r => { r with pending := r.pending.tail }) g idx pl) g
        if fits s then go s
        else if headFits s g r n then s
        else
          let s1 := makeRoom s r n c
          if fits s1 then go s1 else s1)

/-! ### Saves (R54, R334 to R336, R362, R363) -/

/-- The gangs of an emergency save are taken in order of first placement (R362). -/
def firstToSave (s : State) (gk : Nat) (g : Gang) : Bool :=
  !(s.gangs.any fun y => y.2.ctx = g.ctx && y.2.st = .evicting &&
    (y.2.firstTick.toNat < g.firstTick.toNat || (y.2.firstTick = g.firstTick && y.1 < gk)))

/-- An emergency save of this gang is under way. -/
def emergencySave (s : State) (gk : Nat) (g : Gang) : Bool :=
  match s.ctx? g.ctx with | some x => x.st = .emergency && x.saved = 1 && firstToSave s gk g | none => false

/-- Abandons a COMMIT.SYS that is not yet applied: the pool is as it was, with what entered it since on top (R363). A checked
one has left no level yet. -/
def abandonSys (s : State) (w : Nat) : State :=
  (s.sysCommits.filter fun y => y.2.wave = w && !y.2.applied).foldl (fun s y =>
    match s.wave? w with
    | none => s
    | some v =>
      let s1 := if y.2.check then s else s.modGang v.gang fun g => { g with pool := putAll y.2.pool g.pool }
      let off (h : Hold) : Hold := if h = .sysCommit y.1 then .none else h
      { s1 with sysCommits := kdel s1.sysCommits y.1 }.modWave w fun v => { v with
        slot0 := { v.slot0 with hold := off v.slot0.hold }, slot1 := { v.slot1 with hold := off v.slot1.hold }
        frameHold0 := off v.frameHold0, frameHold1 := off v.frameHold1 }) s

/-- A COMMIT.SYS of the wave has sent APPLY and is not complete (R363). -/
def sysUnderWay (s : State) (w : Nat) : Bool := s.sysCommits.any fun y => y.2.wave = w && y.2.applied && !y.2.finished

/-- A wave's word has begun to enter an order, has performed a commit and not gone on, or inspects another context's wave: it
completes even as its context goes to EMERGENCY (R363). -/
def begun (s : State) (w sl : Nat) (v : Wave) : Bool :=
  let x := v.slot sl
  x.live && match x.hold with
  | .none => x.entry.isSome || s.sysCommits.any fun y => y.2.wave = w && y.2.slot = sl && y.2.pc = x.pc && y.2.finished
  | .inspect _ _ _ _ _ _ => true
  | _ => false

/-- A wave with a word that has begun, that of a slot in its trap frame included. -/
def waveBegun (s : State) (w : Nat) (v : Wave) : Bool :=
  let insp (h : Hold) : Bool := match h with | .inspect _ _ _ _ _ _ => true | _ => false
  begun s w 0 v || begun s w 1 v || (v.inHandler && (insp v.frameHold0 || insp v.frameHold1))

/-- Saves a wave into its gang's image; its private slot stays in memory (R64). -/
def saveWave (s : State) (w : Nat) (g : Gang) (v : Wave) (whole : Bool) : State :=
  let v1 := { v with st := .saved, seat := none, whole, forced := false, slot0 := v.slot0.awake, slot1 := v.slot1.awake }
  writePriv (writeWave (traceWave (s.putWave w v1) w 5 3 0 v.slot0.pc 0) g v1) v1

/-- WAVE_SAVE (R54, R330, R336, R363): wave `unit` of an evicting gang; one that has been force-unseated is not saved until it has
been seated again (R54, R336). -/
def execWaveSave (s : State) : Out :=
  .next (let w := s.unit
    match s.wave? w with
    | none => s
    | some v => match s.gang? v.gang with
      | none => s
      | some g =>
        if g.st ≠ .evicting || !v.alive || v.st = .saved || s.mods.railsOff then s
        else if emergencySave s v.gang g then
          (if sysUnderWay s w || waveBegun s w v then s else
            let s1 := abandonSys s w
            match s1.wave? w with | some v => saveWave s1 w g v true | none => s1)
        else if ctxLive s v.ctx && v.stack = [] && !v.forced && ((v.st = .seatwait && v.waiting) || v.st = .lodged || v.st = .ready) then
          saveWave s w g v false
        else s)

/-- A block's sequencer is quiescent (R292). -/
def seqQuiet (b : Block) : Bool :=
  match b.seq.st with | .run => false | _ => true

/-- Every tile of a block is settled (R133). -/
def tilesSettled (s : State) (bk : Nat) (b : Block) : Bool :=
  (b.tiles.all fun t => t.2.st ≠ .empty && t.2.holds = 0) && !((kgetD s.matrix (blockCore b) []).any fun m => m.blk = bk)

/-- BLOCK_SAVE (R127, R133, R334): block `unit` of an evicting gang takes its save point. -/
def execBlockSave (s : State) : Out :=
  .next (let bk := s.unit
    match s.block? bk with
    | none => s
    | some b => match s.gang? b.gang with
      | none => s
      | some g =>
        let em := emergencySave s b.gang g
        let saved := b.waves.all fun w => match s.wave? w with | some v => v.st = .saved || v.st = .ended | none => true
        if g.st = .evicting && b.st = .resident && !s.mods.railsOff && saved && (em || (ctxLive s b.ctx && seqQuiet b)) && tilesSettled s bk b then
          writeBlock (s.modBlock bk fun b => { b with st := .saved }) g bk b
        else s)

/-- Every block of a gang is saved or has retired. -/
def blocksSaved (s : State) (g : Gang) : Bool :=
  g.blocks.all fun b => match s.block? b with | some x => x.st = .saved || x.st = .retired | none => true

/-- One gang becomes SAVED (R335, R344). -/
def saveGang (s : State) (gk : Nat) : State :=
  match s.gang? gk with
  | none => s
  | some g =>
    if g.st ≠ .evicting then s else
    let s1 := writeGang s g
    { s1 with nextId := s1.nextId + 1 }.modGang gk fun g => { g with st := .saved, savedOrder := s1.nextId }

/-! ### The course of an emergency save (R362, R363) -/

/-- Orders contexts for the save: CLASS, then CTXID. -/
def ctxInsert (x : Nat × Nat) : List (Nat × Nat) → List (Nat × Nat)
  | [] => [x]
  | y :: t => if x.1 < y.1 || (x.1 = y.1 && x.2 < y.2) then x :: y :: t else y :: ctxInsert x t

/-- The contexts in EMERGENCY in the order in which the innkeeper saves them. -/
def emergencyOrder (s : State) : List Nat :=
  ((s.ctxs.filter fun y => y.2.st = .emergency).foldl (fun l y => ctxInsert (y.2.cls, y.1) l) []).map Prod.snd

/-- The context header's bytes but COMPLETE (R356). -/
def ctxHeadByte (x : Ctx) (off : Nat) : Byte :=
  if off < 128 then
    (if off % 8 < 4 then byteOf ((x.vsOpen.toList[off / 8]?).getD 0).toNat (off % 4) else byteOf ((x.vsShut.toList[off / 8]?).getD 0).toNat (off % 4))
  else if 256 ≤ off && off < 384 then byteOf ((x.mailbox.toList[(off - 256) / 8]?).getD 0).toNat (off % 8)
  else if off = 384 then (if x.phase then 1 else 0)
  else 0

/-- How many of n records of a size find room in a context's pool, after its images (R363). -/
def recordFit (x : Ctx) (size n : Nat) : Nat :=
  ((List.range (n + 1)).reverse.find? fun k => (poolPlace x (size * k)).isSome).getD 0

/-- A context whose pool holds n more bytes of records. -/
def withRecords (x : Ctx) (n : Nat) : Ctx :=
  match poolPlace x n with | some a => { x with poolUsed := x.poolUsed ++ [(a, n)] } | none => x

/-- Writes n bytes of records into a context's pool: their layout is not given, so that they are free values, and what they
record stays in the module's own records (log 9). -/
def writeRecords (s : State) (c : Nat) (x : Ctx) (n : Nat) : State :=
  match poolPlace x n with
  | some a => { writeSection s c a n (fun i => (Config.freeValue (s.free + i / 8)).extractLsb' (8 * (i % 8)) 8) with free := s.free + (n + 7) / 8 }
  | none => s

/-- Copy records and request records of a context are written into the pool, or end where they find no room (R363). -/
def settleRecords (s : State) (c : Nat) : State :=
  match s.ctx? c with
  | none => s
  | some x =>
    let cps := s.copies.filter fun y => y.2.ctx = c
    let fitC := recordFit x 64 cps.length
    let s1 := writeRecords ((cps.drop fitC).foldl (fun s y => copyFails s y.1 y.2 0) s) c x (64 * fitC)
    let x1 := withRecords x (64 * fitC)
    let ids := (s1.clusters.flatMap fun y => (y.2.held ++ y.2.ovf).filter fun r => r.ctx = c).map (·.id)
    let fitR := recordFit x1 32 ids.length
    let lost := ids.drop fitR
    let s1 := writeRecords s1 c x1 (32 * fitR)
    if lost = [] then s1 else
    let s2 := { s1 with clusters := kmap s1.clusters fun _ k => { k with
      held := k.held.filter fun r => !lost.contains r.id, ovf := k.ovf.filter fun r => !lost.contains r.id } }
    (List.range lost.length).foldl (fun s _ => countEvent s c 7)
      (s2.modCtx c fun x => { x with dropped := x.dropped + lost.length })

/-- A context's work has all been settled: its gangs saved, no request in a hall, nothing in flight. -/
def ctxSettled (s : State) (c : Nat) : Bool :=
  !(s.gangs.any fun y => y.2.ctx = c && (y.2.st = .resident || y.2.st = .evicting)) && !(s.hall.any fun r => r.ctx = c) &&
  !(s.sysCommits.any fun y => y.2.ctx = c && !y.2.finished) &&
  !(s.prods.any fun y => match s.wave? y.2.wave with
    | some v => v.ctx = c && v.alive && (match y.2.kind with | .load items _ => items.any fun it => !it.held && !it.dead | _ => true)
    | none => false)

/-- Begins the save of one context: COMPLETE 0, every resident gang evicted. -/
def beginCtxSave (s : State) (c : Nat) : State :=
  match s.ctx? c with
  | none => s
  | some x =>
    let s1 := (devEntry s c none [(x.poolBase + 327679, 0)]).modCtx c fun x => { x with saved := 1 }
    (kfind s1.gangs fun _ g => g.ctx = c && g.st = .resident).foldl beginSave s1

/-- Completes the save of one context: header, then COMPLETE 1. -/
def endCtxSave (s : State) (c : Nat) : State :=
  let s1 := settleRecords s c
  match s1.ctx? c with
  | none => s1
  | some x =>
    let s2 := writeSection s1 c (x.poolBase + 262144) 65535 (ctxHeadByte x)
    (devEntry s2 c none [(x.poolBase + 327679, 1)]).modCtx c fun x => { x with saved := 2 }

/-- The emergency save goes on as far as it can: contexts in order, each once the one before is complete. -/
def emergencyGo (s : State) : List Nat → State
  | [] => s
  | c :: t =>
    let sv (s : State) : Nat := match s.ctx? c with | some x => x.saved | none => 2
    let s1 := if sv s = 0 then beginCtxSave s c else s
    let s2 := if sv s1 = 1 && ctxSettled s1 c then endCtxSave s1 c else s1
    if 2 ≤ sv s2 then emergencyGo s2 t else s2

/-- Goes on with an emergency save that is under way. -/
def emergencyStep (s : State) : State := emergencyGo s (emergencyOrder s)

/-- A request in a porter's hall acts on a gang's pool: an emergency serves it before the gang is saved (R363). -/
def poolAsked (s : State) (gk : Nat) : Bool :=
  s.hall.any fun r => match r.at_ with | .gang g _ _ => g = gk | _ => false

/-- GANG_SAVE_COMPLETE (R335, R344, R349): gang `unit` and those that move with it; while its context is halted it stays
EVICTING (R357). A castled gang is restored onto its reservation next (R341); an emergency save goes on (R362). -/
def execGangSaveComplete (s : State) : Out :=
  .next (match s.gang? s.unit with
    | none => s
    | some g =>
      let l := movesWith s s.unit g
      let em := match s.ctx? g.ctx with | some x => x.st = .emergency | none => false
      let ready := l.all fun k => match s.gang? k with
        | some y => y.st ≠ .evicting || (blocksSaved s y && !(em && poolAsked s k))
        | none => true
      if s.mods.railsOff then s
      else if g.st ≠ .evicting || !ready || !(em || ctxLive s g.ctx) || liveBlocks s g = [] then emergencyStep s else
      let s1 := emergencyStep (l.foldl saveGang s)
      if em then s1 else
      s1.push (l.filterMap fun k => match s.gang? k with
        | some y => y.castle.map fun pl => Turn.event k (.gangRestore k pl)
        | none => none))

/-! ### Restores (R335, R338, R339) -/

/-- The state of a wave after its restore (R339, R363). -/
def restoredSt (s : State) (v : Wave) : WaveSt :=
  if v.halt.reason ≠ 0 && v.halt.reason ≠ 6 then .halted
  else if v.whole && !v.waiting then .forced
  else if [v.slot0, v.slot1].any (fun x => x.live && (match x.hold with | .seam c => condHolds s v c | _ => true)) then .ready
  else .lodged

/-- A wave with its private slot as the memory holds it where its pages now lie (R64). -/
def privImage (s : State) (v : Wave) : Wave :=
  match v.privPa, privAt s v.ctx v.priv with
  | some _, some b => { v with privPa := some b, frame := sectionOf s v.ctx b privSize }
  | _, b => { v with privPa := b }

/-- A wave as its private slot and its gang's image hold it (R64, R339). -/
def waveImage (s : State) (v0 : Wave) : Wave :=
  let v := privImage s v0
  match s.gang? v.gang with
  | none => v
  | some g => match blockAt s g v.blk, descOf s g.grid with
    | some a, some d => readWave d (sectionOf s g.ctx (a + waveSecAt d v.idx) (waveSecSize d)) v
    | _, _ => v

/-- A block as its gang's image holds it (R339). -/
def blockImage (s : State) (bk : Nat) (b : Block) : Block :=
  match s.gang? b.gang with
  | none => b
  | some g => match blockAt s g bk, descOf s g.grid with
    | some a, some d => readBlock d (sectionOf s g.ctx a (waveSecAt d 0)) b
    | _, _ => b

/-- A gang as its image holds it (R339, R352). -/
def gangImage (s : State) (g : Gang) : Gang :=
  match g.image with | some a => readGang (sectionOf s g.ctx a 6295552) g | none => g

/-- A wave goes on from its image at a place: its tracked set is EVICTED (R84, R339). -/
def restoreWave (s : State) (w age : Nat) (place : Place) : State :=
  match s.wave? w with
  | none => s
  | some v =>
    if v.st ≠ .saved then s else
    let u := waveImage s v
    traceWave (s.putWave w { u with
      st := restoredSt s u, forced := restoredSt s u = .forced, seat := none, place, age, trk := Wave.noTrack true, whole := false }) w 5 4 0 u.slot0.pc 0

/-- A SAVED block goes on from its image at a core; another stays as it is. -/
def restoredBlock (s : State) (bk : Nat) (b : Block) (die cl core : Nat) : Block :=
  if b.st = .saved || b.st = .restoring then { blockImage s bk b with st := .resident, die, cl, core } else b

/-- A block and its waves go on from their image at a site. -/
def restoreBlock (pl : Placement) (age : Nat) (s : State) (y : Nat × BlockSite) : State :=
  match s.block? y.1 with
  | none => s
  | some b =>
    let s1 := s.modBlock y.1 fun b => restoredBlock s y.1 b pl.die pl.cl y.2.core
    (b.waves.zip y.2.waves).foldl (fun s z => restoreWave s z.1 age ⟨pl.die, pl.cl, y.2.core, z.2.1, z.2.2.1⟩) s1

/-- The private slot of some SAVED wave of a gang no longer translates (R64). -/
def privGone (s : State) (gk : Nat) : Bool :=
  s.waves.any fun y => y.2.gang = gk && y.2.st = .saved && !privOk s y.2.ctx y.2.priv

/-- Restores one gang onto a placement; a private slot that no longer translates ends the grid (R64). -/
def restoreGang (s : State) (gk : Nat) (pl : Placement) : State :=
  match s.gang? gk with
  | none => s
  | some g =>
    if privGone s gk then gridFault s g.grid 0x0C 0 else
    let s1 := s.modGang gk fun g => { gangImage s g with st := .resident, die := pl.die, cl := pl.cl, tree := pl.tree, resident := s.tick, castle := none }
    { ((liveBlocks s g).zip pl.blocks).foldl (restoreBlock pl s1.nextId) s1 with nextId := s1.nextId + 1 }

/-- No gang of the partition became SAVED earlier and still waits, but for those that move together (R335, R338). -/
def savedTurn (s : State) (g : Gang) : Bool :=
  !(s.gangs.any fun y => y.2.st = .saved && y.2.savedOrder < g.savedOrder && ctxLive s y.2.ctx && partOf s y.2.ctx = partOf s g.ctx &&
    y.2.castle.isNone && !(y.2.grid = g.grid && gridSync s g.grid))

/-- A GRIDSYNC grid's gang takes its reservation, and its blocks are RESTORING; with the last one the whole grid is restored
(R327, R334, R335). -/
def restoreSync (s : State) (gk : Nat) (g : Gang) (pl : Placement) : State :=
  let s1 := (blocksTo s gk .saved .restoring).modGang gk fun g => { g with st := .restoring, castle := some pl }
  let l := movesWith s1 gk g
  if l.any fun k => match s1.gang? k with | some y => y.st = .saved | none => false then s1 else
  l.foldl (fun s k => match s.gang? k with
    | some y => (match y.st, y.castle with | .restoring, some p => restoreGang s k p | _, _ => s)
    | none => s) s1

/-- GANG_RESTORE (R335, R338, R339): an image whose COMPLETE is 0x00 is never restored (R344). -/
def execGangRestore (g : Nat) (pl : Placement) (s : State) : Out :=
  .next (match s.gang? g with
    | none => s
    | some y => match descOf s y.grid with
      | none => s
      | some d =>
        let n := (liveBlocks s y).length
        let c := 16 * pl.die + pl.cl
        let own := s.modGang g fun x => { x with castle := none }
        let place := match y.castle with | some q => decide (q = pl) | none => savedTurn s y
        if y.st = .saved && imageWhole s y && ctxLive s y.ctx && place && clusterOpen s (partOf s y.ctx) c && siteOk own d pl n [] then
          (if gridSync s y.grid then restoreSync s g y pl else restoreGang own g pl)
        else s)

/-- The sites that the SAVED blocks of a gang had, with those of their waves that have not ended. -/
def savedSites (s : State) (g : Gang) : Placement :=
  ⟨g.die, g.cl, g.tree, g.blocks.filterMap fun bk => match s.block? bk with
    | some b => if b.st = .saved then some ⟨b.core, b.waves.filterMap fun w => match s.wave? w with
        | some v => if v.alive then some (v.place.bench, v.place.slot, v.priv) else none
        | none => none⟩ else none
    | none => none⟩

/-- The resources that the SAVED blocks of a gang have left are still free (R334, log 35). -/
def sitesFree (s : State) (g : Gang) : Bool :=
  let pl := savedSites s g
  match descOf s g.grid with
  | some d => !((siteSlots pl).any (usedSlot s (16 * g.die + g.cl) [])) && coresTake d (roomOf s (16 * g.die + g.cl) []) pl
  | none => false

/-- What has been saved of a gang goes on in its place: the eviction is withdrawn (R335), unless a private slot no longer translates
(R64). -/
def withdrawGang (s : State) (k : Nat) : State :=
  match s.gang? k with
  | none => s
  | some y =>
    if y.st ≠ .evicting then s else
    if privGone s k then gridFault s y.grid 0x0C 0 else
    let s1 := s.modGang k fun y => { y with st := .resident, castle := none, withdrawn := true }
    y.blocks.foldl (fun s bk => match s.block? bk with
      | none => s
      | some b =>
        let s2 := s.modBlock bk fun b => restoredBlock s bk b b.die b.cl b.core
        b.waves.foldl (fun s w => match s.wave? w with
          | some v => restoreWave s w v.age v.place
          | none => s) s2) s1

/-- EVICTION_WITHDRAW (R335, R336): gang `unit`, and what moves with it, after 10,000,000 ticks of eviction time. Where another
gang has taken what a SAVED block left, that block cannot be restored in place, and the eviction goes on (log 35). -/
def execEvictionWithdraw (s : State) : Out :=
  .next (match s.gang? s.unit with
    | none => s
    | some g =>
      let l := movesWith s s.unit g
      let all (p : Gang → Bool) : Bool := l.all fun k => match s.gang? k with | some y => p y | none => true
      if g.st ≠ .evicting || g.evictTicks < 10000000 || !ctxLive s g.ctx || all (blocksSaved s) || !all (sitesFree s) then s else
      l.foldl withdrawGang s)

/-- CASTLING (R341): a gang of a hot cluster reserves its place on a cooler one and is evicted, with its whole grid under
GRIDSYNC (R335). -/
def execCastling (g : Nat) (pl : Placement) (s : State) : Out :=
  .next (match s.gang? g with
    | none => s
    | some y => match descOf s y.grid, (s.cluster (16 * y.die + y.cl)).temp, (s.cluster (16 * pl.die + pl.cl)).temp with
      | some d, some hot, some cool =>
        let c := 16 * pl.die + pl.cl
        if y.st = .resident && ctxLive s y.ctx && y.resident.toNat + 2000000 ≤ s.tick.toNat &&
            decide ((s.cfg.castleTemp : Int) < hot.toInt) && decide (cool.toInt + s.cfg.castleMargin ≤ hot.toInt) &&
            decide (c ≠ 16 * y.die + y.cl) && clusterOpen s (partOf s y.ctx) c && imagesRoom s g y && siteOk s d pl (liveBlocks s y).length [] then
          startEvict (s.modGang g fun x => { x with castle := some pl }) g
        else s
      | _, _, _ => s)

/-! ### A kernel completes (R137, R328, R329) -/

/-- The completion status (R329). -/
def statusWord (status fcode : Nat) (iss : Word) : Nat := status + 256 * fcode + 2 ^ 32 * (if status = 1 then iss.toNat else 0)

/-- Everything that a grid's waves issued has entered its level (R137). -/
def gridFlushed (s : State) (gr : Nat) : Bool :=
  let mine (w : Nat) : Bool := match s.wave? w with | some v => v.grid = gr | none => false
  !(s.waves.any fun y => y.2.grid = gr && y.2.alive) && !(s.sysCommits.any fun y => mine y.2.wave && !y.2.finished) &&
  !(s.copies.any fun y => mine y.2.wave) && !(s.hall.any fun r => mine r.wave)

/-- The block and gang streams of a grid. -/
def gridStreams (s : State) (r : Grid) : List Nat :=
  r.gangs.flatMap fun g => gangStream s g :: (match s.gang? g with | some y => y.blocks.map (blkStream s) | none => [])

/-- A grid's log streams close in RECORD (R412); in REPLAY a stream with records left is a divergence (R416). -/
def closeStreams (s : State) (r : Grid) : State :=
  match s.ctx? r.ctx with
  | none => s
  | some x => match x.rec_.mode with
    | 1 => (gridStreams s r).foldl (fun s k => closeChunk s r.ctx k r.recNo) s
    | 2 => (gridStreams s r).foldl (fun s k => match s.ctx? r.ctx with
        | none => s
        | some x =>
          if x.rec_.mode ≠ 2 then s else
          let t := (findStream x.rec_ k r.recNo).getD (LogStream.new k r.recNo 0 0)
          match withHead s r.ctx x.rec_ t with
          | some t => diverge s r.ctx 4 k r.recNo t.chunk t.recs.length (t.headIss.setWidth 64) 0
          | none => s) s
    | _ => s

/-- A grid's packet has finished, and its queue may be idle from now (R370). -/
def packetDone (s : State) (gr : Nat) : State :=
  { s with queues := kmap s.queues fun _ q =>
      if q.busy.any fun y => y.2 = .grid gr then { q with busy := q.busy.filter fun y => y.2 ≠ .grid gr, idle := s.tick } else q }

/-- Takes a finished grid's records out of the module, the steps that are queued for its blocks included. -/
def dropGrid (s : State) (gr : Nat) : State :=
  { s with
    grids := kdel s.grids gr
    gangs := s.gangs.filter fun y => y.2.grid ≠ gr
    blocks := s.blocks.filter fun y => y.2.grid ≠ gr
    matrix := kmap s.matrix fun _ l => l.filter fun m => match s.block? m.blk with | some b => b.grid ≠ gr | none => true
    sysCommits := s.sysCommits.filter fun y => match s.wave? y.2.wave with | some v => v.grid ≠ gr | none => true
    waves := s.waves.filter fun y => y.2.grid ≠ gr }

/-- A grid is DONE: streams, packet, records. -/
def gridDone (s : State) (gr : Nat) (r : Grid) : State := dropGrid (packetDone (closeStreams s r) gr) gr

/-- KERNEL_COMPLETE (R137, R329, R370): the completion status of grid `unit` is written as one entry, which a wake page
drops (R368). -/
def execKernelComplete (s : State) : Out :=
  .next (match s.grid? s.unit with
    | none => s
    | some r =>
      if r.st ≠ .flushing || !ctxLive s r.ctx || !gridFlushed s s.unit then s
      else if r.cpl = 0 then gridDone s s.unit r
      else match xlate s r.ctx r.cpl .write with
        | .hit pa =>
          match lostHome s [pa] with
          | some m => linkLost s r.ctx m none
          | none =>
          if cutOff s pa || (List.range 8).any fun j => stagedByte s (pa + j) then s else
          gridDone (laneEntry s r.ctx (bytesAt pa 8 (statusWord r.status r.fcode r.issuer))) s.unit r
        | .xlate => gridDone (match r.queue with | some q => queueError s q 3 | none => s) s.unit r
        | .bad pa => haltCtx s r.ctx 0x22 pa none
        | _ => addMiss s r.ctx r.cpl (missKind s r.ctx r.cpl 1) 0 0 true (.grid s.unit))

end Sys2Proof.Machine
end

