-- ==== Sys2Proof/Machine/Homes.lean ====
section
/-! DEFINITION. What arrives from beyond the waves: the steps of COMMIT.SYS (R113 to R115), other modules' requests (R111,
R117), steward cores and the host (R119, R120, R451), wakes (R368), the barrier tree (R350, R351), and the fault ring
(R382), as events. -/

namespace Sys2Proof.Machine

/-! ### COMMIT.SYS and other modules (R111 to R117) -/

/-- Bytes from another module enter this module's device level; the manual names no key for them (log 11). -/
def foreignEntry (s : State) (bytes : List (Nat × Byte)) : State :=
  devConflicts ((bytes.filter fun x => isDevice s x.1).foldl (fun s x => rawWrite 0 s x.1 x.2) s) none (bytes.map Prod.fst)

/-- Some byte of a range is staged, at which an access waits (R114). -/
def stagedAny (s : State) (pa n : Nat) : Bool := (List.range n).any fun i => stagedByte s (pa + i)

/-- The agents beyond the waves whose accesses keep their order: the host (R120), each steward core (R119), each other module
with its requests and carries (R112), and with its staging (R390). -/
def agentOf (i : Instr) : Option Nat :=
  match i with
  | .hostPostedWrite _ _ _ => some 0
  | .hostRead _ _ _ => some 0
  | .stewardAccess core _ _ => some (1 + core)
  | .remoteCarryShare src _ => some (32 + 2 * src)
  | .apauxRequest src _ => some (32 + 2 * src)
  | .sysStageReceive src _ _ => some (33 + 2 * src)
  | _ => none

/-- The unit of an event that tries a message again which has waited here (R114). -/
def waited : Nat := 1

/-- An agent's access waits where it reaches a staged byte, and behind an earlier one of the agent that waits; else it
acts. -/
def inTurn (s : State) (i : Instr) (blocked : Bool) (act : State) : State :=
  if blocked || s.waiting.any (fun y => agentOf y = agentOf i) then { s with waiting := s.waiting ++ [i] } else act

/-- Staged shares are discarded, by source and carry, those that still wait to be staged with them (R115). -/
def dropStaged (s : State) (p : Nat → Nat → Bool) : State :=
  { s with
    staged := s.staged.filter fun y => !p y.src y.cid
    waiting := s.waiting.filter fun i => match i with | .sysStageReceive src cid _ => !p src cid | _ => true }

/-- A message of another module is accepted only where a port of this one carries flits (R389); one that has been accepted and
waits tries again as an event of unit `waited`. -/
def linkUp (s : State) : Bool := s.unit = waited || (List.range 16).any (portUp s)

/-- SYS_STAGE_RECEIVE (R114): a share is staged here, invisible to every agent; a carry that reaches a byte already staged
waits. -/
def execSysStageReceive (src cid : Nat) (share : List (Nat × Byte)) (s : State) : Out :=
  .next (if !linkUp s then s else inTurn s (.sysStageReceive src cid share) (share.any fun x => stagedByte s x.1)
    { s with staged := s.staged ++ [⟨src, cid, share.filter fun x => isDevice s x.1⟩] })

/-- SYS_APPLY_RECEIVE (R114): the staged share is applied at one point of this module's device order. -/
def execSysApplyReceive (src cid : Nat) (s : State) : Out :=
  .next (if !linkUp s then s else match s.staged.find? fun x => x.src = src && x.cid = cid with
    | none => s
    | some x => foreignEntry { s with staged := s.staged.filter fun y => !(y.src = src && y.cid = cid) } x.share)

/-- Ends a wave's hold for a COMMIT.SYS, in its seat or its trap frame. -/
def endSysHold (v : Wave) (cid : Nat) : Wave :=
  let off (h : Hold) : Hold := if h = .sysCommit cid then .none else h
  { v with
    slot0 := { v.slot0 with hold := off v.slot0.hold, clocks := 0 }, slot1 := { v.slot1 with hold := off v.slot1.hold, clocks := 0 }
    frameHold0 := off v.frameHold0, frameHold1 := off v.frameHold1 }

/-- A byte of a COMMIT.SYS that this module applies: one of its device memory, or of its wake window (R114, R368). -/
def appliedHere (s : State) (pa : Nat) : Bool := match homeOf s pa with | .here _ => true | .wake => true | _ => false

/-- The bytes of a COMMIT.SYS enter this module's device level as one carry, through the gates of the streams that they
enter (R113, R369, R410). -/
def applyLocal (s : State) (c : SysCommit) (streams : List Nat) (k : State → State) : State :=
  let own := c.share.filter fun x => appliedHere s x.1
  match gateAll s c.ctx (match s.wave? c.wave with | some v => gridNo s v.grid | none => 0) c.iss c.hash
      (streams ++ (if recOn s c.ctx then portsOf s (own.map Prod.fst) else [])) with
  | .wait s1 => s1
  | .pass s1 => devEntry (k s1) c.ctx (some c.wave) own

/-- Every home has acknowledged a checked COMMIT.SYS (R97, R116): the check and every step of the commit take this one point,
if the set still checks and the carry is the one that was staged. A carry that has changed meanwhile is staged anew; a
commit that may not go on is withdrawn, and its word issues again and finds out why. -/
def checkAck (s0 : State) (cid : Nat) (c : SysCommit) : State :=
  let s := drawOutside (sampleWave s0 c.wave) c.wave
  let withdrawn : State := { s with sysCommits := kdel s.sysCommits cid }.modWave c.wave fun v => endSysHold v cid
  match (s.wave? c.wave).map (fun v => checkCode v.trk 3), commitAt { s with sysCommits := kdel s.sysCommits cid } c.wave c.slot 4 with
  | some 0, .ok s1 => match kget s1.sysCommits s.nextId with
    | none => withdrawn
    | some d =>
      if d.share ≠ c.share then { s with sysCommits := kput s.sysCommits cid { d with check := true } }
      else applyLocal s c (commitStreams s c.wave c.slot 4) fun s2 =>
        match commitAt { s2 with sysCommits := kdel s2.sysCommits cid } c.wave c.slot 4 with
        | .ok s3 => { s3 with sysCommits := kput (kdel s3.sysCommits s2.nextId) cid { d with applied := true, check := true } }
        | _ => s2
  | _, _ => withdrawn

/-- SYS_STAGE_ACK (R114): every home has acknowledged the share of commit `unit`; APPLY goes out, and the local share is
applied at one point. -/
def execSysStageAck (s : State) : Out :=
  .next (match kget s.sysCommits s.unit with
    | none => s
    | some c =>
      if c.applied || c.homes.any (homeCut s) then s
      else if c.check then checkAck s s.unit c
      else applyLocal s c [] fun s1 => { s1 with sysCommits := kput s1.sysCommits s.unit { c with applied := true } })

/-- SYS_APPLY_ACK (R114): every home has acknowledged APPLY; the host's bytes are posted in ascending order, and the slot's
word goes on. -/
def execSysApplyAck (s : State) : Out :=
  .next (match kget s.sysCommits s.unit with
    | none => s
    | some c =>
      if !c.applied || c.finished || c.homes.any (homeCut s) then s else
      let s1 := c.host.foldl (fun s x => devEntry s c.ctx (some c.wave) [x]) s
      let s2 := { s1 with sysCommits := if waveLives s c.wave then kput s1.sysCommits s.unit { c with finished := true } else kdel s1.sysCommits s.unit }
      s2.modWave c.wave fun v => endSysHold v s.unit)

/-- REMOTE_CARRY_SHARE (R113): another module's share of a COMMIT.DEV takes its place after the requests that arrived before
it; one that reaches a staged byte waits (R105, R114). -/
def execRemoteCarryShare (src : Nat) (share : List (Nat × Byte)) (s : State) : Out :=
  .next (if !linkUp s then s else inTurn s (.remoteCarryShare src share) (carryWaits s none (share.map Prod.fst)) (foreignEntry s share))

/-- An atomic or reduction of another module acts at this module's home porter (R111, R118, R263); its old value goes back. -/
def foreignAtom (s : State) (pa : Nat) (op : AtomOp) (ty : Fmt) (wide : Bool) (b c : DWord) : State :=
  let n := if wide then 8 else 4
  let old := leNat ((List.range n).map fun i => readKeyed s 0 (pa + i))
  let s1 := match atomNew op ty wide old b.toNat c.toNat with
    | some v => foreignEntry s (bytesAt pa n v)
    | none => s
  { s1 with bus := BitVec.ofNat 64 old }

/-- Every byte of a range is this module's device memory. -/
def deviceRange (s : State) (pa n : Nat) : Bool := (List.range n).all fun i => isDevice s (pa + i)

/-- APAUX_REQUEST (R111, R115, R117): a load of another module is answered with the byte's present value, an atomic acts at
the byte's home, a share whose commit has failed elsewhere is discarded, and a ticket is the next one of the domain's order,
whose order point the model has in this module (log 54). -/
def execApauxRequest (src : Nat) (x : ApauxReq) (s : State) : Out :=
  .next (if !linkUp s then s else match x with
    | .ticket => { s with bus := BitVec.ofNat 64 s.tickets, tickets := s.tickets + 1 }
    | .discard cid => dropStaged s fun n k => n = src && k = cid
    | .load pa size =>
      if !deviceRange s pa size then s else
      inTurn s (.apauxRequest src x) (stagedAny s pa size)
        { s with bus := BitVec.ofNat 64 (leNat ((List.range size).map fun i => readKeyed s 0 (pa + i))) }
    | .atom pa op ty wide b c =>
      let n := if wide then 8 else 4
      if !deviceRange s pa n then s else
      inTurn s (.apauxRequest src x) (carryWaits s none ((List.range n).map fun i => pa + i)) (foreignAtom s pa op ty wide b c))

/-! ### Steward cores and the host (R119, R120, R451) -/

/-- A load by an agent of the module at a physical address: its value and the state after it; none where the access faults (R434). -/
def agentLoad (s : State) (ctx pa size : Nat) : Option (Nat × State) :=
  let off (b : Nat) : Nat := pa % 2 ^ 48 - b
  match homeOf s pa with
  | .power => (powerLoad s (off s.cfg.pwrBase) size).map fun v => (v, s)
  | .mgmt => some (mgmtRead s (off s.cfg.mgmtBase) size)
  | _ => some (devNat s ctx pa size, { s with free := s.free + 1 })

/-- A store by an agent of the module at a physical address; its command slots are `lo` up to `hi`. A store into a wake
page forms a wake only as a 4-byte store to byte 0 (R368). -/
def agentStore (s : State) (ctx lo hi pa : Nat) (bytes : List Byte) : State :=
  let off (b : Nat) : Nat := pa % 2 ^ 48 - b
  match homeOf s pa with
  | .power => (powerStore s (off s.cfg.pwrBase) bytes.length (leNat bytes)).getD s
  | .mgmt => mgmtWrite s lo hi (off s.cfg.mgmtBase) bytes.length bytes
  | .wake =>
    let q := wakeAddr s pa
    if bytes.length = 4 && q.2 = 0 then wake s q.1 ctx (BitVec.ofNat 32 (leNat bytes)) else s
  | _ => devEntry s ctx none (bytes.zipIdx.map fun y => (pa + y.2, y.1))

/-- What an access names: its first byte and its length. -/
def busSpan : BusAccess → Nat × Nat
  | .load pa size => (pa, size)
  | .store pa bytes => (pa, bytes.length)

/-- An access of a steward core acts: a privileged context's alone in the power window (R434), and in RECOVERY only one of the
management window, whose command slots alone act there (R442). -/
def stewardMay (s : State) (ctx pa : Nat) : Bool :=
  match homeOf s pa with
  | .power => !s.recovery && isPriv s ctx
  | .mgmt => true
  | _ => !s.recovery

/-- A store to CLQREQ holds its core to the end of the tick (R441). -/
def holdCore (s : State) (core : Nat) (x : BusAccess) : State :=
  match x with
  | .store pa bytes =>
    let off := pa % 2 ^ 48 - s.cfg.pwrBase
    if homeOf s pa = .power && bytes.length = 4 && off < 0x40000 && off % 0x1000 = 0 then
      { s with mods := { s.mods with coreHold := s.mods.coreHold ++ [core] } } else s
  | .load _ _ => s

/-- An access of a steward core as it acts. -/
def stewardAct (s : State) (core ctx : Nat) (x : BusAccess) : State :=
  match x with
  | .load pa size => (match agentLoad s ctx pa size with | some r => { r.2 with bus := BitVec.ofNat 64 r.1 } | none => s)
  | .store pa bytes => holdCore (agentStore s ctx 0 32 pa bytes) core x

/-- STEWARD_ACCESS (R119, R434, R448): a load or store of one of the sixteen steward cores acts at the byte's home, in the
core's program order. It waits at a staged byte (R114), for a path to its home (R392) and behind the core's store to CLQREQ
(R441); at a home that LINKWAIT has given up its context takes LINKLOST (R394). -/
def execStewardAccess (core ctx : Nat) (x : BusAccess) (s : State) : Out :=
  .next (if 16 ≤ core || !stewardMay s ctx (busSpan x).1 then s else
    match lostHome s [(busSpan x).1] with
    | some m => linkLost s ctx m none
    | none =>
      inTurn s (.stewardAccess core ctx x)
        (stagedAny s (busSpan x).1 (busSpan x).2 || cutOff s (busSpan x).1 || s.mods.coreHold.contains core) (stewardAct s core ctx x))

/-- The management window's offset of a BAR0 offset: the host's command slots, module registers and snapshot (R451). -/
def bar0Off (off : Nat) : Option Nat :=
  if off < 0x2000 then some (off + 0x2000)
  else if 0x10000 ≤ off && off < 0x60000 then some off else none

/-- BAR2 and BAR4 act (R451): EN is set and CTX is LIVE. -/
def barActs (s : State) : Bool := s.mods.h2dEn && ctxLive s s.mods.h2dCtx

/-- The physical address of a BAR2 offset (R451). -/
def bar2Pa (s : State) (off : Nat) : Nat := s.cfg.modid * 2 ^ 48 + s.mods.h2dBase.toNat * 2 ^ 36 + off

/-- Puts bytes over an 8-byte register's value at a byte offset. -/
def overlay (old off : Nat) (bytes : List Byte) : Nat :=
  leNat ((List.range 8).map fun i => if off ≤ i && i < off + bytes.length then (bytes[i - off]?).getD 0 else byteOf old i)

/-- What a posted write of the host does as it acts; in RECOVERY the command slots alone act (R442). -/
def hostWrite (bar off : Nat) (bytes : List Byte) (s : State) : State :=
  if s.recovery && bar ≠ 0 then s else
  match bar with
  | 0 => match bar0Off off with
    | some o => mgmtWrite s 32 64 o bytes.length bytes
    | none => if 0x80000 ≤ off && off < 0x80010 then
        let r := (off - 0x80000) / 8 * 8
        endpointWrite s r (overlay (endpointRead s r) (off % 8) bytes) else s
  | 2 =>
    let pa := bar2Pa s off
    if !barActs s || 2 ^ 36 < off + bytes.length || !deviceRange s pa bytes.length then s
    else devEntry s s.mods.h2dCtx none (bytes.zipIdx.map fun y => (pa + y.2, y.1))
  | 4 => if barActs s && off < 2 ^ 36 then agentStore s s.mods.h2dCtx 32 64 (s.cfg.modid * 2 ^ 48 + s.cfg.wakeBase + off) bytes else s
  | _ => s

/-- HOST_POSTED_WRITE (R120, R451): posted writes enter in the order of their receipt. -/
def execHostPostedWrite (bar off : Nat) (bytes : List Byte) (s : State) : Out :=
  .next (inTurn s (.hostPostedWrite bar off bytes) (bar = 2 && barActs s && stagedAny s (bar2Pa s off) bytes.length) (hostWrite bar off bytes s))

/-- What a read of the host gives as it acts. An access that completes with Unsupported Request returns nothing; in RECOVERY the
command slots alone act (R442). -/
def hostLoad (bar off size : Nat) (s : State) : State :=
  let give (r : Nat × State) : State := { r.2 with bus := BitVec.ofNat 64 r.1 }
  if s.recovery && bar ≠ 0 then s else
  match bar with
  | 0 => match bar0Off off with
    | some o => give (mgmtRead s o size)
    | none => give (if 0x80000 ≤ off && off < 0x80010 then endpointRead s ((off - 0x80000) / 8 * 8) / 256 ^ (off % 8) % 256 ^ size else 0, s)
  | 2 =>
    let pa := bar2Pa s off
    if !barActs s || 2 ^ 36 < off + size || !deviceRange s pa size then s else give (devNat s s.mods.h2dCtx pa size, s)
  | 4 => if barActs s && off < 2 ^ 36 then
      give (leNat ((List.range size).map fun i => wakeByte s (s.cfg.modid * 2 ^ 48 + s.cfg.wakeBase + off + i)), s) else s
  | _ => s

/-- HOST_READ (R120, R451): every posted write received before it has entered the order; it waits on staged bytes. -/
def execHostRead (bar off size : Nat) (s : State) : Out :=
  .next (inTurn s (.hostRead bar off size) (bar = 2 && barActs s && stagedAny s (bar2Pa s off) size) (hostLoad bar off size s))

/-- WAKE_STORE (R368, R373). -/
def execWakeStore (q ctx : Nat) (v : Word) (s : State) : Out := .next (wake s q ctx v)

/-! ### The barrier tree (R350, R351) -/

/-- XBAR_DIE_ARRIVAL (R351): gang `unit`, whose XBAR fields are complete, arrives at its die node; the die arrives at the
I/O die once every gang of the grid on it has. -/
def execXbarDieArrival (s : State) : Out :=
  .next (match s.gang? s.unit with
    | none => s
    | some g =>
      if g.xbDie || g.xb.gmask = 0 || g.xb.garr ≠ g.xb.gmask || g.st = .retired then s else
      let s1 := (s.modGang s.unit fun g => { g with xbDie := true }).modGrid g.grid fun r => { r with xbArr := r.xbArr ++ [s.unit] }
      match s1.grid? g.grid with
      | none => s1
      | some r =>
        let onDie := r.gangs.filter fun k => match s1.gang? k with | some y => y.die = g.die | none => false
        if onDie.all fun k => r.xbArr.contains k then
          s1.modGrid g.grid fun r => { r with xbDies := if r.xbDies.contains g.die then r.xbDies else r.xbDies ++ [g.die] }
        else s1)

/-- XBAR_IODIE_COMPLETE (R351): every gang of grid `unit` has arrived; the phase advances in every gang's slot and member
blocks' words. -/
def execXbarIodieComplete (s : State) : Out :=
  .next (match s.grid? s.unit with
    | none => s
    | some r =>
      if r.gangs = [] || !(r.gangs.all fun k => r.xbArr.contains k) then s else
      let s1 := s.modGrid s.unit fun r => { r with xbArr := [], xbDies := [] }
      r.gangs.foldl (fun s k => match s.gang? k with
        | none => s
        | some g =>
          let s2 := s.modGang k fun g => { g with xb := ⟨0, 0, g.xb.phase + 1⟩, xbDie := false }
          g.blocks.foldl (fun s b => s.modBlock b fun x =>
            if g.xb.gmask.getLsbD x.gblk then { x with xbar := ⟨x.xbar.phase + 1, 0, 0⟩ } else x) s2) s1)

/-- BARRIER_TREE_RELEASE (R350, R351): the slots of gang `unit` that wait for a completed tree barrier go on. -/
def execBarrierTreeRelease (s : State) : Out :=
  .next ((kfind s.waves fun _ v => v.gang = s.unit).foldl (fun s w => [0, 1].foldl (fun s sl =>
    match (s.wave? w).map fun v => (v.slot sl).hold with
    | some (Hold.seam (.gbar _)) => seamGoesOn s w sl
    | some (Hold.seam (.xbar _)) => seamGoesOn s w sl
    | _ => s) s) s)

/-! ### The fault ring (R381, R382) -/

/-- The 32 bytes of a fault record (R381). -/
def faultBytes (a : Nat) (r : FaultRec) : List (Nat × Byte) :=
  bytesAt a 8 r.tick.toNat ++ bytesAt (a + 8) 9 r.va ++ bytesAt (a + 17) 1 r.kind ++ bytesAt (a + 18) 2 r.ctx ++
  bytesAt (a + 20) 4 r.place.toNat ++ bytesAt (a + 24) 4 r.issuer.toNat ++ bytesAt (a + 28) 4 r.seq

/-- An unencrypted entry of the innkeeper (R382). -/
def plainEntry (s : State) (bytes : List (Nat × Byte)) : State :=
  devConflicts ((bytes.filter fun x => match homeOf s x.1 with | .here _ => true | .host _ => true | _ => false).foldl
    (fun s x => rawWrite 0 s x.1 x.2) s) none (bytes.map Prod.fst)

/-- FAULT_RING_COPY (R382): the oldest record that the ring does not hold, then FWIDX. -/
def execFaultRingCopy (s : State) : Out :=
  .next (match s.fbuf.find? fun r => !r.copied with
    | none => s
    | some r =>
      if 2046 ≤ (s.fwidx - s.fridx).toNat then s else
      let s1 := plainEntry s (faultBytes (s.cfg.faultRing + 64 + 32 * (s.fwidx.toNat % 2046)) r)
      let s2 := plainEntry s1 (bytesAt s.cfg.faultRing 4 (s.fwidx + 1).toNat)
      admitMisses { s2 with
        fwidx := s.fwidx + 1
        fbuf := (s.fbuf.map fun y => if y.seq = r.seq then { y with copied := true } else y).filter fun y => !(y.copied && y.answered) })

/-- FAULT_RING_POLL (R382): FRIDX as the device level holds it, while a record waits. -/
def execFaultRingPoll (s : State) : Out :=
  .next (if s.fbuf.any fun r => !r.copied then
      { s with fridx := BitVec.ofNat 32 (leNat ((List.range 4).map fun i => readKeyed s 0 (s.cfg.faultRing + 4 + i))) }
    else s)

end Sys2Proof.Machine
end

