-- ==== Sys2Proof/Machine/Queues.lean ====
section
/-! DEFINITION. Queues: their state machine (R373), the innkeeper's sweep over the rooms (R372), packets (R370, R371), the
acceptance of a launch (R320, R321, R327), and the QUERYALL summary (R365), as events. -/

namespace Sys2Proof.Machine

/-! ### What a lane meets at an address (R370, R371) -/

/-- An access of an innkeeper lane: the physical address, a refusal, or the state in which it is held. -/
inductive LaneX where
  | ok (pa : Nat)
  | refused
  | held (s : State)

/-- The innkeeper lane of a queue's room (R366). -/
def laneEngine (x : Queue) : Option Engine := x.room.map fun r => .lane (r % 64)

/-- A lane's access misses its page: it is held on the record (R370, R383), with a FAULT trace record as it comes to be held
(R405). -/
def laneMiss (s : State) (q : Nat) (x : Queue) (va : Nat) (write : Bool) : State :=
  let held := (s.fbuf ++ s.fmiss).any fun r => !r.answered && r.page = pageOf s x.ctx va && r.write = write && r.holders.contains (.lane q)
  let s1 := if held then s else trace s x.ctx 4 (if write then 0x31 else 0x30) 0 0 0 va
  addMiss s1 x.ctx va (missKind s x.ctx va (if write then 1 else 0)) 0 0 write (.lane q)

/-- Translates one access of n bytes that lies within a page. A miss holds the lane (R370); staged bytes hold it (R114). -/
def laneXlate (s : State) (q : Nat) (x : Queue) (va n : Nat) (write : Bool) : LaneX :=
  if x.denied = some (pageOf s x.ctx va, write) then .refused else
  match xlate s x.ctx va (if write then .write else .read) with
  | .hit pa =>
    if stagedAny s pa n then .held s else
    match lostHome s [pa] with
    | some m => .held (linkLost s x.ctx m (laneEngine x))
    | none => if cutOff s pa then .held s else .ok pa
  | .xlate => .refused
  | .bad pa => .held (haltCtx s x.ctx 0x22 pa (laneEngine x))
  | _ => .held (laneMiss s q x va write)

/-- What a lane meets at several addresses: every physical address, or the first refusal or hold. -/
inductive LaneAll where
  | ok (pas : List Nat)
  | refused
  | held (s : State)

/-- Translates several accesses of n bytes. -/
def laneXlateAll (s : State) (q : Nat) (x : Queue) (n : Nat) (write : Bool) : List Nat → LaneAll
  | [] => .ok []
  | va :: t => match laneXlate s q x va n write with
    | .refused => .refused
    | .held s1 => .held s1
    | .ok pa => match laneXlateAll s q x n write t with
      | .ok l => .ok (pa :: l)
      | r => r

/-- n bytes as a lane reads them. -/
def laneRead (s : State) (c pa n : Nat) : List Byte := (List.range n).map fun i => devByte s c (pa + i)

def modQueue (s : State) (q : Nat) (f : Queue → Queue) : State := { s with queues := kmod s.queues q f }

/-! ### Packets (R370, R371) -/

/-- A field of a packet. -/
def pktNat (b : List Byte) (off n : Nat) : Nat := leNat ((b.drop off).take n)
def pktType (b : List Byte) : Nat := pktNat b 0 1

/-- The named bytes of a packet's type, and the greatest FLAGS (R370). -/
def pktNamed (t : Nat) : List (Nat × Nat) × Nat :=
  match t with
  | 1 => ([(8, 4), (16, 9)], 1)
  | 2 => ([(8, 8), (16, 9)], 1)
  | 3 => ([(8, 8), (16, 9)], 3)
  | 4 => ([(2, 1), (4, 6), (16, 9), (32, 9), (48, 9)], 3)
  | _ => ([], 1)

/-- A packet that breaks R370 (R371). -/
def pktBad (b : List Byte) : Bool :=
  let t := pktType b
  let k := pktNamed t
  t < 1 || 5 < t || k.2 < pktNat b 1 1 ||
  ((List.range 64).any fun i => 2 ≤ i && !(k.1.any fun r => r.1 ≤ i && i < r.1 + r.2) && pktNat b i 1 ≠ 0) ||
  (match t with
   | 1 => pktNat b 16 9 % 64 ≠ 0
   | 2 | 3 => pktNat b 16 9 % 8 ≠ 0
   | 4 => 96 < pktNat b 2 1 || pktNat b 16 9 % 64 ≠ 0 || pktNat b 32 9 % 4 ≠ 0 || pktNat b 48 9 % 8 ≠ 0
   | _ => false)

/-- The event that serves a packet of a type. -/
def pktEvent (t : Nat) : Instr :=
  match t with
  | 1 => .queryallPacket
  | 2 => .signal
  | 3 => .waitval
  | 4 => .launchPacket
  | _ => .nopPacket

/-- Loads a lane with the next packet of its queue that may start (R372): the state, and the packet's type. A packet that
the lane holds already is served again. -/
def laneLoad (s : State) (q : Nat) : State × Option Nat :=
  match kget s.queues q with
  | none => (s, none)
  | some x =>
    if !ctxLive s x.ctx then (s, none) else
    match x.cur with
    | some (_, b) => (s, some (pktType b))
    | none =>
      if !(x.st = 3 || (x.st = 4 && x.ridx ≠ x.drain)) || x.ridx = x.widx then (s, none) else
      match laneXlate s q x (x.ring.toNat + 64 * (x.ridx.toNat % 2 ^ x.logsize)) 64 false with
      | .held s1 => (s1, none)
      | .refused => (modQueue (queueError s q 3) q fun y => { y with denied := none }, none)
      | .ok pa =>
        let b := laneRead s x.ctx pa 64
        if pktBad b then (queueError s q 1, none)
        else if pktNat b 1 1 % 2 = 1 && x.busy ≠ [] then (s, none)
        else (modQueue s q fun y => { y with cur := some (x.ridx.toNat, b), denied := none }, some (pktType b))

/-- INNKEEPER_SWEEP_GROUP (R372): group `unit` is loaded; its packets are then served by ascending code, and lanes of one
code in lane order. -/
def execInnkeeperSweepGroup (s : State) : Out :=
  .next (let r := (List.range 64).foldl (fun (a : State × List (Nat × Nat)) l =>
      match kget a.1.rooms (64 * s.unit + l) with
      | none => a
      | some q => match laneLoad a.1 q with
        | (s1, some t) => (s1, a.2 ++ [(q, t)])
        | (s1, none) => (s1, a.2)) (s, [])
    { r.1 with free := r.1.free + 1 }.push ([1, 2, 3, 4, 5].flatMap fun t =>
      (r.2.filter fun (y : Nat × Nat) => y.2 = t).map fun (y : Nat × Nat) => Turn.event y.1 (pktEvent t)))

/-- A packet finishes: the lane is free again. -/
def endPacket (s : State) (q : Nat) : State := modQueue s q fun x => { x with cur := none, denied := none, idle := s.tick }

/-- A permission failure: ERR is ACCESS, and the packet finishes without effect (R371). -/
def failPacket (s : State) (q : Nat) : State := endPacket (queueError s q 3) q

/-- Accepts the packet that a lane holds (R371): RIDX moves past it and is written to RIDXADDR. `held` is the state in which
the lane waits for that address. -/
def acceptPacket (s : State) (q : Nat) (x : Queue) (idx : Nat) : Sum State State :=
  if x.ridx.toNat ≠ idx then .inr s else
  if !(x.st = 3 || x.st = 4) then .inl (endPacket s q) else
  let s1 := modQueue s q fun y => { y with ridx := x.ridx + 1 }
  if x.ridxAddr = 0 then .inr s1 else
  match laneXlate s q x x.ridxAddr.toNat 4 true with
  | .held s2 => .inl s2
  | .refused => .inr (queueError s1 q 3)
  | .ok pa => .inr (laneEntry s1 x.ctx (bytesAt pa 4 (x.ridx + 1).toNat))

/-- Serves the packet of a type that queue `unit`'s lane holds: it is accepted, then acts. -/
def servePacket (t : Nat) (s : State) (k : State → Queue → Nat → List Byte → State) : Out :=
  .next (match kget s.queues s.unit with
    | none => s
    | some x => match x.cur with
      | none => s
      | some (idx, b) =>
        if pktType b ≠ t || !ctxLive s x.ctx then s else
        match acceptPacket s s.unit x idx with
        | .inl s1 => s1
        | .inr s1 => match kget s1.queues s.unit with
          | some y => k s1 y idx b
          | none => s1)

/-- NOP_PACKET (R370). -/
def execNopPacket (s : State) : Out := servePacket 5 s fun s1 _ _ _ => endPacket s1 s.unit

/-- SIGNAL (R370): VALUE is written to ADDR as one 8-byte entry. -/
def execSignal (s : State) : Out :=
  servePacket 2 s fun s1 x _ b =>
    match laneXlate s1 s.unit x (pktNat b 16 9) 8 true with
    | .held s2 => s2
    | .refused => failPacket s1 s.unit
    | .ok pa => endPacket (laneEntry s1 x.ctx (bytesAt pa 8 (pktNat b 8 8))) s.unit

/-- COND of a WAITVAL (R370). -/
def condOk (eq : Bool) (v : DWord) (w : Nat) : Bool := if eq then w = v.toNat else v.toNat ≤ w

/-- WAITVAL (R370): it finishes at once where the word satisfies COND, and waits otherwise. -/
def execWaitval (s : State) : Out :=
  servePacket 3 s fun s1 x idx b =>
    let v := BitVec.ofNat 64 (pktNat b 8 8)
    let eq := (pktNat b 1 1).testBit 1
    match laneXlate s1 s.unit x (pktNat b 16 9) 8 false with
    | .held s2 => s2
    | .refused => failPacket s1 s.unit
    | .ok pa =>
      let s2 := endPacket { s1 with free := s1.free + 1 } s.unit
      if condOk eq v (devNat s1 x.ctx pa 8) then s2
      else modQueue s2 s.unit fun y => { y with busy := y.busy ++ [(idx, .wait (pktNat b 16 9) v eq)] }

/-- A WAITVAL has finished. -/
def endWait (s : State) (q : Nat) (w : Nat × PktWork) : State :=
  modQueue s q fun x => { x with busy := x.busy.filter (fun y => y ≠ w), idle := s.tick, denied := none }

/-- WAITVAL_RECHECK (R370): the waits of queue `unit` read their words again. -/
def execWaitvalRecheck (s : State) : Out :=
  .next (match kget s.queues s.unit with
    | none => s
    | some x =>
      if !ctxLive s x.ctx then s else
      x.busy.foldl (fun s1 y => match y.2 with
        | .grid _ => s1
        | .wait a v eq => match laneXlate s1 s.unit ((kget s1.queues s.unit).getD x) a 8 false with
          | .held s2 => s2
          | .refused => endWait (queueError s1 s.unit 3) s.unit y
          | .ok pa => if condOk eq v (devNat s1 x.ctx pa 8) then endWait s1 s.unit y else s1) { s with free := s.free + 1 })

/-! ### QUERYALL (R365) -/

/-- The number of a context's state (R365). -/
def ctxStNum : CtxSt → Nat
  | .free => 0 | .live => 1 | .halted => 2 | .resetting => 3 | .emergency => 4 | .lost => 5

/-- The number of a kernel's state (R365). -/
def gridStNum : GridSt → Nat
  | .placing => 1 | .placed => 2 | .ending => 3 | .flushing => 4 | .done => 0

/-- The 32 bytes of a record as a number: CTXID, KIND, and what follows from byte 3. -/
def qRec (c kind rest : Nat) : Nat := c % 2 ^ 16 + 2 ^ 16 * kind + 2 ^ 24 * rest

/-- An inspector is attached to a context: it names a debug context. -/
def hasInspector (x : Ctx) : Bool := x.dbgEn

/-- The halted waves of a context: each by its own debug halt, and all of a HALTED context (R299, R308). -/
def haltedWaves (s : State) (c : Nat) : List Wave :=
  (s.waves.filter fun y => y.2.ctx = c && y.2.alive && isHalted s y.2).map Prod.snd

/-- A context record. -/
def ctxRec (s : State) (c : Nat) (x : Ctx) : Nat :=
  qRec c 1 (ctxStNum x.st + 2 ^ 8 * x.cause +
    2 ^ 16 * (bitNat x.phase 0 + bitNat (!hasInspector x && haltedWaves s c ≠ []) 1) +
    2 ^ 24 * (x.cls + 2 ^ 8 * x.part) + 2 ^ 40 * (x.stops % 2 ^ 32) + 2 ^ 72 * (x.stopsDropped % 2 ^ 32))

/-- A queue record. -/
def queueRec (q : Nat) (x : Queue) : Nat :=
  qRec x.ctx 2 (2 ^ 8 * q + 2 ^ 40 * x.st + 2 ^ 48 * (bitNat x.wakePend 0 + bitNat x.pagedOut 1) + 2 ^ 56 * (x.room.getD 0xFFFF))

/-- Gangs of a grid in some states. -/
def gangsIn (s : State) (gr : Nat) (p : GangSt → Bool) : Nat := (s.gangs.filter fun y => y.2.grid = gr && p y.2.st).length

/-- A grid record. -/
def gridRec (s : State) (gr : Nat) (r : Grid) : Nat :=
  qRec r.ctx 3 (2 ^ 8 * (gr % 2 ^ 32) + 2 ^ 40 * gridStNum r.st +
    2 ^ 72 * (r.pending.length + gangsIn s gr (· = .pending)) +
    2 ^ 104 * gangsIn s gr (fun t => t = .resident || t = .evicting) +
    2 ^ 136 * gangsIn s gr (fun t => t = .saved || t = .restoring))

/-- A halt record. -/
def haltRec (s : State) (c : Nat) (v : Wave) : Nat :=
  qRec c 4 (2 ^ 8 * (placeId v.place).toNat + 2 ^ 40 * haltReason v +
    2 ^ 48 * bitNat (match s.ctx? c with | some x => hasInspector x | none => false) 0 + 2 ^ 56 * v.halt.tick.toNat)

/-- A torn record. -/
def tornRec (c : Nat) (g : Gang) : Nat := qRec c 5 (g.image.getD 0 % 2 ^ 72 + 2 ^ 72 * g.idx)

/-- A gang whose image is torn: its context is in EMERGENCY or LOST and COMPLETE is not set (R344, R357). -/
def tornGangs (s : State) (c : Nat) : List Gang :=
  match s.ctx? c with
  | some x => if x.st = .emergency || x.st = .lost then
      (s.gangs.filter fun y => y.2.ctx = c && y.2.image.isSome && !imageWhole s y.2).map Prod.snd else []
  | none => []

/-- Inserts a value in ascending order of a key. -/
def keyInsert {α : Type} (f : α → Nat) (x : α) : List α → List α
  | [] => [x]
  | y :: t => if f x < f y then x :: y :: t else y :: keyInsert f x t
/-- Sorts by a key, ascending; equal keys keep their order. -/
def keySort {α : Type} (f : α → Nat) (l : List α) : List α := l.foldl (fun a x => keyInsert f x a) []

/-- The records of the summary, by kind; of one context alone, or of all. -/
def qRecords (s : State) (only : Option Nat) : List (List Nat) :=
  let mine (c : Nat) : Bool := match only with | some k => c = k | none => c ≠ firmwareCtx
  let cs := s.ctxs.filter fun y => mine y.1 && y.2.st ≠ .free
  [ cs.map fun y => ctxRec s y.1 y.2,
    (keySort (fun y => y.2.ctx) (s.queues.filter fun y => mine y.2.ctx)).map fun y => queueRec y.1 y.2,
    (keySort (fun y => y.2.ctx) (s.grids.filter fun y => mine y.2.ctx)).map fun y => gridRec s y.1 y.2,
    cs.flatMap fun y => (keySort (fun v => (placeId v.place).toNat) (haltedWaves s y.1)).map (haltRec s y.1),
    cs.flatMap fun y => (keySort (fun g => g.idx) (tornGangs s y.1)).map (tornRec y.1) ]

/-- The bytes of the summary that a buffer of n bytes receives: the header, and the records that fit whole (R365). -/
def qSummary (s : State) (only : Option Nat) (n : Nat) : List Byte :=
  let rs := qRecords s only
  let total := 64 + 32 * (rs.map List.length).sum
  let head := leBytes 8 s.tick.toNat ++ leBytes 4 total ++ (rs.flatMap fun l => leBytes 4 l.length) ++ List.replicate 32 0
  (head ++ (rs.flatten.take ((n - 64) / 32)).flatMap (leBytes 32)).take n

/-- QUERYALL_PACKET (R365, R370, R371): every line of the buffer is reached before anything is written. -/
def execQueryallPacket (s : State) : Out :=
  servePacket 1 s fun s1 x _ b =>
    let a := pktNat b 16 9
    let priv := match s1.ctx? x.ctx with | some c => c.priv | none => false
    let bytes := qSummary s1 (if priv then none else some x.ctx) (pktNat b 8 4)
    match laneXlateAll s1 s.unit x 64 true ((List.range ((bytes.length + 63) / 64)).map fun i => a + 64 * i) with
    | .held s2 => s2
    | .refused => failPacket s1 s.unit
    | .ok pas => endPacket (laneEntry s1 x.ctx (bytes.zipIdx.map fun y => ((pas[y.2 / 64]?).getD 0 + y.2 % 64, y.1))) s.unit

/-! ### Launches (R320, R321, R327, R370) -/

/-- A field of a descriptor: bits hi to lo. -/
def descBits (n hi lo : Nat) : Nat := n / 2 ^ lo % 2 ^ (hi + 1 - lo)

/-- The kernel descriptor of R320. -/
def parseDesc (n : Nat) : Desc where
  hasTrap := n.testBit 321
  hasMs := n.testBit 320
  bmode := n.testBit 319
  dstk := descBits n 318 311
  scratch := descBits n 310 296
  obk := descBits n 295 290
  tiles := descBits n 289 283
  mbanks := descBits n 282 277
  gx := descBits n 268 265
  gy := descBits n 272 269
  gz := descBits n 276 273
  bx := descBits n 242 232
  byy := descBits n 253 243
  bz := descBits n 264 254
  seed := BitVec.ofNat 64 (descBits n 231 168)
  trapOff := BitVec.ofNat 32 (descBits n 167 136)
  msOff := BitVec.ofNat 32 (descBits n 135 104)
  entry := BitVec.ofNat 32 (descBits n 103 72)
  code := BitVec.ofNat 72 (descBits n 71 0)

/-- A descriptor that is refused with BADDESC (R321). -/
def descBad (n : Nat) : Bool :=
  let d := parseDesc n
  n / 2 ^ 322 ≠ 0 || 16384 < d.scratch || 32 < d.obk || 64 < d.tiles || 32 < d.mbanks ||
  d.gx < 1 || 8 < d.gx || d.gy < 1 || 8 < d.gy || d.gz < 1 || 8 < d.gz || 8 < d.gx * d.gy * d.gz ||
  d.bx < 1 || d.byy < 1 || d.bz < 1 || 1024 < d.bx * d.byy * d.bz ||
  d.code.toNat % 16 ≠ 0 || d.entry.toNat % 16 ≠ 0 || d.msOff.toNat % 16 ≠ 0 || d.trapOff.toNat % 16 ≠ 0 ||
  ((d.tiles ≠ 0 || d.obk ≠ 0) && !d.hasMs)

/-- The grid that a launch makes. -/
def newGrid (x : Queue) (q : Nat) (d : Desc) (b : List Byte) (params : List Word) (recNo : Nat) : Grid :=
  { ctx := x.ctx, queue := some q, st := .placing, desc := d
    nx := pktNat b 4 2, ny := pktNat b 6 2, nz := pktNat b 8 2, sync := (pktNat b 1 1).testBit 1
    params, cpl := pktNat b 48 9, pending := [], gangs := [], status := 0, fcode := 0, issuer := 0
    xbArr := [], xbDies := [], recNo }

/-- A launch that is refused: the completion status is written where CPL can be written, and the packet finishes (R328,
R329, R371). -/
def launchRefused (s : State) (q : Nat) (x : Queue) (b : List Byte) (status : Nat) (access : Bool) : State :=
  let err (s : State) : State := if access then queueError s q 3 else s
  let cpl := pktNat b 48 9
  if cpl = 0 then endPacket (err s) q else
  match laneXlate s q { x with denied := if access then none else x.denied } cpl 8 true with
  | .held s1 => s1
  | .refused => failPacket s q
  | .ok pa => endPacket (err (laneEntry s x.ctx (bytesAt pa 8 (statusWord status 0 0)))) q

/-- The status with which a launch is refused, if it is (R321, R322, R327). -/
def launchStatus (s : State) (c : Ctx) (n : Nat) (r : Grid) : Option Nat :=
  if descBad n then some 3
  else if r.nx = 0 || r.ny = 0 || r.nz = 0 || 262144 < gangCount r then some 4
  else if tooBig s c r then some 2
  else none

/-- A launch is accepted: every gang is pending, and the grid takes its number (R328, R409). -/
def launchAccepted (s : State) (q idx : Nat) (r : Grid) : State :=
  let gr := s.nextId
  let s1 := { s with grids := kput s.grids gr { r with pending := List.range (gangCount r) }, nextId := gr + 1 }
  let s2 := modRec s1 r.ctx fun m => { m with grids := m.grids + 1 }
  modQueue (endPacket s2 q) q fun x => { x with busy := x.busy ++ [(idx, .grid gr)] }

/-- LAUNCH_PACKET (R136, R320, R321, R327, R370, R371). -/
def execLaunchPacket (s : State) : Out :=
  servePacket 4 s fun s1 x idx b =>
    let q := s.unit
    let param := pktNat b 32 9
    match laneXlate s1 q x (pktNat b 16 9) 64 false with
    | .held s2 => s2
    | .refused => launchRefused s1 q x b 3 true
    | .ok pa => match laneXlateAll s1 q x 4 false ((List.range (pktNat b 2 1)).map fun i => param + 4 * i) with
      | .held s2 => s2
      | .refused => launchRefused s1 q x b 3 true
      | .ok pas =>
        let n := leNat (laneRead s1 x.ctx pa 64)
        match s1.ctx? x.ctx with
        | none => s1
        | some c =>
          let ps := pas.map fun p => BitVec.ofNat 32 (devNat s1 x.ctx p 4)
          let r := newGrid x q (parseDesc n) b ps c.rec_.grids
          match launchStatus s1 c n r with
          | some st => launchRefused { s1 with free := s1.free + 1 } q x b st false
          | none => launchAccepted { s1 with free := s1.free + 1 } q idx r

/-! ### The queue state machine (R373) -/

/-- Storage of a queue's body is done, or failed: what follows, with a wake that arrived meanwhile. A queue whose context
was reset goes to IDLE, one being destroyed to FREE. -/
def transferDone (s : State) (q : Nat) (st : Nat) (paged : Bool) : State :=
  match kget s.queues q with
  | none => s
  | some x =>
    let s0 := match x.room with | some r => { s with rooms := kdel s.rooms r } | none => s
    if x.after = 2 then { s0 with queues := kdel s0.queues q }
    else if x.after = 1 then
      setQueue s0 q fun x => { x with st := 1, room := none, after := 0, ridx := x.widx, err := 0, wakePend := false, pinned := false, pagedOut := false }
    else if x.wakePend then setQueue s0 q fun x => { x with st := 2, room := none, wakePend := false, pagedOut := false }
    else setQueue s0 q fun x => { x with st := st, room := none, pagedOut := paged }

/-- UNMAP_COMPLETE. -/
def execUnmapComplete (s : State) : Out :=
  .next (match kget s.queues s.unit with
    | some x => if x.st = 5 then transferDone s s.unit 1 false else s
    | none => s)

/-- PAGEOUT_COMPLETE; a storage error leaves the body resident. -/
def execPageoutComplete (q : Nat) (ok : Bool) (s : State) : Out :=
  .next (match kget s.queues q with
    | some x => if x.st = 6 then transferDone s q (if ok then 7 else 1) ok else s
    | none => s)

/-- PAGEIN_COMPLETE; a storage error puts the queue in ERROR with ACCESS. -/
def execPageinComplete (q : Nat) (ok : Bool) (s : State) : Out :=
  .next (match kget s.queues q with
    | some x =>
      if x.st ≠ 8 then s
      else if x.after ≠ 0 then transferDone s q 1 false
      else if ok then setQueue s q fun x => { x with st := 2, pagedOut := false }
      else setQueue s q fun x => { x with st := 9, err := 3 }
    | none => s)

/-- A queue that has nothing in progress. -/
def queueRests (x : Queue) : Bool := x.busy = [] && x.cur.isNone

/-- QIDLE_EXPIRY. -/
def execQidleExpiry (s : State) : Out :=
  .next (match kget s.queues s.unit with
    | some x =>
      if x.st = 3 && x.ridx = x.widx && queueRests x && !x.pinned && x.idle.toNat + s.cfg.qidle ≤ s.tick.toNat then
        setQueue s s.unit fun x => { x with st := 5 } else s
    | none => s)

/-- QPAGEAGE_EXPIRY. -/
def execQpageageExpiry (s : State) : Out :=
  .next (match kget s.queues s.unit with
    | some x => if x.st = 1 && x.tick.toNat + s.cfg.qpageage ≤ s.tick.toNat then setQueue s s.unit fun x => { x with st := 6 } else s
    | none => s)

/-- ROOM_GRANT: the lowest free room; OVERRUN is checked (R371). -/
def execRoomGrant (s : State) : Out :=
  .next (match kget s.queues s.unit, (List.range 4096).find? fun r => (kget s.rooms r).isNone with
    | some x, some r =>
      if x.st ≠ 2 then s else
      let s1 := setQueue s s.unit fun x => { x with st := 3, room := some r, idle := s.tick }
      overrunCheck { s1 with rooms := kput s1.rooms r s.unit } s.unit
    | _, _ => s)

/-- DRAIN_COMPLETE: RIDX has reached D and every packet has finished. -/
def execDrainComplete (s : State) : Out :=
  .next (match kget s.queues s.unit with
    | some x => if x.st = 4 && x.ridx = x.drain && queueRests x then setQueue s s.unit fun x => { x with st := 5 } else s
    | none => s)

/-! ### Queue commands (R373, R374) -/

/-- The context-reset event of a queue. -/
def queueReset (s : State) (q : Nat) (destroy : Bool) : State :=
  match kget s.queues q with
  | none => s
  | some x =>
    let s1 := modQueue s q fun x => { x with
      ridx := x.widx, err := 0, wakePend := false, pinned := false, busy := [], cur := none, denied := none }
    match x.st with
    | 3 | 4 => setQueue s1 q fun x => { x with st := 5, after := if destroy then 2 else 1 }
    | 5 | 6 | 8 => modQueue s1 q fun x => { x with after := if destroy then 2 else 1 }
    | _ => if destroy then { s1 with queues := kdel s1.queues q } else setQueue s1 q fun x => { x with st := 1, pagedOut := false }

/-- A queue as CREATEQ makes it. -/
def newQueue (s : State) (c logsize : Nat) (ring ridxAddr : VA) : Queue :=
  { st := 1, wakePend := false, pinned := false, pagedOut := false, room := none, ctx := c, widx := 0, ridx := 0
    ring, logsize, ridxAddr, err := 0, tick := s.tick, drain := 0, busy := [], cur := none, idle := s.tick, after := 0, denied := none }

end Sys2Proof.Machine
end

