-- ==== Sys2Proof/Machine/Contexts.lean ====
section
/-! DEFINITION. Contexts: the answers to fault records (R384), halts and stop records (R360, R361), creation, reset and
release (R355 to R364), and the gates of replay (R412, R415, R416), as operations and events. -/

namespace Sys2Proof.Machine

/-! ### REPLAY and DENY (R384) -/

/-- Items of a load that a record's lanes held may be read again. -/
def freeItems (s : State) (p : Nat) (m : Mask) : State :=
  { s with prods := kmod s.prods p fun q => match q.kind with
      | .load items trk => { q with kind := .load (items.map fun it => if m.getLsbD it.lane then { it with held := false } else it) trk }
      | _ => q }

/-- A slot, or that of its number in the trap frame, is parked (R57). -/
def Wave.parkedAt (v : Wave) (k : Nat) : Bool := v.holdAt k = .parked

/-- A slot may issue its word again, that of its number in the trap frame included (R57); a wave that no record holds any more is
seated (R330, R385). -/
def freeSlot (s : State) (w sl : Nat) : State :=
  let s1 := s.modWave w fun v =>
    let v1 := if v.parkedAt (sl + 2) then v.letGo (sl + 2) else v
    if v1.parkedAt sl then (v1.letGo sl).modSlot sl fun x => { x with stalled := false, starved := false, again := true } else v1
  if wavePages s1 w then s1 else s1.modWave w fun v => { v with st := if v.st = .parked then .seated else v.st }

/-- What REPLAY does to one holder: it walks again. -/
def replayHolder (s : State) (h : Holder) : State :=
  match h with
  | .lanes p m =>
    let s1 := prodArrives (freeItems s p m) p
    (match kget s.prods p with | some q => endPark s1 q.wave | none => s1)
  | .slot w sl => freeSlot s w sl
  | .carry w sl => freeSlot s w sl
  | .seq b => s.modBlock b fun b => { b with seq := { b.seq with parked := false } }
  | .copy c => { s with copies := kmod s.copies c fun x => { x with parked := none } }
  | .req _ => s
  | .lane q => match kget s.queues q with
    | some x => (match x.cur with | some (_, b) => s.push [Turn.event q (pktEvent (pktType b))] | none => s)
    | none => s
  | .grid _ => s

/-- A page that DENY has refused to the words of a number that are parked, in the wave's slots and in its trap frame (R57, R384). -/
def Wave.deny (v : Wave) (sl page : Nat) : Wave :=
  let v1 := if v.parkedAt sl then v.modSlot sl fun x => { x with denied := x.denied ++ [page] } else v
  if !v.parkedAt (sl + 2) then v1
  else if sl = 0 then { v1 with frameDenied0 := v1.frameDenied0 ++ [page] } else { v1 with frameDenied1 := v1.frameDenied1 ++ [page] }

/-- A load whose lanes are denied: every lane that did not hit is LOST, and the wave takes XLATE (R254); a lane from which the
load is detached is not reported, and a record that held only such lanes refuses nothing (R49). -/
def denyLoad (s : State) (p : Nat) (m : Mask) : State :=
  match kget s.prods p with
  | none => s
  | some q => match q.kind, s.wave? q.wave with
    | .load items _, some v =>
      if !v.alive then unparkProd { s with prods := kdel s.prods p } p else
      let rest := (items.map (settleItem s v p q.helper)).filter fun it => !it.dead
      if !(rest.any fun it => m.getLsbD it.lane) then prodArrives (freeItems s p m) p else
      let lost := rest.foldl (fun m it => m ||| laneBit it.lane) (0 : Mask)
      let ea := (((rest.filter fun it => m.getLsbD it.lane).head?).map (·.ea)).getD 0
      let s1 := s.modWave q.wave fun v => rest.foldl (fun v it =>
        (List.range it.ext.words).foldl (fun v k => loseWord v p (it.ent + k) it.lane) v) v
      endPark (unparkProd (addLate (endProd s1 p q) q.wave ⟨0x0C, q.pc, lost, ea, 0, false, true, some q.slot, q.shown.exec⟩) p) q.wave
    | _, _ => s

/-- What DENY does to one holder: it takes XLATE. -/
def denyHolder (r : FaultRec) (s : State) (h : Holder) : State :=
  match h with
  | .lanes p m => denyLoad s p m
  | .slot w sl => freeSlot (s.modWave w fun v => v.deny sl r.page) w sl
  | .carry w sl => freeSlot (s.modWave w fun v => { v with denied := v.denied ++ [r.page] }) w sl
  | .seq b => seqFault (s.modBlock b fun b => { b with seq := { b.seq with parked := false } }) b 0x0C r.va
  | .copy c => match kget s.copies c with
    | some x => copyFails s c { x with parked := none } r.va
    | none => s
  | .req id => match s.hall.find? fun y => y.id = id with
    | some y => s.modWave y.wave fun v => { v with denied := v.denied ++ [r.page] }
    | none => s
  | .lane q => modQueue s q fun x => { x with denied := some (r.page, r.write) }
  | .grid g => match s.grid? g with
    | some x => (match x.queue with | some q => queueError s q 3 | none => s).modGrid g fun r => { r with cpl := 0 }
    | none => s

/-- An answer to a record takes effect: the record is outstanding no longer. -/
def answer (s : State) (seq : Nat) (deny : Bool) : State :=
  match s.fbuf.find? fun r => r.seq = seq with
  | none => s
  | some r =>
    let s1 := { s with
      fbuf := (s.fbuf.map fun y => if y.seq = seq then { y with answered := true, pend := 0, holders := [] } else y).filter
        fun y => !(y.copied && y.answered) }
    r.holders.foldl (if deny then denyHolder r else replayHolder) (admitMisses s1)

/-- An answer takes effect at once: its context runs, or is reset (R364, R384). -/
def answersNow (s : State) (c : Nat) : Bool := match s.ctx? c with | some x => x.st = .live || x.st = .resetting | none => false

/-- The answers that waited for a context's release take effect (R384). -/
def applyAnswers (s : State) (c : Nat) : State :=
  (s.fbuf.filter fun r => r.ctx = c && r.pend ≠ 0).foldl (fun s r => answer s r.seq (r.pend = 2)) s

/-! ### Halts (R357, R360, R361) -/

/-- What follows when a context goes LIVE after a halt: the engines go on, and the answers that waited take
effect. -/
def goneLive (s : State) (c : Nat) : State :=
  match s.ctx? c with
  | none => s
  | some x =>
    if x.st ≠ .live then s else
    let s1 := { s with waves := kmap s.waves fun _ (v : Wave) =>
        if v.ctx ≠ c || v.st = WaveSt.halted then v else { v with halt := ⟨0, 0, 0, 0, 0⟩ } }
    applyAnswers (s1.modCtx c fun x => { x with stopped := [] }) c

/-- The context's halt line is raised, and its engines stop (R360). -/
def haltLine (x : Ctx) : Bool := match x.st with | .halted | .emergency | .resetting => true | _ => false

/-- ENGINE_STOP (R360, R361): an engine of a context under a halt line writes its one stop record; a wave notes where it
stopped (R308). -/
def execEngineStop (ctx : Nat) (e : Engine) (s : State) : Out :=
  .next (match s.ctx? ctx with
    | none => s
    | some x => if haltLine x then engineStop s ctx x.cause e else s)

/-- KEY_SLOT_FAULT (R359): KEYFAULT for context `unit`. -/
def execKeySlotFault (s : State) : Out := .next (haltCtx s s.unit 0x21 0 none)

/-! ### Creation (R355, R357) -/

/-- The fields of a context descriptor (R355). -/
def ctxBits (n hi lo : Nat) : Nat := n / 2 ^ lo % 2 ^ (hi + 1 - lo)

/-- A byte of this module's DRAM (R40). -/
def isDram (s : State) (pa : Nat) : Bool := pa % 2 ^ 48 < 0x9000000000 && decide (pa / 2 ^ 48 % 256 = s.cfg.modid) && decide (pa < 2 ^ 56)

/-- A descriptor with a field out of its range. -/
def ctxDescBad (s : State) (n : Nat) : Bool :=
  let pool := ctxBits n 131 60
  ctxBits n 255 224 ≠ 0 || ctxBits n 15 12 ≠ 0 || ctxBits n 223 204 < 1 || ctxBits n 203 132 % 65536 ≠ 0 || pool % 65536 ≠ 0 ||
  ctxBits n 59 36 < 5 || !isDram s pool || !isDram s (pool + 65536 * ctxBits n 59 36 - 1)

/-- A trace ring that is off. -/
def Trace.off : Trace := ⟨0, 12, 0, false, 0, 0⟩
/-- Record mode OFF. -/
def RecMode.off : RecMode := ⟨0, 0, 0, false, 1000000, 0, 0, 0, false, false, 0, [], []⟩

/-- A context as `create` makes it (R357). -/
def newCtx (n key : Nat) : Ctx where
  st := .live
  cause := 0
  faults := []
  key := key
  privN := ctxBits n 223 204
  privVa := BitVec.ofNat 72 (ctxBits n 203 132)
  poolBase := ctxBits n 131 60
  poolLen := ctxBits n 59 36
  dbgCtx := ctxBits n 35 24
  dbgEn := n.testBit 23
  priv := n.testBit 22
  cls := ctxBits n 21 20
  part := ctxBits n 19 16
  root := none
  vsOpen := Vector.replicate 16 0
  vsShut := Vector.replicate 16 0
  phase := false
  dropped := 0
  mailbox := Vector.replicate 16 0
  stops := 0
  stopsPrev := 0
  stopsDropped := 0
  events := Vector.replicate 10 0
  trace := Trace.off
  rec_ := RecMode.off
  poolUsed := []
  haltTick := 0
  stopped := []
  saved := 0
  causeRank := 0
  causeAt := none

/-! ### Reset (R364) -/

/-- A grid of a context that is reset completes with FAULT and HALTREQ's code (R364 step 7): a page that misses holds the status
(R371), and a CPL that is refused loses it. -/
def resetGrid (s : State) (gr : Nat) (r : Grid) : State :=
  let gone (s : State) : State := { s with grids := kdel s.grids gr }
  if r.cpl = 0 || r.st = .done then gone s else
  match xlate s r.ctx r.cpl .write with
  | .hit pa =>
    if (lostHome s [pa]).isSome then gone s
    else if cutOff s pa || stagedAny s pa 8 then s
    else gone (laneEntry s r.ctx (bytesAt pa 8 (statusWord 1 0x25 0)))
  | .page | .pageWrite => addMiss s r.ctx r.cpl (missKind s r.ctx r.cpl 1) 0 0 true (.grid gr)
  | _ => gone s

/-- The completion statuses of a context that is reset are written, as far as their pages are resident (R364 step 7). -/
def resetStatus (s : State) (c : Nat) : State :=
  (s.grids.filter fun y => y.2.ctx = c).foldl (fun s y => resetGrid s y.1 y.2) s

/-- The inspectors of another context that wait for a wave of this one find it absent. -/
def freeInspectors (s : State) (c : Nat) : State :=
  (s.waves.filter fun y => y.2.ctx = c).foldl (fun s y => [0, 1].foldl (fun s sl =>
    (inspectorsOf s y.1 sl).foldl (fun s z => finishInspect s z.1 z.2 3) s) s) s

/-- Everything of a context's work leaves the module: gangs, images, requests, copies, records, watch units (R364 steps 2 to
4 and 6, R384); of its grids only the completion status is left to write (step 7). -/
def dropWork (s : State) (c : Nat) : State :=
  admitMisses <|
  let mine (w : Nat) : Bool := match s.wave? w with | some v => v.ctx = c | none => false
  { s with
    prods := s.prods.filter fun y => !mine y.2.wave
    sysCommits := s.sysCommits.filter fun y => y.2.ctx ≠ c
    copies := s.copies.filter fun y => y.2.ctx ≠ c
    hall := s.hall.filter fun r => r.ctx ≠ c
    fbuf := s.fbuf.filter fun r => r.ctx ≠ c
    fmiss := s.fmiss.filter fun r => r.ctx ≠ c
    matrix := s.matrix.map fun y => (y.1, y.2.filter fun m => ctxOfBlock s m.blk ≠ c)
    clusters := kmap s.clusters fun _ k => { k with
      held := k.held.filter fun r => r.ctx ≠ c, ovf := k.ovf.filter fun r => r.ctx ≠ c, ovfAddrs := k.ovfAddrs.filter fun y => y.1 ≠ c
      saveWatch := k.saveWatch.filter fun y => y.2.ctx ≠ c }
    watch := s.watch.filter fun y => y.2.ctx ≠ c
    waves := s.waves.filter fun y => y.2.ctx ≠ c
    blocks := s.blocks.filter fun y => y.2.ctx ≠ c
    gangs := s.gangs.filter fun y => y.2.ctx ≠ c
    grids := kmap s.grids fun _ r => if r.ctx = c then { r with gangs := [], pending := [], queue := none } else r }

/-- The engines that hold work of a context (R360). -/
def enginesOf (s : State) (c : Nat) : List Engine :=
  (kfind s.waves fun _ v => v.ctx = c).map Engine.wave ++ (kfind s.blocks fun _ b => b.ctx = c).map Engine.sequencer ++
  (s.copies.filter fun y => y.2.ctx = c).filterMap (fun y => copyEngine y.2) ++
  (s.hall.filter fun r => r.ctx = c).map (reqEngine s) ++
  s.matrix.map (fun y => Engine.matrix y.1) ++ (s.queues.filter fun y => y.2.ctx = c).filterMap (fun y => laneEngine y.2)

/-- The halt line of a reset: every engine that has not stopped yet stops (R360, R364 step 1). -/
def resetHalt (s : State) (c : Nat) : State :=
  let code := match s.ctx? c with | some x => if x.cause = 0 then 0x25 else x.cause | none => 0
  (enginesOf s c).foldl (fun s e => engineStop s c code e) (s.modCtx c fun x => { x with st := .resetting })

/-- Steps 1 to 8 of a reset (R364); the queues of a context that is destroyed are discarded (R374). -/
def ctxResetSteps (s : State) (c : Nat) (destroy : Bool) : State :=
  let s1 := resetHalt (freeInspectors s c) c
  let s2 := resetStatus (dropWork s1 c) c
  let s3 := s2.modCtx c fun x => { x with
    vsOpen := Vector.replicate 16 0, vsShut := Vector.replicate 16 0, mailbox := Vector.replicate 16 0, phase := false, dropped := 0
    cause := 0, faults := [], stops := 0, stopsPrev := 0, stopsDropped := 0, poolUsed := [], stopped := [], saved := 0 }
  (kfind s3.queues fun _ q => q.ctx = c).foldl (fun s q => queueReset s q destroy) s3

/-- The queues of a context that a reset waits for: transfers in progress complete first (R373). -/
def queuesMoving (s : State) (c : Nat) : Bool := s.queues.any fun y => y.2.ctx = c && y.2.after ≠ 0

/-- A new key in a context's slot (R359). -/
def newKey (s : State) (c : Nat) : State :=
  { s with keyGen := s.keyGen + 1 }.modCtx c fun x => { x with key := s.keyGen + 1 }

/-- The last step of a reset: a new key, and the context is LIVE (R357). -/
def ctxResetEnd (s : State) (c : Nat) : State := (newKey s c).modCtx c fun x => { x with st := .live }

/-- The end of a destroy: the key slot is zeroed, the descriptor and the cached translations are gone. -/
def ctxDestroyEnd (s : State) (c : Nat) : State :=
  { s with ctxs := kdel s.ctxs c, tlb := s.tlb.filter fun t => t.ctx ≠ c }

/-! ### The gates of record and replay (R412, R415, R416) -/

/-- The streams of a context, by position in its list. -/
def strmOf (s : State) (c strm : Nat) : Option LogStream := (s.ctx? c).bind fun x => x.rec_.streams[strm]?

/-- GATE_ADMIT (R415): the head issuer's waiting entry is admitted, in an emergency too, since what has begun completes
(R363). -/
def execGateAdmit (ctx strm : Nat) (s : State) : Out :=
  .next (match s.ctx? ctx with
    | none => s
    | some x => match strmOf s ctx strm with
      | none => s
      | some t =>
        if x.rec_.mode ≠ 2 || x.rec_.diverged || t.admitted.isSome || !(x.st = .live || x.st = .emergency) then s else
        match withHead s ctx x.rec_ t with
        | none => s
        | some t => match t.waiting.find? fun y => y.1 = t.headIss with
          | some y => if t.headRun = 0 then s else
            let s1 := letPass s ctx t y.1 y.2
            { s1 with waves := kmap s1.waves fun _ v => if v.ctx = ctx then
                { v with slot0 := { v.slot0 with stalled := false }, slot1 := { v.slot1 with stalled := false } } else v }
          | none => s)

/-- REPLAY_ISSUER_TIMEOUT (R416): another entry waits and the head issuer has been missing for GATEWAIT ticks. -/
def execReplayIssuerTimeout (ctx strm : Nat) (s : State) : Out :=
  .next (match s.ctx? ctx with
    | none => s
    | some x => match strmOf s ctx strm with
      | none => s
      | some t =>
        if x.rec_.mode ≠ 2 || x.rec_.diverged || x.st ≠ .live || t.missing < x.rec_.gateWait then s else
        match t.waiting.head? with
        | some y => diverge s ctx 2 t.key t.grid t.chunk t.recs.length (t.headIss.setWidth 64) (y.1.setWidth 64)
        | none => s)

/-- CHUNK_CLOSE_TIMEOUT (R412): 1,000,000 ticks after its first record, a stream closes its chunk. -/
def execChunkCloseTimeout (ctx strm : Nat) (s : State) : Out :=
  .next (match strmOf s ctx strm with
    | none => s
    | some t => if t.recs ≠ [] && t.firstTick.toNat + 1000000 ≤ s.tick.toNat then closeChunk s ctx t.key t.grid else s)

/-- `n` ticks pass at a context's gates (R416): the time of a missing head issuer runs while the context is LIVE and none
of its waves is HALTED. -/
def gateTick (s : State) (n c : Nat) (x : Ctx) : Ctx :=
  if x.rec_.mode ≠ 2 || x.st ≠ .live || s.waves.any (fun y => y.2.ctx = c && y.2.st = .halted) then x else
  { x with rec_ := { x.rec_ with streams := x.rec_.streams.map fun t =>
      if t.waiting ≠ [] && t.admitted.isNone && !(t.waiting.any fun y => y.1 = t.headIss) then { t with missing := t.missing + n }
      else { t with missing := 0 } } }

end Sys2Proof.Machine
end

