-- ==== Sys2Proof/Machine/Shake.lean ====
section
/-! DEFINITION. SHAKE256 (FIPS 202), the digest of flash images (R443, R446): Keccak-f[1600] over 25 lanes of 64 bits, rate 136 bytes
(log 78). -/

namespace Sys2Proof.Machine

/-- A lane of a Keccak state, numbered x + 5 y. -/
def keccakLane (a : List DWord) (x y : Nat) : DWord := (a[x % 5 + 5 * (y % 5)]?).getD 0

/-- The step θ: each lane takes the parities of two columns. -/
def keccakTheta (a : List DWord) : List DWord :=
  let c (x : Nat) : DWord := (List.range 5).foldl (fun p y => p ^^^ keccakLane a x y) 0
  let d := (List.range 5).map fun x => c (x + 4) ^^^ (c (x + 1)).rotateLeft 1
  (List.range 25).map fun k => keccakLane a k (k / 5) ^^^ (d[k % 5]?).getD 0

/-- The rotation of each lane in the step ρ. -/
def keccakRot : List Nat :=
  [0, 1, 62, 28, 27, 36, 44, 6, 55, 20, 3, 10, 43, 25, 39, 41, 45, 15, 21, 8, 18, 2, 61, 56, 14]

/-- The steps ρ and π: lane (x, y) is the rotated lane (x + 3 y, x). -/
def keccakRhoPi (a : List DWord) : List DWord :=
  (List.range 25).map fun k =>
    let x := (k + 3 * (k / 5)) % 5
    let y := k % 5
    (keccakLane a x y).rotateLeft ((keccakRot[x + 5 * y]?).getD 0)

/-- The steps χ and ι, with the round's constant. -/
def keccakChiIota (a : List DWord) (rc : DWord) : List DWord :=
  (List.range 25).map fun k =>
    let y := k / 5
    (keccakLane a k y ^^^ (~~~keccakLane a (k + 1) y &&& keccakLane a (k + 2) y)) ^^^ (if k = 0 then rc else 0)

/-- The constants of the 24 rounds. -/
def keccakRounds : List DWord :=
  [0x0000000000000001, 0x0000000000008082, 0x800000000000808A, 0x8000000080008000, 0x000000000000808B, 0x0000000080000001,
   0x8000000080008081, 0x8000000000008009, 0x000000000000008A, 0x0000000000000088, 0x0000000080008009, 0x000000008000000A,
   0x000000008000808B, 0x800000000000008B, 0x8000000000008089, 0x8000000000008003, 0x8000000000008002, 0x8000000000000080,
   0x000000000000800A, 0x800000008000000A, 0x8000000080008081, 0x8000000000008080, 0x0000000080000001, 0x8000000080008008]

/-- Keccak-f[1600]. -/
def keccakF (a : List DWord) : List DWord := keccakRounds.foldl (fun a rc => keccakChiIota (keccakRhoPi (keccakTheta a)) rc) a

/-- A block of 136 bytes enters the state: XOR with its first 17 lanes. -/
def keccakAbsorb (a : List DWord) (b : List Byte) : List DWord :=
  keccakF (a.zipIdx.map fun y => y.1 ^^^ (if y.2 < 17 then BitVec.ofNat 64 (leNat ((b.drop (8 * y.2)).take 8)) else 0))

/-- The blocks of n × 136 bytes, in turn. -/
def keccakBlocks : Nat → List DWord → List Byte → List DWord
  | 0, a, _ => a
  | n + 1, a, b => keccakBlocks n (keccakAbsorb a (b.take 136)) (b.drop 136)

/-- The padding of SHAKE: 1111 after the message, then 10*1, to a whole number of blocks. -/
def shakePad (b : List Byte) : List Byte :=
  match 135 - b.length % 136 with
  | 0 => b ++ [0x9F]
  | k + 1 => b ++ [0x1F] ++ List.replicate k 0 ++ [0x80]

/-- The first n bytes, at most 136, of the SHAKE256 output of a message. -/
def shake256 (b : List Byte) (n : Nat) : List Byte :=
  let a := keccakBlocks (b.length / 136 + 1) (List.replicate 25 0) (shakePad b)
  (a.flatMap fun x => leBytes 8 x.toNat).take (min n 136)

end Sys2Proof.Machine
end

