-- ==== Sys2Proof/Machine/Commands.lean ====
section
/-! DEFINITION. The management commands (R358, R374, R380, R384, R387, R403, R409, R446, R449, R450), as events at the
command slot `unit`, and the firmware routines that gate a cluster and wake it (chapter "Program: gating and waking a
cluster"). -/

namespace Sys2Proof.Machine

/-! ### The driver (R449) -/

/-- What the management wave makes of a command: it is finished with a RESULT and returned data (bytes of the slot from an
offset), or it goes on later. -/
inductive CmdRes where
  | done (s : State) (result : Nat) (out : List (Nat × List Byte))
  | wait (s : State)

/-- RESULT codes (R449). -/
def cmdOk (s : State) : CmdRes := .done s 0 []
def badState (s : State) : CmdRes := .done s 1 []
def badArg (s : State) : CmdRes := .done s 2 []

/-- The named argument bytes of each command: offset and length (R450). -/
def cmdArgs : Nat → List (Nat × Nat)
  | 0x02 => [(16, 1), (24, 8), (32, 4)]
  | 0x03 => [(16, 32), (48, 8)]
  | 0x10 => [(16, 32)]
  | 0x11 | 0x12 | 0x13 | 0x14 | 0x15 | 0x16 | 0x17 => [(16, 2)]
  | 0x18 => [(16, 1), (24, 8)]
  | 0x19 | 0x1A => [(16, 1), (17, 1)]
  | 0x1B => [(16, 1)]
  | 0x20 => [(16, 2), (18, 2), (24, 8)]
  | 0x21 => [(16, 2), (20, 4), (24, 9)]
  | 0x22 | 0x23 => [(16, 4)]
  | 0x30 => [(16, 2), (18, 1), (19, 1), (20, 1), (24, 8)]
  | 0x31 => [(16, 2), (18, 1), (19, 1), (20, 4), (24, 8), (32, 8)]
  | 0x40 => [(16, 4), (20, 2), (22, 1), (24, 9), (33, 9)]
  | 0x41 | 0x42 | 0x43 | 0x44 | 0x45 => [(16, 4)]
  | 0x46 => [(16, 4), (24, 8)]
  | 0x50 | 0x51 => [(16, 1)]
  | _ => []

/-- An argument of a command. -/
def argNat (x : CmdSlot) (off n : Nat) : Nat := leNat ((List.range n).map fun i => kgetD x.arg (off + i) 0)

/-- A byte that the command does not name is non-zero (R450). -/
def argsBad (x : CmdSlot) : Bool :=
  x.arg.any fun y => y.2 ≠ 0 && !((cmdArgs x.opcode).any fun r => r.1 ≤ y.1 && y.1 < r.1 + r.2)

/-- The command writes its returned data, RESULT and TICK, and is DONE (R449). -/
def finishCmd (s : State) (n result : Nat) (out : List (Nat × List Byte)) : State :=
  modSlotCmd s n fun x => { x with
    st := 3, result, tick := s.tick, phase := 0
    arg := (out.flatMap fun y => y.2.zipIdx.map fun z => (y.1 + z.2, z.1)).foldl
      (fun m y => if y.2 = 0 then kdel m y.1 else kput m y.1 y.2) x.arg }

/-- A command outside stage 5, or in RECOVERY, other than STATUS and FLASHWRITE (R442, R449). -/
def bootRefuses (s : State) (op : Nat) : Bool := (s.stage < 5 || s.recovery) && op ≠ 1 && op ≠ 2

/-- Runs, or goes on with, the command of an opcode in slot `unit`. -/
def command (op : Nat) (s : State) (k : State → CmdSlot → CmdRes) : Out :=
  .next (let n := s.unit
    let x := cmdSlot s n
    if 64 ≤ n || x.opcode ≠ op || !(x.st = 1 || x.st = 2) then s else
    let s1 := modSlotCmd s n fun x => { x with st := 2 }
    match (if bootRefuses s op then badState s1 else if argsBad x then badArg s1 else k s1 x) with
    | .done s2 r out => finishCmd s2 n r out
    | .wait s2 => s2)

/-- Notes how far a command that goes on has come. -/
def setPhase (s : State) (p : Nat) : State := modSlotCmd s s.unit fun x => { x with phase := p }

/-- UNKNOWN_OPCODE_COMMAND (R449). -/
def knownOps : List Nat :=
  [1, 2, 3, 0x10, 0x11, 0x12, 0x13, 0x14, 0x15, 0x16, 0x17, 0x18, 0x19, 0x1A, 0x1B, 0x20, 0x21, 0x22, 0x23, 0x30, 0x31,
   0x40, 0x41, 0x42, 0x43, 0x44, 0x45, 0x46, 0x50, 0x51]
def execUnknownOpcodeCommand (s : State) : Out :=
  .next (let x := cmdSlot s s.unit
    if 64 ≤ s.unit || x.st ≠ 1 || knownOps.contains x.opcode then s
    else finishCmd s s.unit (if bootRefuses s x.opcode then 1 else 4) [])

/-! ### Module (R442, R443, R446) -/

/-- Thirty-two bytes of a digest or an ID. -/
def digest32 (l : List Byte) : List Byte := (l ++ List.replicate 32 0).take 32

/-- STATUS. -/
def execStatus (s : State) : Out :=
  command 0x01 s fun s _ => .done s 0 [
    (16, [BitVec.ofNat 8 s.stage, if s.recovery then 1 else 0, BitVec.ofNat 8 s.cfg.modid, 0]),
    (20, leBytes 4 s.cfg.version.toNat ++ leBytes 4 s.cfg.minver.toNat ++ [0, 0, 0, 0]), (32, digest32 Config.moduleId)]

/-- Bytes that the management wave reads at a physical address, with no context's key. -/
def plainRead (s : State) (pa n : Nat) : List Byte :=
  (List.range n).map fun i => match homeOf s (pa + i) with
    | .here _ => readKeyed s 0 (pa + i)
    | .host _ => (Config.hostByte (pa + i) s.tick s.free).getD (memGet s.mem (pa + i))
    | .module _ => Config.remoteByte (pa + i) s.tick s.free
    | _ => 0

/-- FLASHWRITE (R443): the image is taken at the next boot. -/
def execFlashwrite (s : State) : Out :=
  command 0x02 s fun s x =>
    if 2 < argNat x 16 1 then badArg s else
    cmdOk { s with flash := kput s.flash (argNat x 16 1) (plainRead s (argNat x 24 8) (argNat x 32 4)), free := s.free + 1 }

/-- The digest of the image of a region that the module has booted (R443, R446); one that flash does not hold is the model's
own (log 4). -/
def bootedDigest (s : State) (r : Nat) : List Byte :=
  match kget s.booted r with
  | some img => shake256 img 32
  | none => digest32 (Config.imageDigest r)

/-- The report of R446. -/
def attestReport (s : State) (nonce : List Byte) : List Byte :=
  let body := nonce ++ digest32 Config.moduleId ++ leBytes 8 s.tick.toNat ++
    bootedDigest s 1 ++ bootedDigest s 2 ++ bootedDigest s 0 ++ leBytes 2 s.cfg.version.toNat ++ leBytes 2 s.cfg.minver.toNat ++ List.replicate 615 0
  (body ++ Config.signReport body ++ List.replicate 3309 0).take 4096

/-- ATTEST (R446). -/
def execAttest (s : State) : Out :=
  command 0x03 s fun s x =>
    let pa := argNat x 48 8
    if pa % 64 ≠ 0 then badArg s else
    let nonce := (List.range 32).map fun i => kgetD x.arg (16 + i) 0
    cmdOk (plainEntry s ((attestReport s nonce).zipIdx.map fun y => (pa + y.2, y.1)))

/-! ### Contexts (R357, R361, R364, R408) -/

/-- CTXCREATE (R355, R357). -/
def execCtxcreate (s : State) : Out :=
  command 0x10 s fun s x =>
    let n := argNat x 16 32
    let c := ctxBits n 11 0
    if ctxDescBad s n then badArg s
    else if (s.ctx? c).isSome then badState s
    else cmdOk (newKey { s with ctxs := kput s.ctxs c (newCtx n 0) } c)

/-- A command on an existing context: BADARG for a number past 4,095, BADSTATE for a FREE one. -/
def onCtx (s : State) (x : CmdSlot) (k : Nat → Ctx → CmdRes) : CmdRes :=
  let c := argNat x 16 2
  if 4096 ≤ c then badArg s else match s.ctx? c with
  | none => badState s
  | some y => k c y

/-- Runs the reset of a context, to its last step once every completion status is written and its queues rest. -/
def runReset (s0 : State) (c : Nat) (destroy : Bool) : CmdRes :=
  let s := resetStatus s0 c
  if queuesMoving s c || s.grids.any (fun y => y.2.ctx = c) then .wait (setPhase s 1)
  else cmdOk (if destroy then ctxDestroyEnd s c else ctxResetEnd s c)

/-- CTXRESET (R357, R364): during EMERGENCY it waits. -/
def execCtxreset (s : State) : Out :=
  command 0x11 s fun s x => onCtx s x fun c y =>
    match y.st with
    | .emergency => .wait s
    | .resetting => if x.phase = 1 then runReset s c false else badState s
    | .free => badState s
    | _ => runReset (ctxResetSteps s c false) c false

/-- CTXDESTROY (R357). -/
def execCtxdestroy (s : State) : Out :=
  command 0x12 s fun s x => onCtx s x fun c y =>
    match y.st with
    | .resetting => if x.phase = 1 then runReset s c true else badState s
    | .live | .halted | .lost => runReset (ctxResetSteps s c true) c true
    | .emergency => if x.phase = 1 then .wait s else badState s
    | .free => badState s

/-- CTXHALT (R357): HALTREQ. -/
def execCtxhalt (s : State) : Out :=
  command 0x13 s fun s x => onCtx s x fun c y =>
    match y.st with
    | .live | .halted => cmdOk (haltCtx s c 0x25 0 none)
    | _ => badState s

/-- CTXRELEASE (R357). -/
def execCtxrelease (s : State) : Out :=
  command 0x14 s fun s x => onCtx s x fun c y =>
    if y.st ≠ .halted then badState s
    else if y.cause = 0x25 && y.faults = [] then cmdOk (goneLive (releaseCtx s c) c)
    else .done s 5 []

/-- CTXRESUME (R357, R362): the saved gangs are restored under R338. -/
def execCtxresume (s : State) : Out :=
  command 0x15 s fun s x => onCtx s x fun c y =>
    if y.st = .halted && y.cause = 0x24 then
      cmdOk (goneLive (s.modCtx c fun z => { z with st := .live, cause := 0, faults := [], saved := 0 }) c)
    else badState s

/-- STOPREAD (R361). -/
def execStopread (s : State) : Out :=
  command 0x16 s fun s x => onCtx s x fun c y =>
    .done (s.modCtx c fun z => { z with stopsPrev := z.stops, stopsDropped := 0 }) 0
      [(20, leBytes 4 y.stops ++ leBytes 4 y.stopsPrev ++ leBytes 4 y.stopsDropped)]

/-- EVREAD (R408). -/
def execEvread (s : State) : Out :=
  command 0x17 s fun s x => onCtx s x fun c y =>
    .done (s.modCtx c fun z => { z with events := Vector.replicate 10 0 }) 0 [(20, y.events.toList.flatMap (leBytes 4))]

/-! ### Partitions (R358) -/

/-- A partition is ACTIVE. -/
def partActive (s : State) (p : Nat) : Bool := (kget s.parts p).isSome
/-- A context names the partition. -/
def partNamed (s : State) (p : Nat) : Bool := s.ctxs.any fun y => y.1 ≠ firmwareCtx && y.2.part = p
/-- A cluster outside every partition that is RUN. -/
def clusterFree (s : State) (c : Nat) : Bool := (s.cluster c).part.isNone && (s.cluster c).st = 0
/-- The clusters of a partition that stay in it. -/
def partStays (s : State) (p : Nat) : List Nat := kfind s.clusters fun _ x => x.part = some p && !x.leaving
def joinPart (p : Nat) (s : State) (c : Nat) : State := s.modCluster c fun x => { x with part := some p, leaving := false }

/-- The clusters that leave their partitions and hold no gang any more are outside it (R358). -/
def leaveParts (s : State) : State :=
  (kfind s.clusters fun c x => x.leaving && gangOn s c = []).foldl (fun s c => s.modCluster c fun x => { x with part := none, leaving := false }) s

/-- PARTASSIGN. -/
def execPartassign (s : State) : Out :=
  command 0x18 s fun s x =>
    let p := argNat x 16 1
    let cs := (List.range 64).filter fun c => (argNat x 24 8).testBit c
    if 16 ≤ p then badArg s
    else if partActive s p || !cs.all (clusterFree s) then badState s
    else cmdOk { cs.foldl (joinPart p) s with parts := kput s.parts p () }

/-- A command on a partition and a cluster. -/
def onPart (s : State) (x : CmdSlot) (k : Nat → Nat → CmdRes) : CmdRes :=
  let p := argNat x 16 1
  let c := argNat x 17 1
  if 16 ≤ p || 64 ≤ c then badArg s else if !partActive s p then badState s else k p c

/-- PARTADD. -/
def execPartadd (s : State) : Out :=
  command 0x19 s fun s x => onPart s x fun p c => if clusterFree s c then cmdOk (joinPart p s c) else badState s

/-- PARTREMOVE: its gangs are evicted, and it leaves once empty; the last cluster stays while a context names the
partition. -/
def execPartremove (s : State) : Out :=
  command 0x1A s fun s x => onPart s x fun p c =>
    if !(partStays s p).contains c || (partNamed s p && partStays s p = [c]) then badState s
    else cmdOk (leaveParts ((gangOn s c).foldl startEvict (cancelOn (s.modCluster c fun y => { y with leaving := true }) c)))

/-- PARTRELEASE. -/
def execPartrelease (s : State) : Out :=
  command 0x1B s fun s x =>
    let p := argNat x 16 1
    if 16 ≤ p then badArg s
    else if !partActive s p || partNamed s p then badState s
    else cmdOk { s with
      parts := kdel s.parts p
      clusters := kmap s.clusters fun _ y => if y.part = some p then { y with part := none, leaving := false } else y }

/-! ### Pages (R380, R384, R387) -/

/-- Drops the cached translations of a context in a range; a length of 0 is the whole context (R387). -/
def dropTlb (s : State) (c va len : Nat) : State :=
  { s with tlb := s.tlb.filter fun t => t.ctx ≠ c || (len ≠ 0 && !(decide (t.va < va + len) && decide (va < t.va + 2 ^ t.bits))) }

/-- Some access of the context that was translated has not completed: an atomic in a hall, a load that has read and whose data
is not delivered, a COMMIT.SYS before APPLY (R387). -/
def transInUse (s : State) (c : Nat) : Bool :=
  s.hall.any (fun r => r.ctx = c) ||
  s.prods.any (fun y => (match s.wave? y.2.wave with | some v => v.ctx = c && v.alive | none => false) &&
    (match y.2.kind with | .load items _ => items.any fun it => it.data.isSome && !it.dead && !it.scratch | _ => false)) || s.sysCommits.any fun y => y.2.ctx = c && !y.2.applied

/-- Waits for the users of dropped translations. -/
def afterInval (s : State) (c : Nat) : CmdRes := if transInUse s c then .wait (setPhase s 1) else cmdOk s

/-- SETROOT (R380). -/
def execSetroot (s : State) : Out :=
  command 0x20 s fun s x => onCtx s x fun c y =>
    if x.phase = 1 then afterInval s c else
    let pa := argNat x 24 8
    if pa % 128 ≠ 0 || !isDevice s pa || 4096 ≤ argNat x 18 2 then badArg s
    else match y.st with
      | .live | .halted => afterInval (dropTlb (s.modCtx c fun z => { z with root := some (pa, argNat x 18 2) }) c 0 0) c
      | _ => badState s

/-- INVAL (R387). -/
def execInval (s : State) : Out :=
  command 0x21 s fun s x => onCtx s x fun c _ =>
    if argNat x 24 9 % 65536 ≠ 0 then badArg s
    else afterInval (if x.phase = 1 then s else dropTlb s c (argNat x 24 9) (65536 * argNat x 20 4)) c

/-- REPLAY and DENY (R384): on a context that does not run, the answer waits for its release. -/
def answerCmd (op : Nat) (deny : Bool) (s : State) : Out :=
  command op s fun s x =>
    match s.fbuf.find? fun r => r.seq % 2 ^ 32 = argNat x 16 4 && !r.answered && r.pend = 0 with
    | none => badArg s
    | some r =>
      if answersNow s r.ctx then cmdOk (answer s r.seq deny)
      else cmdOk { s with fbuf := s.fbuf.map fun y => if y.seq = r.seq then { y with pend := if deny then 2 else 1 } else y }

/-- REPLAY. -/
def execReplay (s : State) : Out := answerCmd 0x22 false s
/-- DENY. -/
def execDeny (s : State) : Out := answerCmd 0x23 true s

/-! ### Trace and record (R403, R409) -/

/-- TRACESET (R403): the ring's header is zeroed. -/
def execTraceset (s : State) : Out :=
  command 0x30 s fun s x => onCtx s x fun c _ =>
    let base := argNat x 24 8
    let n := argNat x 18 1
    let kinds := argNat x 19 1
    if base % 4096 ≠ 0 || 2 ^ 56 ≤ base || !isDevice s base || n < 12 || 30 < n || 64 ≤ kinds || 1 < argNat x 20 1 then badArg s else
    let t : Trace := ⟨base, n, BitVec.ofNat 6 kinds, argNat x 20 1 = 1, 0, 0⟩
    let s1 := s.modCtx c fun z => { z with trace := t }
    cmdOk (if kinds = 0 then s1 else devEntry s1 c none (bytesAt base 64 0))

/-- A grid of the context that is not DONE. -/
def hasGrid (s : State) (c : Nat) : Bool := s.grids.any fun y => y.2.ctx = c && y.2.st ≠ .done

/-- RECSET (R409): every open chunk of a RECORD closes at its tick (R422). -/
def execRecset (s : State) : Out :=
  command 0x31 s fun s x => onCtx s x fun c y =>
    let mode := argNat x 18 1
    let base := argNat x 24 8
    if 2 < mode || 1 < argNat x 19 1 || base % 4096 ≠ 0 then badArg s
    else if hasGrid s c then badState s
    else
    let s := if y.rec_.mode = 1 then closeLog s c else s
    if mode = 0 then cmdOk (modRec s c fun r => { r with mode := 0, streams := [] })
    else
      let r : RecMode := ⟨mode, base, argNat x 20 4, argNat x 19 1 = 1, (if argNat x 32 8 = 0 then 1000000 else argNat x 32 8), s.tick,
        0, 0, false, false, 0, [], []⟩
      cmdOk (logHeader (modRec s c fun _ => r) c r)

/-! ### Queues (R374) -/

/-- A command on a queue: NOQUEUE past 1,048,575. -/
def onQueue (s : State) (x : CmdSlot) (k : Nat → Option Queue → CmdRes) : CmdRes :=
  let q := argNat x 16 4
  if 1048576 ≤ q then .done s 3 [] else k q (kget s.queues q)

/-- CREATEQ. -/
def execCreateq (s : State) : Out :=
  command 0x40 s fun s x => onQueue s x fun q y =>
    if y.isSome then badState s else
    let c := argNat x 20 2
    let n := argNat x 22 1
    let ring := argNat x 24 9
    let ra := argNat x 33 9
    if 4096 ≤ c || !ctxLive s c || n < 4 || 20 < n || ring % 4096 ≠ 0 || ra % 4 ≠ 0 then badArg s
    else cmdOk { s with queues := kput s.queues q (newQueue s c n (BitVec.ofNat 72 ring) (BitVec.ofNat 72 ra)) }

/-- MAPQ: done once the queue is mapped. -/
def execMapq (s : State) : Out :=
  command 0x41 s fun s x => onQueue s x fun q y => match y with
    | none => badState s
    | some y =>
      if x.phase = 1 then (if y.st = 2 || y.st = 8 then .wait s else cmdOk s)
      else if y.st = 1 then .wait (setPhase (setQueue s q fun z => { z with st := 2, pinned := true }) 1)
      else if y.st = 7 then .wait (setPhase (setQueue s q fun z => { z with st := 8, pinned := true }) 1)
      else badState s

/-- UNMAPQ: done once the queue is unmapped. -/
def execUnmapq (s : State) : Out :=
  command 0x42 s fun s x => onQueue s x fun q y => match y with
    | none => badState s
    | some y =>
      if x.phase = 1 then (if y.st = 5 then .wait s else cmdOk s)
      else if y.st = 3 then .wait (setPhase (setQueue s q fun z => { z with st := 5, pinned := false }) 1)
      else badState s

/-- DRAINQ. -/
def execDrainq (s : State) : Out :=
  command 0x43 s fun s x => onQueue s x fun q y => match y with
    | none => badState s
    | some y => if y.st = 3 then cmdOk (setQueue s q fun z => { z with st := 4, drain := z.widx }) else badState s

/-- The packet that a reset queue's lane holds: one that has been accepted runs on (R371), under an index that no RIDX equals. -/
def keptPacket (x : Queue) : Option (Nat × List Byte) :=
  match x.cur with
  | some (idx, b) => if x.ridx.toNat ≠ idx then some (2 ^ 32, b) else none
  | none => none

/-- RESETQ: RIDX is written to RIDXADDR where that translates. -/
def execResetq (s : State) : Out :=
  command 0x44 s fun s x => onQueue s x fun q y => match y with
    | none => badState s
    | some y =>
      if y.st ≠ 9 then badState s else
      let done (s : State) : State := setQueue s q fun z => { z with st := 1, ridx := z.widx, err := 0, cur := keptPacket z, denied := none }
      if y.ridxAddr = 0 then cmdOk (done s) else
      match laneXlate s q y y.ridxAddr.toNat 4 true with
      | .held s1 => .wait s1
      | .refused => cmdOk (done s)
      | .ok pa => cmdOk (done (laneEntry s y.ctx (bytesAt pa 4 y.widx.toNat)))

/-- DESTROYQ. -/
def execDestroyq (s : State) : Out :=
  command 0x45 s fun s x => onQueue s x fun q y => match y with
    | none => badState s
    | some y => if y.st = 1 || y.st = 7 || y.st = 9 then cmdOk { s with queues := kdel s.queues q } else badState s

/-- QUERYALL as a command (R365): the full summary. -/
def execQueryallCmd (s : State) : Out :=
  command 0x46 s fun s x =>
    cmdOk (plainEntry s ((qSummary s none (argNat x 16 4)).zipIdx.map fun y => (argNat x 24 8 + y.2, y.1)))

/-! ### Gating and waking a cluster (R437 to R441, and the listing of cloff and clon) -/

/-- The routine ends with W30. -/
def routineDone (s : State) (w30 : Nat) : CmdRes := .done s 0 [(20, leBytes 4 w30)]

/-- CLGATE: cloff, in the steps between its waits. -/
def execClgate (s : State) : Out :=
  command 0x50 s fun s x =>
    let c := argNat x 16 1
    let st (s : State) : Nat := powerReg s c 0x08
    if 64 ≤ c then badArg s else
    match x.phase with
    | 0 =>
      if (s.cluster c).part.isSome then badState s
      else .wait (setPhase (powerWrite (powerWrite s c 0x08 0x70) c 0x00 1) 1)
    | 1 =>
      if (s.cluster c).pend ≠ [] then .wait s
      else if st s / 16 % 4 ≠ 0 then routineDone s (st s)
      else .wait (setPhase s 2)
    | 2 => if (s.cluster c).qack then .wait (setPhase (powerWrite s c 0x0C 1) 3) else .wait s
    | 3 =>
      if powerReg s c 0x0C ≠ 2 then .wait s else
      let s1 := powerWrite s c 0x14 1
      .wait (setPhase (powerWrite s1 c 0x18 (powerReg s1 c 0x18 ||| 0x10000)) 4)
    | _ =>
      if powerReg s c 0x1C / 2 ^ 16 % 2 = 0 then .wait s
      else routineDone s (if st s = 0x105 then 0 else st s)

/-- CLUNGATE: clon. -/
def execClungate (s : State) : Out :=
  command 0x51 s fun s x =>
    let c := argNat x 16 1
    let st (s : State) : Nat := powerReg s c 0x08
    if 64 ≤ c then badArg s else
    match x.phase with
    | 0 =>
      let s1 := powerWrite (powerWrite s c 0x08 0x70) c 0x20 1
      if st s1 / 16 % 2 = 1 then routineDone s1 (st s1) else .wait (setPhase s1 1)
    | _ =>
      if st s % 16 ≠ 0 then .wait s
      else routineDone s (st s / 64 % 2 * 64 + (if powerReg s c 0x10 = 2 then 0 else 1))

end Sys2Proof.Machine
end

