-- ==== Sys2Proof/Machine/Issue.lean ====
section
/-! DEFINITION. What a bench sees of its waves: fetching (R378, R383), the environment in which a word decodes (R164), ready
slots (R51, R59), charges (R430), the choice of R89, and the classes of R406 and R407. -/

namespace Sys2Proof.Machine

/-! ### Fetching and decoding -/

/-- The environment in which a wave's or sequencer's word decodes (R15, R18, R178, R277). -/
def envOf (s : State) (c gr : Nat) (seq : Bool) : DecEnv :=
  match descOf s gr with
  | some d => ⟨seq, isPriv s c, 16 * d.mbanks, min 512 (64 * d.scratch), d.tiles⟩
  | none => ⟨seq, false, 0, 0, 0⟩

/-- What a fetch meets. -/
inductive Fetched where
  | word (w : BitVec 128)
  | xlate
  | miss
  | bad (pa : Nat)
  | lost (m : Nat)
  | wait

/-- Fetches the 16 bytes of a word (R5, R378); a page that DENY has refused is XLATE. -/
def fetch (s : State) (c va : Nat) (den : List Nat) : Fetched :=
  if den.contains (pageOf s c va) then .xlate else
  match xlate s c va .fetch with
  | .xlate => .xlate
  | .page => .miss
  | .pageWrite => .miss
  | .bad pa => .bad pa
  | .hit pa =>
    if stagedAny s pa 16 then .wait else
    match lostHome s [pa] with
    | some m => .lost m
    | none => if cutOff s pa then .wait else .word (BitVec.ofNat 128 (devNat s c pa 16))

/-- The fault of a word that does not decode (R164, R180). -/
def decCode : DecFault → Nat
  | .illop => 0x01 | .illfld => 0x02 | .illlev => 0x03 | .illctx => 0x04

/-- The word at a slot's PC and its fields, where it is fetched and legal. -/
def slotWord (s : State) (v : Wave) (sl : Nat) : Option (Op × Body) :=
  match fetch s v.ctx (codeVa s v.grid (v.slot sl).pc) (v.slot sl).denied with
  | .word w => match decodeWord (envOf s v.ctx v.grid false) w with
    | .ok i => opOf i
    | .error _ => none
  | _ => none

/-! ### Ready slots (R51, R59) -/

/-- A slot that may issue: it is live, its word does not stall, and it waits for nothing; a seam with nothing to wait for is
no wait (R192). -/
def Slot.ready (x : Slot) : Bool := x.live && (x.hold = .none || x.hold = .seam .ready) && !x.stalled

/-- A wave that holds a seat, whose context runs and which no debug halt stops. -/
def waveRuns (s : State) (v : Wave) : Bool :=
  v.seat.isSome && (v.st = .seated || v.st = .seatwait || v.st = .parked) && v.haltDue.isNone && ctxLive s v.ctx

/-- A slot that may issue as far as its context and its wave are concerned: in an emergency, only to complete what has
begun (R360, R363). -/
def slotRuns (s : State) (w sl : Nat) (v : Wave) : Bool :=
  waveRuns s v || (begun s w sl v && match s.ctx? v.ctx with | some x => x.st = .emergency | none => false)

/-- The slot that the bench takes: the two alternate when both are ready (R59). -/
def pickSlot (v : Wave) : Option Nat :=
  match v.slot0.ready, v.slot1.ready with
  | true, true => some (1 - v.lastSlot)
  | true, false => some 0
  | false, true => some 1
  | false, false => none

/-- A wave that could issue if it had a seat (R331, R332); a FORCED wave becomes READY once its stall can proceed. -/
def seatReady (s : State) (v : Wave) : Bool := v.st = .ready && ctxLive s v.ctx

/-! ### Charges (R430, R431) -/

/-- The weight per lane of a wave's word. -/
def weight (o : Op) : Nat :=
  match o with
  | .imul | .imulh | .imad | .fadd | .fsub | .fmul | .fmin | .fmax | .fminProp | .fmaxProp | .fcmp | .fclass | .frnd | .fscale
  | .hadd2 | .hmul2 | .cvt | .cvts | .pack | .unpk | .bscale | .qnt | .dqnt | .ld | .ldTrk | .st | .lds | .sts | .ldt
  | .atomAdd | .atomFadd | .atomMin | .atomMax | .atomAnd | .atomOr | .atomXor | .atomXchg | .atomCas | .atomIncw
  | .atomdAdd | .atomdFadd | .atomdMin | .atomdMax | .atomdAnd | .atomdOr | .atomdXor | .atomdXchg | .atomdCas | .atomdIncw
  | .redsAdd | .redsFadd | .redsMin | .redsMax | .redsAnd | .redsOr | .redsXor | .vsred => 2
  | .ffma | .hfma2 | .dot4 | .idot4 | .rng => 3
  | .rcp | .rsq | .sqrt | .exp2 | .log2 | .sin | .cos | .tanh | .wupd | .wmrg | .wfin | .obst | .acrd => 4
  | .pref => 1
  | _ => let k := (opFn o).1.toNat / 32; if k = 1 || k = 2 then 1 else 0

/-- The charge of a slot's word issued in some lanes; a word that is not fetched or not legal charges nothing. -/
def wordCharge (s : State) (v : Wave) (sl : Nat) (lanes : Mask) : Nat :=
  match slotWord s v sl with
  | some (o, b) => weight o * laneCount ((v.slot sl).mask &&& lanes &&& v.guard b.guard)
  | none => 0

/-- The charge of a slot's next word. -/
def slotCharge (s : State) (v : Wave) (sl : Nat) : Nat :=
  let v := v.ripe sl
  wordCharge s v sl (~~~(v.slot sl).stepped)

/-! ### The choice of R89 -/

/-- A ready wave of a bench: its key, slot and charge. -/
structure Cand where
  w : Nat
  v : Wave
  sl : Nat
  charge : Nat

/-- The ready seated waves of a bench. -/
def readyWaves (s : State) (b : Nat) : List Cand :=
  (benchWaves s b).filterMap fun y =>
    (if waveRuns s y.2 then pickSlot y.2 else [0, 1].find? fun sl => slotRuns s y.1 sl y.2 && (y.2.slot sl).ready).map fun sl => ⟨y.1, y.2, sl, slotCharge s y.2 sl⟩

/-- Lodged longer, or at the same moment with a lower issuer index of lane 0 (R89 step 3). -/
def olderThan (s : State) (a b : Cand) : Bool :=
  a.v.age < b.v.age || (a.v.age = b.v.age && (issuer s a.v 0).toNat < (issuer s b.v 0).toNat)

/-- The first of a list under an order. -/
def bestOf (lt : Cand → Cand → Bool) : List Cand → Option Cand
  | [] => none
  | x :: t => match bestOf lt t with
    | none => some x
    | some y => if lt y x then some y else some x

/-- The wave that a bench chooses (R89); the record is the one that the bench clock found at its start (R431). -/
def chooseWave (s : State) (c : Nat) (l : List Cand) : Option Cand :=
  match bestOf (fun a b => b.v.passed < a.v.passed || (a.v.passed = b.v.passed && olderThan s a b)) (l.filter fun x => 64 ≤ x.v.passed) with
  | some x => some x
  | none =>
    let least := l.foldl (fun m x => min m (classOf s x.v.ctx)) 3
    bestOf (olderThan s) (l.filter fun x =>
      classOf s x.v.ctx = least && (s.cluster c).recAt + x.charge ≤ (s.cluster c).budget.toNat)

/-! ### The leaves (R406, R407) -/

/-- The leaf of a home: device, vault window or remote. -/
def homeLeaf (s : State) (pa : Nat) : Nat :=
  match homeOf s pa with
  | .here _ => if 0xA000000000 ≤ pa % 2 ^ 48 then 6 else 5
  | .module _ => 7
  | .host _ => 7
  | _ => 5

/-- The leaf of the home of a load's element: a parked one counts as device. -/
def itemLeaf (s : State) (c : Nat) (it : LoadItem) : Nat :=
  if it.scratch then 6 else
  match xlate s c it.ea .read with
  | .hit pa => homeLeaf s pa
  | _ => 5

/-- The leaf of a producer: a load's by the home of its lowest waiting lane, an atomic's by whether its home is remote. -/
def prodLeaf (s : State) (c p : Nat) (q : Prod) : Nat :=
  match q.kind with
  | .load items _ =>
    let l := items.filter fun it => !it.dead
    let low := l.foldl (fun m it => min m it.lane) 64
    (match l.find? fun it => it.lane = low with | some it => itemLeaf s c it | none => 5)
  | .value _ _ _ => if s.hall.any fun r => r.ret = some p && (match r.at_ with | .dev pa => homeLeaf s pa = 7 | _ => false) then 7 else 5
  | .acrd _ _ _ _ => 8

/-- The leaf of the first producer of a wave on a path. -/
def pathLeaf (s : State) (w : Nat) (v : Wave) (k : Nat) : Nat :=
  ((s.prods.find? fun y => y.2.wave = w && y.2.path = k).map fun y => prodLeaf s v.ctx y.1 y.2).getD 5

/-- The producer attached to the first EMPTY entry that some sources name. -/
def waitedProd (v : Wave) (l : List Need) : Option Nat :=
  l.findSome? fun k => (lanesOf k.lanes).findSome? fun n => (List.range k.n).findSome? fun j =>
    match (v.cell (k.ent + j) n).st with | .empty p => some p | _ => none

/-- The leaf of the producer that some sources wait for. -/
def needLeaf (s : State) (v : Wave) (l : List Need) : Nat :=
  match waitedProd v l with
  | some p => ((kget s.prods p).map fun q => prodLeaf s v.ctx p q).getD 5
  | none => 5

/-- The leaf of a word that waits at its issue. -/
def opLeaf (o : Op) : Nat :=
  match o with
  | .commitBlk | .commitGang | .commitDev | .commitSys | .commitChkBlk | .commitChkGangDev | .commitChkSys | .fence
  | .dphaseOpen | .dphaseClose | .abortGang => 10
  | .obst | .acrd => 8
  | .bara => 9
  | .atomAdd | .atomFadd | .atomMin | .atomMax | .atomAnd | .atomOr | .atomXor | .atomXchg | .atomCas | .atomIncw
  | .redsAdd | .redsFadd | .redsMin | .redsMax | .redsAnd | .redsOr | .redsXor | .vsred => 5
  | _ => 12

/-- A slot of a wave that runs cannot issue because its word is not fetched yet. -/
def fetchWaits (s : State) (v : Wave) : Bool :=
  waveRuns s v && [0, 1].any fun sl =>
    let u := v.ripe sl
    let x := u.slot sl
    x.live && x.hold = .none && (match fetch s v.ctx (codeVa s v.grid x.pc) x.denied with | .wait => true | _ => false)

/-- The leaf of what a wave waits for, by its first live slot. -/
def waitLeaf (s : State) (w : Nat) (v : Wave) : Nat :=
  if isHalted s v then 12 else
  let sl := if v.slot0.live then 0 else 1
  let u := v.ripe sl
  let x := u.slot sl
  match x.hold with
  | .join | .sleep _ | .inspect _ _ _ _ _ _ => 12
  | .sysCommit _ => 10
  | .parked => 5
  | .seam (.path k _) => if k = 1 then 6 else if k = 4 then 8 else pathLeaf s w v k
  | .seam (.source e m) => needLeaf s v [⟨e, 1, m, false⟩]
  | .seam (.bar _) | .seam (.gbar _) | .seam (.xbar _) => 9
  | .seam .ready => 12
  | .none =>
    match slotWord s u sl with
    | none => 12
    | some (o, b) =>
      if x.starved then needLeaf s u (needs o b (x.mask &&& ~~~x.stepped &&& v.guard b.guard))
      else if x.capped then 12
      else if (v.slot (1 - sl)).entry.isSome then 10
      else opLeaf o

/-- The longest-lodged wave of a list. -/
def oldest (l : List (Nat × Wave)) : Option (Nat × Wave) := leastBy (fun y => lodgeKey y.2) l

/-- The leaf of a slot in which nothing issues (R407). -/
def idleLeaf (s : State) (b : Nat) (ready : List Cand) : Nat :=
  let l := benchWaves s b
  if l = [] then 13
  else if !ready.isEmpty then 11
  else if l.any (fun y => y.2.seat.isSome && fetchWaits s y.2) then 2
  else if l.any (fun y => y.2.seat.isNone && seatReady s y.2) then 4
  else match oldest (l.filter fun y => y.2.seat.isSome), oldest l with
    | some y, _ => waitLeaf s y.1 y.2
    | none, some y => waitLeaf s y.1 y.2
    | none, none => 13

/-- FULL or PARTIAL for a chosen wave (R406). -/
def issueLeaf (s : State) (x : Cand) : Nat :=
  match slotWord s (x.v.ripe x.sl) x.sl with
  | some (_, b) =>
    let all := x.v.liveMask ||| x.v.stack.foldl (fun m e => m ||| e.mask) 0
    if (x.v.slot x.sl).mask &&& ~~~(x.v.slot x.sl).stepped &&& x.v.guard b.guard = all then 0 else 1
  | none => 1

/-- Counts one bench clock in a leaf. -/
def countLeaf (s : State) (b k : Nat) : State := { s with counters := kput s.counters (16 * b + k) (kgetD s.counters (16 * b + k) 0 + 1) }

/-- One bench clock passes for a slot (R55): the clocks in which it has not been able to issue, and those in which its word
stalls under R51 step 3 at no seam. A full path counter advances neither (R252). DESIGN CHOICE (log 76): a slot that still counts
as waiting at a plain SEAM while the next word stalls stands at a seam here. -/
def clockSlot (x : Slot) : Slot :=
  if !x.live || (x.stalled && x.capped) then x
  else if x.ready then { x with clocks := 0, starveClocks := 0 }
  else { x with clocks := x.clocks + 1, starveClocks := if x.stalled && x.starved && x.hold = .none then x.starveClocks + 1 else 0 }

/-- One bench clock passes for a slot of a PARKED wave: only a stall under R51 step 3 counts there (R55, log 72). -/
def clockStarve (x : Slot) : Slot :=
  if x.live && x.stalled && x.starved && !x.capped && x.hold = .none then { x with starveClocks := x.starveClocks + 1 } else x

/-- One bench clock passes for the slots of a seated wave; they stand still under a halt (R58). -/
def clockWave (s : State) (v : Wave) : Wave :=
  if isHalted s v || v.seat.isNone then v
  else if v.st = .parked then { v with slot0 := clockStarve v.slot0, slot1 := clockStarve v.slot1 }
  else { v with slot0 := clockSlot v.slot0, slot1 := clockSlot v.slot1 }

/-- One bench clock passes for a wave of the bench: passed over if it was ready and another wave issues (R89); a YIELD
counts for one clock (R193). -/
def clockOne (s : State) (b : Nat) (l : List Cand) (pick : Option Nat) (w : Nat) (v : Wave) : Wave :=
  if benchOf v.place ≠ b || !v.alive then v else
  let v1 := { clockWave s v with yielded := false }
  if pick = some w then { v1 with passed := 0 }
  else if l.any (fun x => x.w = w) then { v1 with passed := v1.passed + 1 } else v1

/-- The wave that a bench chooses on a clock: not one that has just issued YIELD, if another is ready (R193). -/
def benchChoice (s : State) (c : Nat) (l : List Cand) : Option Cand :=
  match l.filter fun x => !x.v.yielded with
  | [] => chooseWave s c l
  | l' => chooseWave s c l'

/-- Core 0's bench B3, on which the porter holds a seat, a lodging slot and four banks (R36). -/
def porterBench (b : Nat) : Bool := b % 32 = 3

/-- The porter's instruction takes this clock of its bench (R36): its program is not given, so a free value says when; the
bound of R90 holds for the waves beside it (log 66). -/
def porterIssues (s : State) (b : Nat) (l : List Cand) : Bool :=
  porterBench b && !(l.any fun x => 64 ≤ x.v.passed) && (Config.freeValue s.free).getLsbD 0

/-- BENCH_CLOCK (R89, R406): bench `unit` classifies its slot, advances the passed-over counts, and the chosen wave issues
next, unless the porter's instruction does, which charges CURREC nothing (DESIGN CHOICE, log 66). A cluster whose clock stands counts
nothing. -/
def execBenchClock (s : State) : Out :=
  .next (let b := s.unit
    let c := b / 32
    if !clockRuns s c then s else
    let l := readyWaves s b
    let porter := porterIssues s b l
    let pick := if porter then none else benchChoice s c l
    let s1 := { s with
      waves := kmap s.waves (clockOne s b l (pick.map Cand.w)), free := if porterBench b then s.free + 1 else s.free }
    match pick with
    | some x => (countLeaf s1 b (issueLeaf s x)).push [.wave x.w x.sl]
    | none => countLeaf s1 b (if porter then (if (Config.freeValue s.free).getLsbD 1 then 1 else 0) else idleLeaf s b l))

end Sys2Proof.Machine
end

