-- ==== Sys2Proof/Machine/Seats.lean ====
section
/-! DEFINITION. Seats: which unseated wave takes one, and which seated wave gives one up (R55, R331 to R333). -/

namespace Sys2Proof.Machine

/-- The wave at a bench's refill pointer (R332). -/
def refillPick (s : State) (b : Nat) : Option Nat :=
  let l := (benchWaves s b).filter fun x => seatReady s x.2
  let p := kgetD s.refill b 0
  match leastBy (fun x => lodgeKey x.2) (l.filter fun x => p ≤ lodgeKey x.2) with
  | some x => some x.1
  | none => (leastBy (fun x => lodgeKey x.2) l).map Prod.fst

/-- The seats that a bench offers grid work: the porter holds seat 3 of its own (R36, log 66). -/
def benchSeats (b : Nat) : Nat := if porterBench b then 3 else 4

/-- SEAT_GRANT (R332). -/
def execSeatGrant (w seat : Nat) (s : State) : Out :=
  .next (match s.wave? w with
    | none => s
    | some v =>
      let b := benchOf v.place
      if seat < benchSeats b && !((benchWaves s b).any fun x => x.2.seat = some seat) && refillPick s b = some w && ctxLive s v.ctx then
        let s1 := { s.putWave w { v with st := .seated, seat := some seat, forced := false } with refill := kput s.refill b (lodgeKey v + 1) }
        settleHalt (traceWave s1 w 5 2 0 v.slot0.pc 0) w
      else s)

/-- UNSEAT (R331): the SEATWAIT wave of the bench that has waited longest, with an empty stack, gives up its seat to a
ready one; a wave of a halted context stays where it is (R360). -/
def execUnseat (s : State) : Out :=
  .next (let l := benchWaves s s.unit
    let full := (l.filter fun x => x.2.seat.isSome).length = benchSeats s.unit
    let wants := l.any fun x => seatReady s x.2
    match leastBy (fun x => x.2.waitSince) (l.filter fun x => x.2.st = .seatwait && x.2.stack = [] && ctxLive s x.2.ctx) with
    | some (w, v) =>
      if full && wants then traceWave (s.putWave w { v with st := .lodged, seat := none }) w 5 0 0 v.slot0.pc 0 else s
    | none => s)

end Sys2Proof.Machine
end

