-- ==== Sys2Proof/Machine/Power.lean ====
section
/-! DEFINITION. Power and heat: rails and their targets (R424 to R426), sensors and the thermal emergency (R427, R428,
R362), the handshake of a cluster (R436 to R441), and what the passing of a tick does, as events. -/

namespace Sys2Proof.Machine

/-! ### The passing of a tick -/

/-- The eviction time of a gang runs while its context is LIVE and none of its waves is HALTED (R336); a GRIDSYNC grid is one
gang here (R335). -/
def evictTick (s : State) (n gk : Nat) (g : Gang) : Gang :=
  let sync := match s.grid? g.grid with | some r => r.sync | none => false
  if g.st = .evicting && ctxLive s g.ctx &&
      !(s.waves.any fun y => (y.2.gang = gk || (sync && y.2.grid = g.grid)) && y.2.st = .halted) then
    { g with evictTicks := g.evictTicks + n } else g

/-- The valid readings of a cluster's four sensors (R427). -/
def clusterTemp (s : State) (c : Nat) : Option (BitVec 16) :=
  ((List.range 4).filterMap fun i => kget s.sensors (64 * (c / 16) + 4 * (c % 16) + i)).foldl (fun m x =>
    match m with | none => some x | some y => if y.toInt < x.toInt then some x else some y) none

/-- A reading is current for the 1,000 ticks until the sensor's next sample (R427). -/
def current (s : State) (k : Nat) : Bool := s.tick.toNat ≤ kgetD s.mods.sampled k 0 + 1000

/-- The readings that are no longer current read invalid, and CLTEMP goes by the others (R427). -/
def dropStale (s : State) : State :=
  let old := kfind s.sensors fun k _ => !current s k
  if old = [] then s else
  let s1 := { s with sensors := s.sensors.filter fun y => current s y.1 }
  old.foldl (fun s k => let c := 16 * (k / 64) + k % 64 / 4; s.modCluster c fun x => { x with temp := clusterTemp s c }) s1

/-- The current record of a cluster `n` ticks later (R431). -/
def shiftCharges (n : Nat) (l : List Nat) : List Nat := if l = [] then l else (List.replicate (min n 256) 0 ++ l).take 256

/-- The present tick ends, and the counter goes on to tick `t` (R401, R441): the chunks that closed in it enter their logs
(R422), the CLQREQ writes take effect and the tick advances; the grids that a fault has ended stop (R328), the current records shift
(R431), old readings of sensors end (R427), and the times of parkings, evictions and replay gates run. A module that stops at this tick does not
go on (R402). -/
def tickTo (s : State) (t : DWord) : State :=
  let n := (t - s.tick).toNat
  let s1 := endTick (if s.mods.stopped then s else (s.ctxs.map Prod.fst).foldl flushLog s) t
  if s1.mods.stopped then s1 else
  let s2 := dropStale ((kfind s1.grids fun _ r => r.st = .ending).foldl gridStop s1)
  leaveParts { s2 with
    waves := kmap s2.waves fun _ v => if isHalted s2 v then v else { v with parkTime := v.parkTime.map (· + n) }
    gangs := kmap s2.gangs (evictTick s2 n)
    ctxs := kmap s2.ctxs (gateTick s2 n)
    clusters := kmap s2.clusters fun _ k => { k with charges := shiftCharges n k.charges } }

/-- One tick ends; a counter that is ahead of the tick master's stands instead, and never steps backward (R393). -/
def tickEnd (s : State) : State :=
  if s.mods.ahead = 0 || s.mods.stopped then tickTo s (s.tick + 1)
  else { s with mods := { s.mods with ahead := s.mods.ahead - 1 } }

/-! ### Rails (R424 to R426) -/

/-- RAIL_SLEW (R425): the rail of cluster `unit` steps 10 mV in 1,000 ticks toward its target, 0 when it is off. A falling rail below
100 mV, and a waking rail at its target, give their events. -/
def execRailSlew (s : State) : Out :=
  .next (let c := s.unit
    let x := s.cluster c
    let goal := if x.off then 0 else x.mv
    if 64 ≤ c || s.mods.railsOff || s.mods.stopped || x.mvNow = goal || s.tick.toNat < x.slewAt.toNat + 1000 then s else
    let now := if x.mvNow < goal then min goal (x.mvNow + 10) else max goal (x.mvNow - 10)
    let s1 := s.modCluster c fun x => { x with mvNow := now, slewAt := s.tick, settled := x.offNow || (!x.off && railSettled false x.mv now) }
    if x.off && now < 100 then s1.push [.event c .railOffReached]
    else if x.st = 6 && railSettled false x.mv now then s1.push [.event c .railSettled] else s1)

/-- RAIL_OFF_REACHED (R435): OFF and SETTLED rise together. -/
def execRailOffReached (s : State) : Out :=
  .next (if (s.cluster s.unit).off && (s.cluster s.unit).mvNow < 100 then
    s.modCluster s.unit fun x => { x with offNow := true, settled := true } else s)

/-- LRAIL_OFF. -/
def execLrailOff (c mv : Nat) (s : State) : Out := .next (lrailOff s c mv)
/-- LRAIL_MV. -/
def execLrailMv (c mv : Nat) (s : State) : Out := .next (lrailMv s c mv)

/-- n to the power 1280: sixty-fourths of a degree over 20 °C. -/
def pow1280 (n : Nat) : Nat := (n ^ 128) ^ 10

/-- A free amount by which the firmware lowers an allocation: at least 1 mW, down to 0 at most (R429, log 65). -/
def lowerBy (a r : Nat) : Nat := a - 1 - r % a

/-- The firmware lowers the module's allocation while some CLTEMP is above 105 °C (R429). -/
def lowerAllocation (s : State) : State :=
  if !(s.clusters.any fun y => match y.2.temp with | some t => decide ((105 * 64 : Int) < t.toInt) | none => false) then s
  else { s with mods := { s.mods with alloc := lowerBy s.mods.alloc (Config.freeValue s.free).toNat }, free := s.free + 1 }

/-- The power of a cluster at a target does not exceed its allocation (R426), in 10⁻¹² W: CE · V² · Fmax + LK · V ·
2^((Tj − 25) ÷ 20), with Tj in 1/64 °C, compared exactly. -/
def targetFits (alloc c v : Nat) (temp : Int) : Bool :=
  let dyn := Config.calCE c * v * v * Config.calFmax c v
  let room := Config.allocation c alloc * 10 ^ 9
  let leak := Config.calLK c * v * 10 ^ 6
  let k := temp - 1600
  decide (dyn ≤ room) && decide (pow1280 leak * 2 ^ k.toNat ≤ pow1280 (room - dyn) * 2 ^ (-k).toNat)

/-- The highest target that fits, else 500 mV (R426). -/
def bestTarget (alloc c : Nat) (temp : Int) : Nat :=
  ((((List.range 41).map fun i => 900 - 10 * i).find? fun v => targetFits alloc c v temp)).getD 500

/-- A pass of the firmware is due: the first with the rails up, and one every 100,000 ticks (R426). -/
def passDue (s : State) : Bool :=
  !s.mods.railsOff && (match s.mods.passAt with | none => true | some t => t.toNat + 100000 ≤ s.tick.toNat)

/-- A pass of the firmware (R426, R429): the module's allocation is lowered while a junction is too hot, and every cluster in
RUN takes its target and budget. A cluster without a valid CLTEMP keeps them. -/
def targetPass (s : State) : State :=
  { ((List.range 64).foldl (fun s c =>
    match (s.cluster c).st, (s.cluster c).temp with
    | 0, some t =>
      let v := bestTarget s.mods.alloc c t.toInt
      (lrailMv s c v).modCluster c fun x => { x with budget := Config.budget c v }
    | _, _ => s) (lowerAllocation s)) with mods := { (lowerAllocation s).mods with passAt := some s.tick } }

/-- RAIL_TARGET_PASS (R426). -/
def execRailTargetPass (s : State) : Out := .next (if passDue s then targetPass s else s)

/-! ### The handshake (R436, R440) -/

/-- CLQREQ_SET. -/
def execClqreqSet (s : State) : Out := .next (clqreqSet s s.unit)
/-- CLQREQ_CLEAR. -/
def execClqreqClear (s : State) : Out := .next (clqreqClear s s.unit)

/-- A cluster from which everything has gone: gangs, reservations, copies with their carried arrivals, matrix steps (R436). -/
def clusterIdle (s : State) (c : Nat) : Bool :=
  gangOn s c = [] &&
  !(s.gangs.any fun y => match y.2.castle with | some pl => 16 * pl.die + pl.cl = c | none => false) &&
  !(s.copies.any fun y => clusterOf y.2.place = c && (y.2.done < y.2.len || y.2.arrive.isSome)) &&
  !(s.matrix.any fun y => y.1 / 8 = c && y.2 ≠ [])

/-- QUIESCE_COMPLETE (R433, R436): the porter is handed to the buddy. -/
def execQuiesceComplete (s : State) : Out :=
  .next (if (s.cluster s.unit).st = 1 && clusterIdle s s.unit then s.modCluster s.unit fun x => { x with st := 2, qack := true } else s)

/-- RETSAVE_GO. -/
def execRetsaveGo (s : State) : Out := .next (retsaveGo s s.unit)
/-- RETSAVE_COMPLETE. -/
def execRetsaveComplete (s : State) : Out := .next (retsaveComplete s s.unit)
/-- CLKGATE_SET. -/
def execClkgateSet (s : State) : Out := .next (clkgateSet s s.unit)
/-- CLKGATE_CLEAR. -/
def execClkgateClear (s : State) : Out := .next (clkgateClear s s.unit)
/-- CLWAKE_WAKE. -/
def execClwakeWake (s : State) : Out := .next (clwake s s.unit)

/-- RAIL_SETTLED (R436, R440): the retention load starts, or the cluster is RUN with its flip-flops at reset and COLD. -/
def execRailSettled (s : State) : Out := .next (railArrived s s.unit)

/-- RETLOAD_COMPLETE (R440). -/
def execRetloadComplete (s : State) : Out := .next (retloadComplete s s.unit)

/-! ### Heat (R362, R427, R428) -/

/-- Every context but a FREE one goes to EMERGENCY with THERMTRIP (R357, R362); the save takes up what it finds. -/
def toEmergency (s : State) (sensor : Nat) : State :=
  (s.ctxs.filter fun y => y.1 ≠ firmwareCtx && y.2.st ≠ .free && y.2.st ≠ .emergency).foldl (fun s y =>
    let s1 := s.modCtx y.1 fun x => { x with
      st := .emergency, cause := 0x24, faults := [0x24], stopped := []
      haltTick := if x.st = .live then s.tick else x.haltTick, saved := if x.st = .lost then 3 else 0 }
    stopRecord s1 y.1 0x24 5 1 0 0 0 0 0 0 sensor) s

/-- A byte of the vault window (R40, R41). -/
def inVault (s : State) (pa : Nat) : Bool :=
  decide (pa / 2 ^ 48 % 256 = s.cfg.modid) && 0xA000000000 ≤ pa % 2 ^ 48 && pa % 2 ^ 48 < 0xA000000000 + s.cfg.vwin * 2 ^ 20 * 64

/-- The vaults lose what they hold: every byte that was written there reads as under another key (R428, log 3). -/
def loseVault (s : State) : State :=
  { s with
    keyGen := s.keyGen + 1
    memKey := (s.mem.filter fun y => inVault s y.1).foldl (fun m y => kput m y.1 (s.keyGen + 1)) s.memKey }

/-- A wave whose state the removal of the rails takes: every one that is not in a complete image. -/
def waveLost (s : State) (v : Wave) : Bool := v.st ≠ .saved || (match s.gang? v.gang with | some g => g.st ≠ .saved | none => true)

/-- The work of a context whose save is not complete is gone. -/
def loseWork (s : State) (c : Nat) : State :=
  let gone (k : Nat) : Bool := match s.ctx? k with | some x => k = c && x.saved ≠ 2 | none => false
  { s with
    prods := s.prods.filter fun y => match s.wave? y.2.wave with | some v => !gone v.ctx | none => false
    sysCommits := s.sysCommits.filter fun y => !gone y.2.ctx
    copies := s.copies.filter fun y => !gone y.2.ctx
    hall := s.hall.filter fun r => !gone r.ctx
    clusters := kmap s.clusters fun _ k => { k with
      held := k.held.filter fun r => !gone r.ctx, ovf := k.ovf.filter fun r => !gone r.ctx, ovfAddrs := k.ovfAddrs.filter fun y => !gone y.1 }
    waves := kmap s.waves fun _ v =>
      if gone v.ctx && waveLost s v then { v with st := .ended, seat := none, slot0 := .free, slot1 := .free, parkTime := none } else v }

/-- A cluster at the removal of its rails (R436): OFF, with nothing retained. A handshake write that waited for a save finds OFF,
and is refused (log 71); those of CLQREQ still wait for the end of the tick (R441). -/
def Cluster.trip (x : Cluster) : Cluster :=
  { x with
    st := 5, wasRun := x.st = 0, qack := true, off := true, offNow := true, mvNow := 0, settled := true, retValid := false
    order := x.order || x.heldOps ≠ [], saving := false, rlBusy := false, heldOps := [], saveWatch := [], charges := [] }

/-- The compute rails of every die are removed (R428, R362). -/
def removeRails (s : State) : State :=
  let s1 := (s.ctxs.map Prod.fst).foldl loseWork (loseVault s)
  { s1 with
    mods := { s1.mods with railsOff := true }
    clusters := (List.range 64).foldl (fun m c => kput m c (Cluster.trip (kgetD m c .reset))) s1.clusters
    matrix := [], watch := [], counters := [], clocks := [], refill := [], tlb := [] }

/-- HARD_TRIP (R428): the rails go at once, and never wait for a save. -/
def execHardTrip (die sensor : Nat) (s : State) : Out :=
  .next (if s.mods.railsOff then s else removeRails (toEmergency s (64 * die + sensor)))

/-- EMERGENCY_RAIL_REMOVAL (R362): every context's save is complete. -/
def execEmergencyRailRemoval (s : State) : Out :=
  .next (let l := s.ctxs.filter fun y => y.2.st = .emergency
    if s.mods.railsOff || l = [] || !(l.all fun y => 2 ≤ y.2.saved) then s else removeRails s)

/-- The save of a context is complete, and no image of it is torn (R344, R357, R362). -/
def savedWhole (s : State) (c : Nat) (x : Ctx) : Bool :=
  x.saved = 2 && devByte s c (x.poolBase + 327679) ≠ 0 &&
  !(s.gangs.any fun y => y.2.ctx = c && y.2.st ≠ .retired && y.2.image.isSome && !imageWhole s y.2)

/-- RAILS_RESTORE (R357, R428): every image is examined, every context leaves EMERGENCY, and the clusters that were RUN are woken (R436). -/
def execRailsRestore (s : State) : Out :=
  .next (match s.mods.coolSince with
    | none => s
    | some t =>
      if !s.mods.railsOff || s.stage < 4 || s.recovery || s.tick.toNat < t + 1000000000 then s else
      let s1 := { s with
        mods := { s.mods with railsOff := false }
        ctxs := kmap s.ctxs fun c x => if x.st ≠ .emergency then x
          else if savedWhole s c x then { x with st := .halted, cause := 0x24, faults := [0x24] } else { x with st := .lost } }
      (kfind s1.clusters fun _ x => x.wasRun && x.st = 5).foldl clwake s1)

/-- The coolant and energy registers as they read next: measurements that no rule fixes (R427). -/
def measure (s : State) (c : Nat) : State :=
  let r (k : Nat) : BitVec 64 := Config.freeValue (s.free + k)
  { s.modCluster c fun x => { x with energy := x.energy + ((r 0).extractLsb' 0 32).setWidth 64 } with
    free := s.free + 4
    mods := { s.mods with
      coolIn := some ((r 1).extractLsb' 0 16), coolOut := some ((r 2).extractLsb' 0 16)
      modEnergy := s.mods.modEnergy + ((r 3).extractLsb' 0 32).setWidth 64 } }

/-- The clock hold of a cluster (R428): from 108 °C until it reads 104 °C. -/
def heatHold (hold : Bool) (t : BitVec 16) : Bool :=
  if decide ((108 * 64 : Int) ≤ t.toInt) then true else if decide (t.toInt ≤ (104 * 64 : Int)) then false else hold

/-- SENSOR_SAMPLE (R427, R428): the reading is taken, CLTEMP follows, the clock is held or let go; at 112 °C every context
goes to EMERGENCY and is saved. -/
def execSensorSample (die sensor : Nat) (reading : BitVec 16) (s : State) : Out :=
  .next (if 4 ≤ die || 64 ≤ sensor || s.mods.stopped then s else
    let c := 16 * die + sensor / 4
    let k := 64 * die + sensor
    let s1 := measure { s with sensors := kput s.sensors k reading, mods := { s.mods with sampled := kput s.mods.sampled k s.tick.toNat } } c
    let t := clusterTemp s1 c
    let s2 := s1.modCluster c fun x => { x with temp := t, hold := match t with | some y => heatHold x.hold y | none => x.hold }
    let cool := s2.sensors.all fun y => decide (y.2.toInt < (95 * 64 : Int))
    let s3 := { s2 with mods := { s2.mods with coolSince := if cool then some (s2.mods.coolSince.getD s2.tick.toNat) else none } }
    match t with
    | some y => if decide ((112 * 64 : Int) ≤ y.toInt) && !s3.mods.railsOff then emergencyStep (toEmergency s3 k) else s3
    | none => s3)

end Sys2Proof.Machine
end

