-- ==== Sys2Proof/Machine/Module.lean ====
section
/-! DEFINITION. The ports and the domain (R389 to R395), the module's stop and counter registers (R401, R402, R408), the
writes of registers (R6), and boot (R442 to R447), as events. -/

namespace Sys2Proof.Machine

/-! ### Ports (R389, R395) -/

/-- PORTEN; in RECOVERY it does not act (R442). -/
def execPorten (s : State) : Out := .next (if s.recovery then s else portEnable s s.unit)
/-- PORTFENCE; in RECOVERY it does not act (R442). -/
def execPortfence (s : State) : Out := .next (if s.recovery then s else portLeave s s.unit 4)

/-- PORT_TRAINING_DONE: UP with 8 lanes, DEGRADED with 4 to 7; a home with a path again is reachable (R392). -/
def execPortTrainingDone (p lanes peer : Nat) (s : State) : Out :=
  .next (if (port s p).st ≠ 1 || lanes < 4 || 8 < lanes then s else
    let s1 := modPort s p fun x => { x with st := if lanes = 8 then 2 else 3, lanes, peer }
    reroute { s1 with unreach := s1.unreach.filter fun m => !hasPath s1 m })

/-- PORT_TRAINING_TIMEOUT: fewer than 4 lanes have trained within 100,000,000 ticks: DOWN, counted. -/
def execPortTrainingTimeout (s : State) : Out :=
  .next (modPort s s.unit fun x => if x.st = 1 && x.since.toNat + 100000000 ≤ s.tick.toNat then { x with st := 0, trainFail := min (x.trainFail + 1) (2 ^ 32 - 1) } else x)

/-- The ticks of a port's replays in the last 1,000,000 ticks; 1,001 of them decide (R389). -/
def recentReplays (s : State) (x : Port) : List DWord := (x.replayed.filter fun t => s.tick.toNat < t.toNat + 1000000).take 1001

/-- PORT_LANE_FAIL: the flits in flight, of which a free value says how many there are (log 6), are replayed on the lanes that
are left and count as replays (R389, R395); 1,001 of them decide. -/
def execPortLaneFail (s : State) : Out :=
  .next (if !portUp s s.unit then s
    else if (port s s.unit).lanes < 5 then portLeave s s.unit 0
    else
      let d := s.draw
      let n := d.1.toNat % 1002
      modPort d.2 s.unit fun x => { x with
        st := 3, lanes := x.lanes - 1, replays := min (x.replays + n) 255
        replayed := List.replicate n s.tick ++ (recentReplays s x).take (1001 - n) })

/-- PORT_IDLE_TIMEOUT: neither a flit nor an idle has come for 10,000 ticks, which only the link shows. -/
def execPortIdleTimeout (s : State) : Out := .next (portLeave s s.unit 0)
/-- PORT_REPLAY_LIMIT: more than 1,000 replays in 1,000,000 ticks. -/
def execPortReplayLimit (s : State) : Out := .next (if 1000 < (recentReplays s (port s s.unit)).length then portLeave s s.unit 4 else s)

/-- FLIT_CRC_ERROR (R390, R395): the flit is replayed and accepted once; REPLAYS counts it. -/
def execFlitCrcError (s : State) : Out :=
  .next (if portUp s s.unit then modPort s s.unit fun x => { x with
    replays := min (x.replays + 1) 255, replayed := s.tick :: (recentReplays s x).take 1000 } else s)

/-- LINKST_READ (R395). -/
def execLinkstRead (s : State) : Out :=
  .next (let r := readLinkst s s.unit
    { r.2 with bus := BitVec.ofNat 64 r.1 })

/-! ### The domain (R392 to R394) -/

/-- An address homed on another module. -/
def onModule (s : State) (m pa : Nat) : Bool := match homeOf s pa with | .module k => k = m | _ => false

/-- A commit of a wave waits at its entry, and not at its gang step alone: its carry may be what it waits for (R93, R392). -/
def carrying (v : Wave) : Bool :=
  v.alive && [v.slot0, v.slot1].any fun x => x.live && x.stalled && x.entry.isSome && x.entry ≠ some 1 && x.entry ≠ some closeEntry

/-- The contexts with a commit, load, copy or request outstanding to a module, a carry share that waits for its path included, each
with an engine that waits, waves first (R361, R394). -/
def ctxsWaiting (s : State) (m : Nat) : List (Nat × Option Engine) :=
  let va (c a : Nat) (k : Acc) : Bool := match xlate s c (a % 2 ^ 72) k with | .hit pa => onModule s m pa | _ => false
  let all : List (Nat × Option Engine) := (s.sysCommits.filterMap fun y => if y.2.homes.contains m && !y.2.finished then some (y.2.ctx, some (.wave y.2.wave)) else none) ++
   (s.prods.filterMap fun y => match y.2.kind, s.wave? y.2.wave with
      | .load items _, some v =>
        if v.alive && items.any (fun it => !it.dead && !it.scratch && it.data.isNone && va v.ctx it.ea .read) then
          some (v.ctx, some (.wave y.2.wave)) else none
      | _, _ => none) ++
   (s.copies.filterMap fun y => if y.2.done < y.2.len && ((y.2.dir ≠ 1 && va y.2.ctx (y.2.src + y.2.done) .read) ||
      (y.2.dir ≠ 0 && va y.2.ctx (y.2.dst + y.2.done) .write)) then some (y.2.ctx, copyEngine y.2) else none) ++
   (s.hall.filterMap fun r => match r.at_ with
      | .dev pa => if onModule s m pa then some (r.ctx, some (reqEngine s r)) else none
      | .gang g _ _ => (match s.gang? g with
        | some k => if 65536 ≤ lineCount (k.pool.map Prod.fst) && k.pool.any (fun y => va r.ctx y.1 .write) then some (r.ctx, some (reqEngine s r)) else none
        | none => none)
      | _ => none) ++
   (s.waves.filterMap fun y => if carrying y.2 && (match s.gang? y.2.gang with
        | some k => k.pool.any (fun z => va y.2.ctx z.1 .write)
        | none => false) then some (y.2.ctx, some (.wave y.1)) else none)
  all.foldl (fun l y => if l.any (·.1 = y.1) then l else l ++ [y]) []

/-- The tick at which the last path to a module was lost (R392). -/
def cutSince (s : State) (m : Nat) : Nat := (((kget s.cfg.paths m).getD []).map fun p => (port s p).lostAt.toNat).foldl max 0

/-- LINKWAIT_EXPIRY (R115, R394): module `unit` has had no path for LINKWAIT ticks. -/
def execLinkwaitExpiry (s : State) : Out :=
  .next (let m := s.unit
    if hasPath s m || (kget s.cfg.paths m).isNone || m = s.cfg.modid || s.tick.toNat < cutSince s m + s.cfg.linkwait then s else
    let cs := ctxsWaiting s m
    let ws := s.sysCommits.filterMap fun y => if y.2.homes.contains m && !y.2.applied then some y.2.wave else none
    let s1 := dropStaged { s with unreach := if s.unreach.contains m then s.unreach else s.unreach ++ [m] } fun src _ => src = m
    cs.foldl (fun s y => linkLost s y.1 m y.2) (ws.foldl abandonSys s1))

/-- The tick to which a counter behind the master's is steered: not past the tick at whose end the module stops (R402). -/
def steerTo (s : State) (t : DWord) : DWord :=
  if s.mods.arm && s.tick.toNat ≤ s.mods.stopTick.toNat && s.mods.stopTick.toNat < t.toNat then s.mods.stopTick else t

/-- TICK_SYNC (R393): the counter steers to the master's. One that is behind goes on to its tick, the ticks between passing
at once; one that is ahead stands until the master has come up with it, and never steps backward. -/
def execTickSync (t : DWord) (s : State) : Out :=
  .next (let m := tickMaster s
    if m = s.cfg.modid || !hasPath s m || s.mods.stopped then s else
    let u := steerTo s t
    let s1 := if s.tick.toNat < u.toNat then tickTo s u else s
    { s1 with
      mods := { s1.mods with ahead := s.tick.toNat - t.toNat, tsync := true } })

/-! ### The debug stop and the counters (R401, R402, R408) -/

/-- STOPCTL_ARM. -/
def execStopctlArm (v : Bool) (s : State) : Out := .next (if s.recovery then s else stopctlArm s v)

/-- STOP_TICK_REACHED: every domain gates at the end of tick TICK. -/
def execStopTickReached (s : State) : Out :=
  .next (if s.mods.arm && s.tick = s.mods.stopTick && !s.mods.stopped then
    { s with mods := { s.mods with stopped := true, arm := false } } else s)

/-- STOPCTL_RESUME. -/
def execStopctlResume (s : State) : Out := .next (if s.recovery then s else stopResume s)
/-- CNTSNAP (R408): the event at the end of the tick; `moduleWrite4` asks for it. -/
def execCntsnap (s : State) : Out := .next (if s.recovery then s else cntSnap s)
/-- CNTCLR (R408): the event at the end of the tick; `moduleWrite4` asks for it. -/
def execCntclr (s : State) : Out := .next (if s.recovery then s else cntClr s)

/-- REGISTER_WRITE (R6): a write stores or clears a register's fields under their Access. -/
def execRegisterWrite (r : RegAddr) (v : DWord) (s : State) : Out :=
  .next (match r with
    | .power c off => if c < 64 && !s.recovery then powerWrite s c off (v.toNat % 2 ^ 32) else s
    | .module off => moduleWrite s off (if off = 0x80 then 8 else 4) v.toNat
    | .endpoint off => endpointWrite s off v.toNat)

/-! ### Boot (R442 to R447) -/

/-- A field of the configuration record. -/
def cfgNat (img : List Byte) (off n : Nat) : Nat := leNat ((img.drop off).take n)

/-- A field with a default that zero selects. -/
def orDefault (v d : Nat) : Nat := if v = 0 then d else v

/-- The configuration record of R444. -/
def parseCfg (img : List Byte) : CfgRec where
  version := BitVec.ofNat 32 (cfgNat img 0 4)
  minver := BitVec.ofNat 32 (cfgNat img 4 4)
  modid := cfgNat img 8 1
  porten := BitVec.ofNat 16 (cfgNat img 0xA 2)
  wakeBase := cfgNat img 0x10 8
  pwrBase := cfgNat img 0x18 8
  mgmtBase := cfgNat img 0x460 8
  faultRing := cfgNat img 0x20 9
  qidle := orDefault (cfgNat img 0x30 8) 1000000
  qpageage := orDefault (cfgNat img 0x38 8) 10000000000
  parklimit := orDefault (cfgNat img 0x40 8) 100000
  linkwait := orDefault (cfgNat img 0x48 8) 2000000
  castleTemp := orDefault (cfgNat img 0x50 2) 6400
  castleMargin := orDefault (cfgNat img 0x52 2) 640
  paths := (List.range 256).filterMap fun m =>
    let l := ((List.range 4).map fun k => cfgNat img (0x60 + 4 * m + k) 1).filter fun p => p < 16
    if l = [] then none else some (m, l)
  vwin := orDefault (cfgNat img 0x468 1) 8

/-- A window base in its range: 64 GiB aligned, within 0xC0_0000_0000 to 0xFF_FFFF_FFFF. -/
def baseOk (b : Nat) : Bool := b % 2 ^ 36 = 0 && 0xC000000000 ≤ b && b ≤ 0xFFFFFFFFFF

/-- A configuration record with a field outside its range (R444). -/
def cfgBad (img : List Byte) : Bool :=
  let c := parseCfg img
  c.version.toNat < c.minver.toNat || cfgNat img 9 1 ≠ 0 || !baseOk c.wakeBase || !baseOk c.pwrBase || !baseOk c.mgmtBase ||
  c.wakeBase = c.pwrBase || c.wakeBase = c.mgmtBase || c.pwrBase = c.mgmtBase || c.faultRing % 4096 ≠ 0 || 24 < c.vwin ||
  ((List.range 23).any fun i => cfgNat img (0x469 + i) 1 ≠ 0) ||
  ((List.range 1024).any fun i => let p := cfgNat img (0x60 + i) 1; 16 ≤ p && p ≠ 0xFF)

/-- The image of a flash region is accepted (R443): its signature verifies and its VERSION is at least the minimum. A region
that nothing has written holds the image with which the module runs (log 4). -/
def imageAccepted (s : State) (r : Nat) (minver : Word) : Bool :=
  match kget s.flash r with
  | none => true
  | some img => Config.imageVerifies r img && minver.toNat ≤ (Config.imageVersion r img).toNat

/-- The image of a flash region is the one that the module has booted (R446). -/
def bootImage (s : State) (r : Nat) : State :=
  match kget s.flash r with
  | none => s
  | some img => { s with booted := kput s.booted r img }

/-- The configuration record is read from flash and checked (R443, R444): a verified one raises the minimum version to its
MINVER. -/
def bootRecord (s : State) : Option State :=
  match kget s.flash 0 with
  | none => some s
  | some img =>
    let c := parseCfg img
    if Config.imageVerifies 0 img && s.minver.toNat ≤ c.version.toNat && !cfgBad img then
      some (bootImage { s with cfg := c, minver := if s.minver.toNat < c.minver.toNat then c.minver else s.minver } 0)
    else none

/-- Boot stage 1 (R442, R443): the configuration record, then the steward image; the record's minimum stands whether or not the
image is accepted. -/
def bootRom (s0 : State) : State :=
  let s := { s0 with stage := 1 }
  match bootRecord s with
  | none => { s with recovery := true }
  | some s1 => if imageAccepted s1 1 s1.minver then bootImage s1 1 else { s1 with recovery := true }

/-- MODULE_RESET (R447): every context ends, every key slot is zeroed, queues and images are discarded, every
register holds its reset value, a sensor's included (R427); DRAM survives, but for the fault ring's header, whose counts are 0
at module reset (R382). -/
def execModuleReset (s : State) : Out :=
  .next (let v := loseVault s
    let s1 := bootRom { State.reset with
      mem := v.mem, memKey := v.memKey, keyGen := v.keyGen, flash := s.flash, minver := s.minver, cfg := s.cfg, free := s.free
      agenda := s.agenda, unit := s.unit }
    plainEntry s1 (bytesAt s1.cfg.faultRing 64 0))

/-- A stage begins only when the one before it has completed, and a failed check stops the boot in RECOVERY (R442). -/
def bootStage (s : State) (n : Nat) (ok : Bool) (k : State → State) : Out :=
  .next (if s.recovery || s.stage + 1 ≠ n then s
    else if ok then k { s with stage := n } else { s with stage := n, recovery := true, mods := { s.mods with railsOff := true } })

/-- STEWARD_BRINGUP: it fails when the training of a DRAM stack fails. -/
def execStewardBringup (ok : Bool) (s : State) : Out := bootStage s 2 ok id

/-- The innkeeper's firmware context (R437): privileged, its tables map the power window. -/
def firmware : Ctx := { newCtx 0 0 with priv := true }

/-- INNKEEPER_VERIFY (R442, R443). -/
def execInnkeeperVerify (s : State) : Out :=
  bootStage s 3 (imageAccepted s 2 s.minver) fun s0 =>
    let s := bootImage s0 2
    { s with ctxs := kput s.ctxs firmwareCtx firmware }

/-- COMPUTE_RAIL_RAISE (R426, R442): it fails when a sensor reads invalid; the enabled ports train. -/
def execComputeRailRaise (s : State) : Out :=
  bootStage s 4 ((List.range 256).all fun i => (kget s.sensors i).isSome) fun s =>
    (bits16 s.cfg.porten.toNat).foldl portEnable { s with mods := { s.mods with railsOff := false } }

/-- MGMT_READY (R442): the firmware's first pass has run (R426). -/
def execMgmtReady (s : State) : Out := bootStage s 5 true fun s => if s.mods.passAt.isNone then targetPass s else s

end Sys2Proof.Machine
end

