-- ==== Sys2Proof/Machine/Dispatch.lean ====
section
/-! DEFINITION. The meaning of every instruction: one arm per constructor. -/

namespace Sys2Proof.Machine

/-- One step of one instruction. -/
def exec (i : Instr) (s : State) : Host.Outcome State Fault Refusal :=
  match i with
  | .nop x => Sys2Proof.Machine.execNop x s
  | .bra x => Sys2Proof.Machine.execBra x s
  | .brd x => Sys2Proof.Machine.execBrd x s
  | .join x => Sys2Proof.Machine.execJoin x s
  | .call x => Sys2Proof.Machine.execCall x s
  | .ret x => Sys2Proof.Machine.execRet x s
  | .jmpx x => Sys2Proof.Machine.execJmpx x s
  | .exit x => Sys2Proof.Machine.execExit x s
  | .seam x => Sys2Proof.Machine.execSeam x s
  | .yield x => Sys2Proof.Machine.execYield x s
  | .voteAny x => Sys2Proof.Machine.execVoteAny x s
  | .voteAll x => Sys2Proof.Machine.execVoteAll x s
  | .voteBal x => Sys2Proof.Machine.execVoteBal x s
  | .voteEq x => Sys2Proof.Machine.execVoteEq x s
  | .iadd x => Sys2Proof.Machine.execIadd x s
  | .isub x => Sys2Proof.Machine.execIsub x s
  | .iaddc x => Sys2Proof.Machine.execIaddc x s
  | .imul x => Sys2Proof.Machine.execImul x s
  | .imulh x => Sys2Proof.Machine.execImulh x s
  | .imad x => Sys2Proof.Machine.execImad x s
  | .imin x => Sys2Proof.Machine.execImin x s
  | .imax x => Sys2Proof.Machine.execImax x s
  | .iabs x => Sys2Proof.Machine.execIabs x s
  | .iclamp x => Sys2Proof.Machine.execIclamp x s
  | .and x => Sys2Proof.Machine.execAnd x s
  | .or x => Sys2Proof.Machine.execOr x s
  | .xor x => Sys2Proof.Machine.execXor x s
  | .andn x => Sys2Proof.Machine.execAndn x s
  | .shl x => Sys2Proof.Machine.execShl x s
  | .shr x => Sys2Proof.Machine.execShr x s
  | .sar x => Sys2Proof.Machine.execSar x s
  | .rot x => Sys2Proof.Machine.execRot x s
  | .bfx x => Sys2Proof.Machine.execBfx x s
  | .bfi x => Sys2Proof.Machine.execBfi x s
  | .popc x => Sys2Proof.Machine.execPopc x s
  | .clz x => Sys2Proof.Machine.execClz x s
  | .brev x => Sys2Proof.Machine.execBrev x s
  | .mov x => Sys2Proof.Machine.execMov x s
  | .movw x => Sys2Proof.Machine.execMovw x s
  | .movq x => Sys2Proof.Machine.execMovq x s
  | .ldi x => Sys2Proof.Machine.execLdi x s
  | .lda x => Sys2Proof.Machine.execLda x s
  | .aadd x => Sys2Proof.Machine.execAadd x s
  | .amov x => Sys2Proof.Machine.execAmov x s
  | .pset x => Sys2Proof.Machine.execPset x s
  | .plog x => Sys2Proof.Machine.execPlog x s
  | .pmovPv x => Sys2Proof.Machine.execPmovPv x s
  | .pmovVp x => Sys2Proof.Machine.execPmovVp x s
  | .pmovSave x => Sys2Proof.Machine.execPmovSave x s
  | .pmovLoad x => Sys2Proof.Machine.execPmovLoad x s
  | .sel x => Sys2Proof.Machine.execSel x s
  | .prisel x => Sys2Proof.Machine.execPrisel x s
  | .xlXor x => Sys2Proof.Machine.execXlXor x s
  | .xlUp x => Sys2Proof.Machine.execXlUp x s
  | .xlDown x => Sys2Proof.Machine.execXlDown x s
  | .xlIdx x => Sys2Proof.Machine.execXlIdx x s
  | .qxH x => Sys2Proof.Machine.execQxH x s
  | .qxV x => Sys2Proof.Machine.execQxV x s
  | .qxD x => Sys2Proof.Machine.execQxD x s
  | .rstep x => Sys2Proof.Machine.execRstep x s
  | .red x => Sys2Proof.Machine.execRed x s
  | .scan x => Sys2Proof.Machine.execScan x s
  | .srd x => Sys2Proof.Machine.execSrd x s
  | .swr x => Sys2Proof.Machine.execSwr x s
  | .fadd x => Sys2Proof.Machine.execFadd x s
  | .fsub x => Sys2Proof.Machine.execFsub x s
  | .fmul x => Sys2Proof.Machine.execFmul x s
  | .ffma x => Sys2Proof.Machine.execFfma x s
  | .fmin x => Sys2Proof.Machine.execFmin x s
  | .fmax x => Sys2Proof.Machine.execFmax x s
  | .fminProp x => Sys2Proof.Machine.execFminProp x s
  | .fmaxProp x => Sys2Proof.Machine.execFmaxProp x s
  | .fcmp x => Sys2Proof.Machine.execFcmp x s
  | .fclass x => Sys2Proof.Machine.execFclass x s
  | .frnd x => Sys2Proof.Machine.execFrnd x s
  | .fscale x => Sys2Proof.Machine.execFscale x s
  | .hadd2 x => Sys2Proof.Machine.execHadd2 x s
  | .hmul2 x => Sys2Proof.Machine.execHmul2 x s
  | .hfma2 x => Sys2Proof.Machine.execHfma2 x s
  | .dot4 x => Sys2Proof.Machine.execDot4 x s
  | .idot4 x => Sys2Proof.Machine.execIdot4 x s
  | .cvt x => Sys2Proof.Machine.execCvt x s
  | .cvts x => Sys2Proof.Machine.execCvts x s
  | .pack x => Sys2Proof.Machine.execPack x s
  | .unpk x => Sys2Proof.Machine.execUnpk x s
  | .bscale x => Sys2Proof.Machine.execBscale x s
  | .qnt x => Sys2Proof.Machine.execQnt x s
  | .dqnt x => Sys2Proof.Machine.execDqnt x s
  | .rcp x => Sys2Proof.Machine.execRcp x s
  | .rsq x => Sys2Proof.Machine.execRsq x s
  | .sqrt x => Sys2Proof.Machine.execSqrt x s
  | .exp2 x => Sys2Proof.Machine.execExp2 x s
  | .log2 x => Sys2Proof.Machine.execLog2 x s
  | .sin x => Sys2Proof.Machine.execSin x s
  | .cos x => Sys2Proof.Machine.execCos x s
  | .tanh x => Sys2Proof.Machine.execTanh x s
  | .wupd x => Sys2Proof.Machine.execWupd x s
  | .wmrg x => Sys2Proof.Machine.execWmrg x s
  | .wfin x => Sys2Proof.Machine.execWfin x s
  | .rng x => Sys2Proof.Machine.execRng x s
  | .ld x => Sys2Proof.Machine.execLd x s
  | .ldTrk x => Sys2Proof.Machine.execLdTrk x s
  | .lds x => Sys2Proof.Machine.execLds x s
  | .ldt x => Sys2Proof.Machine.execLdt x s
  | .pref x => Sys2Proof.Machine.execPref x s
  | .st x => Sys2Proof.Machine.execSt x s
  | .sts x => Sys2Proof.Machine.execSts x s
  | .commitBlk x => Sys2Proof.Machine.execCommitBlk x s
  | .commitGang x => Sys2Proof.Machine.execCommitGang x s
  | .commitDev x => Sys2Proof.Machine.execCommitDev x s
  | .commitSys x => Sys2Proof.Machine.execCommitSys x s
  | .commitChkBlk x => Sys2Proof.Machine.execCommitChkBlk x s
  | .commitChkGangDev x => Sys2Proof.Machine.execCommitChkGangDev x s
  | .commitChkSys x => Sys2Proof.Machine.execCommitChkSys x s
  | .abortWave x => Sys2Proof.Machine.execAbortWave x s
  | .abortBlk x => Sys2Proof.Machine.execAbortBlk x s
  | .abortGang x => Sys2Proof.Machine.execAbortGang x s
  | .fence x => Sys2Proof.Machine.execFence x s
  | .atomAdd x => Sys2Proof.Machine.execAtomAdd x s
  | .atomFadd x => Sys2Proof.Machine.execAtomFadd x s
  | .atomMin x => Sys2Proof.Machine.execAtomMin x s
  | .atomMax x => Sys2Proof.Machine.execAtomMax x s
  | .atomAnd x => Sys2Proof.Machine.execAtomAnd x s
  | .atomOr x => Sys2Proof.Machine.execAtomOr x s
  | .atomXor x => Sys2Proof.Machine.execAtomXor x s
  | .atomXchg x => Sys2Proof.Machine.execAtomXchg x s
  | .atomCas x => Sys2Proof.Machine.execAtomCas x s
  | .atomIncw x => Sys2Proof.Machine.execAtomIncw x s
  | .atomdAdd x => Sys2Proof.Machine.execAtomdAdd x s
  | .atomdFadd x => Sys2Proof.Machine.execAtomdFadd x s
  | .atomdMin x => Sys2Proof.Machine.execAtomdMin x s
  | .atomdMax x => Sys2Proof.Machine.execAtomdMax x s
  | .atomdAnd x => Sys2Proof.Machine.execAtomdAnd x s
  | .atomdOr x => Sys2Proof.Machine.execAtomdOr x s
  | .atomdXor x => Sys2Proof.Machine.execAtomdXor x s
  | .atomdXchg x => Sys2Proof.Machine.execAtomdXchg x s
  | .atomdCas x => Sys2Proof.Machine.execAtomdCas x s
  | .atomdIncw x => Sys2Proof.Machine.execAtomdIncw x s
  | .redsAdd x => Sys2Proof.Machine.execRedsAdd x s
  | .redsFadd x => Sys2Proof.Machine.execRedsFadd x s
  | .redsMin x => Sys2Proof.Machine.execRedsMin x s
  | .redsMax x => Sys2Proof.Machine.execRedsMax x s
  | .redsAnd x => Sys2Proof.Machine.execRedsAnd x s
  | .redsOr x => Sys2Proof.Machine.execRedsOr x s
  | .redsXor x => Sys2Proof.Machine.execRedsXor x s
  | .dphaseOpen x => Sys2Proof.Machine.execDphaseOpen x s
  | .dphaseClose x => Sys2Proof.Machine.execDphaseClose x s
  | .wcnt x => Sys2Proof.Machine.execWcnt x s
  | .cpyw x => Sys2Proof.Machine.execCpyw x s
  | .bara x => Sys2Proof.Machine.execBara x s
  | .barw x => Sys2Proof.Machine.execBarw x s
  | .bars x => Sys2Proof.Machine.execBars x s
  | .gbar x => Sys2Proof.Machine.execGbar x s
  | .xbar x => Sys2Proof.Machine.execXbar x s
  | .cpy x => Sys2Proof.Machine.execCpy x s
  | .cpyq x => Sys2Proof.Machine.execCpyq x s
  | .vsred x => Sys2Proof.Machine.execVsred x s
  | .vsrd x => Sys2Proof.Machine.execVsrd x s
  | .vscl x => Sys2Proof.Machine.execVscl x s
  | .mres x => Sys2Proof.Machine.execMres x s
  | .mrel x => Sys2Proof.Machine.execMrel x s
  | .mld x => Sys2Proof.Machine.execMld x s
  | .mma x => Sys2Proof.Machine.execMma x s
  | .mza x => Sys2Proof.Machine.execMza x s
  | .mpred x => Sys2Proof.Machine.execMpred x s
  | .msig x => Sys2Proof.Machine.execMsig x s
  | .mwait x => Sys2Proof.Machine.execMwait x s
  | .mloopDec x => Sys2Proof.Machine.execMloopDec x s
  | .mloopJmp x => Sys2Proof.Machine.execMloopJmp x s
  | .mloopSet x => Sys2Proof.Machine.execMloopSet x s
  | .mloopAdd x => Sys2Proof.Machine.execMloopAdd x s
  | .mst x => Sys2Proof.Machine.execMst x s
  | .mend x => Sys2Proof.Machine.execMend x s
  | .obst x => Sys2Proof.Machine.execObst x s
  | .acrd x => Sys2Proof.Machine.execAcrd x s
  | .trap x => Sys2Proof.Machine.execTrap x s
  | .rtt x => Sys2Proof.Machine.execRtt x s
  | .halt x => Sys2Proof.Machine.execHalt x s
  | .icinv x => Sys2Proof.Machine.execIcinv x s
  | .sleept x => Sys2Proof.Machine.execSleept x s
  | .wpset x => Sys2Proof.Machine.execWpset x s
  | .wpclr x => Sys2Proof.Machine.execWpclr x s
  | .wprd x => Sys2Proof.Machine.execWprd x s
  | .hrd x => Sys2Proof.Machine.execHrd x s
  | .hwr x => Sys2Proof.Machine.execHwr x s
  | .hstep x => Sys2Proof.Machine.execHstep x s
  | .hrun x => Sys2Proof.Machine.execHrun x s
  | .hstat x => Sys2Proof.Machine.execHstat x s
  | .dbmw x => Sys2Proof.Machine.execDbmw x s
  | .dbmr x => Sys2Proof.Machine.execDbmr x s
  | .rmark x => Sys2Proof.Machine.execRmark x s
  | .seamWaitEnd w sl => Sys2Proof.Machine.execSeamWaitEnd w sl s
  | .seatGrant w seat => Sys2Proof.Machine.execSeatGrant w seat s
  | .sleeptExpiry w sl => Sys2Proof.Machine.execSleeptExpiry w sl s
  | .hstepWaitTimeout w sl => Sys2Proof.Machine.execHstepWaitTimeout w sl s
  | .drowsyBankWake bench bank => Sys2Proof.Machine.execDrowsyBankWake bench bank s
  | .sysStageReceive src cid share => Sys2Proof.Machine.execSysStageReceive src cid share s
  | .sysApplyReceive src cid => Sys2Proof.Machine.execSysApplyReceive src cid s
  | .remoteCarryShare src share => Sys2Proof.Machine.execRemoteCarryShare src share s
  | .stewardAccess core ctx x => Sys2Proof.Machine.execStewardAccess core ctx x s
  | .hostPostedWrite bar off bytes => Sys2Proof.Machine.execHostPostedWrite bar off bytes s
  | .hostRead bar off size => Sys2Proof.Machine.execHostRead bar off size s
  | .wakeStore q ctx v => Sys2Proof.Machine.execWakeStore q ctx v s
  | .gangPlace g pl => Sys2Proof.Machine.execGangPlace g pl s
  | .gangRestore g pl => Sys2Proof.Machine.execGangRestore g pl s
  | .castling g pl => Sys2Proof.Machine.execCastling g pl s
  | .pageoutComplete q ok => Sys2Proof.Machine.execPageoutComplete q ok s
  | .pageinComplete q ok => Sys2Proof.Machine.execPageinComplete q ok s
  | .engineStop ctx e => Sys2Proof.Machine.execEngineStop ctx e s
  | .eccUncorrectable ctx addr => Sys2Proof.Machine.execEccUncorrectable ctx addr s
  | .sensorSample die sensor reading => Sys2Proof.Machine.execSensorSample die sensor reading s
  | .hardTrip die sensor => Sys2Proof.Machine.execHardTrip die sensor s
  | .lrailOff c mv => Sys2Proof.Machine.execLrailOff c mv s
  | .lrailMv c mv => Sys2Proof.Machine.execLrailMv c mv s
  | .portTrainingDone p lanes peer => Sys2Proof.Machine.execPortTrainingDone p lanes peer s
  | .tickSync t => Sys2Proof.Machine.execTickSync t s
  | .stopctlArm v => Sys2Proof.Machine.execStopctlArm v s
  | .gateAdmit ctx strm => Sys2Proof.Machine.execGateAdmit ctx strm s
  | .replayIssuerTimeout ctx strm => Sys2Proof.Machine.execReplayIssuerTimeout ctx strm s
  | .chunkCloseTimeout ctx strm => Sys2Proof.Machine.execChunkCloseTimeout ctx strm s
  | .stewardBringup ok => Sys2Proof.Machine.execStewardBringup ok s
  | .registerWrite r v => Sys2Proof.Machine.execRegisterWrite r v s
  | .apauxRequest src x => Sys2Proof.Machine.execApauxRequest src x s
  | .illegalWordIssue w => Sys2Proof.Machine.execIllegalWordIssue w s
  | .producerDataArrival => Sys2Proof.Machine.execProducerDataArrival s
  | .unseat => Sys2Proof.Machine.execUnseat s
  | .forcedUnseat => Sys2Proof.Machine.execForcedUnseat s
  | .parklimitExpiry => Sys2Proof.Machine.execParklimitExpiry s
  | .courierLine => Sys2Proof.Machine.execCourierLine s
  | .carriedArrival => Sys2Proof.Machine.execCarriedArrival s
  | .porterServe => Sys2Proof.Machine.execPorterServe s
  | .matrixComplete => Sys2Proof.Machine.execMatrixComplete s
  | .acrdDelivery => Sys2Proof.Machine.execAcrdDelivery s
  | .sysStageAck => Sys2Proof.Machine.execSysStageAck s
  | .sysApplyAck => Sys2Proof.Machine.execSysApplyAck s
  | .innkeeperSweepGroup => Sys2Proof.Machine.execInnkeeperSweepGroup s
  | .queryallPacket => Sys2Proof.Machine.execQueryallPacket s
  | .signal => Sys2Proof.Machine.execSignal s
  | .waitval => Sys2Proof.Machine.execWaitval s
  | .waitvalRecheck => Sys2Proof.Machine.execWaitvalRecheck s
  | .launchPacket => Sys2Proof.Machine.execLaunchPacket s
  | .nopPacket => Sys2Proof.Machine.execNopPacket s
  | .waveSave => Sys2Proof.Machine.execWaveSave s
  | .blockSave => Sys2Proof.Machine.execBlockSave s
  | .gangSaveComplete => Sys2Proof.Machine.execGangSaveComplete s
  | .evictionWithdraw => Sys2Proof.Machine.execEvictionWithdraw s
  | .kernelComplete => Sys2Proof.Machine.execKernelComplete s
  | .xbarDieArrival => Sys2Proof.Machine.execXbarDieArrival s
  | .xbarIodieComplete => Sys2Proof.Machine.execXbarIodieComplete s
  | .barrierTreeRelease => Sys2Proof.Machine.execBarrierTreeRelease s
  | .faultRingCopy => Sys2Proof.Machine.execFaultRingCopy s
  | .faultRingPoll => Sys2Proof.Machine.execFaultRingPoll s
  | .qidleExpiry => Sys2Proof.Machine.execQidleExpiry s
  | .qpageageExpiry => Sys2Proof.Machine.execQpageageExpiry s
  | .roomGrant => Sys2Proof.Machine.execRoomGrant s
  | .drainComplete => Sys2Proof.Machine.execDrainComplete s
  | .unmapComplete => Sys2Proof.Machine.execUnmapComplete s
  | .keySlotFault => Sys2Proof.Machine.execKeySlotFault s
  | .emergencyRailRemoval => Sys2Proof.Machine.execEmergencyRailRemoval s
  | .railsRestore => Sys2Proof.Machine.execRailsRestore s
  | .railTargetPass => Sys2Proof.Machine.execRailTargetPass s
  | .clqreqSet => Sys2Proof.Machine.execClqreqSet s
  | .clqreqClear => Sys2Proof.Machine.execClqreqClear s
  | .quiesceComplete => Sys2Proof.Machine.execQuiesceComplete s
  | .retsaveGo => Sys2Proof.Machine.execRetsaveGo s
  | .retsaveComplete => Sys2Proof.Machine.execRetsaveComplete s
  | .clkgateSet => Sys2Proof.Machine.execClkgateSet s
  | .clkgateClear => Sys2Proof.Machine.execClkgateClear s
  | .railOffReached => Sys2Proof.Machine.execRailOffReached s
  | .clwakeWake => Sys2Proof.Machine.execClwakeWake s
  | .railSettled => Sys2Proof.Machine.execRailSettled s
  | .retloadComplete => Sys2Proof.Machine.execRetloadComplete s
  | .porten => Sys2Proof.Machine.execPorten s
  | .portfence => Sys2Proof.Machine.execPortfence s
  | .portTrainingTimeout => Sys2Proof.Machine.execPortTrainingTimeout s
  | .portLaneFail => Sys2Proof.Machine.execPortLaneFail s
  | .portIdleTimeout => Sys2Proof.Machine.execPortIdleTimeout s
  | .portReplayLimit => Sys2Proof.Machine.execPortReplayLimit s
  | .flitCrcError => Sys2Proof.Machine.execFlitCrcError s
  | .linkwaitExpiry => Sys2Proof.Machine.execLinkwaitExpiry s
  | .stopTickReached => Sys2Proof.Machine.execStopTickReached s
  | .stopctlResume => Sys2Proof.Machine.execStopctlResume s
  | .cntsnap => Sys2Proof.Machine.execCntsnap s
  | .cntclr => Sys2Proof.Machine.execCntclr s
  | .moduleReset => Sys2Proof.Machine.execModuleReset s
  | .innkeeperVerify => Sys2Proof.Machine.execInnkeeperVerify s
  | .computeRailRaise => Sys2Proof.Machine.execComputeRailRaise s
  | .mgmtReady => Sys2Proof.Machine.execMgmtReady s
  | .status => Sys2Proof.Machine.execStatus s
  | .flashwrite => Sys2Proof.Machine.execFlashwrite s
  | .attest => Sys2Proof.Machine.execAttest s
  | .ctxcreate => Sys2Proof.Machine.execCtxcreate s
  | .ctxreset => Sys2Proof.Machine.execCtxreset s
  | .ctxdestroy => Sys2Proof.Machine.execCtxdestroy s
  | .ctxhalt => Sys2Proof.Machine.execCtxhalt s
  | .ctxrelease => Sys2Proof.Machine.execCtxrelease s
  | .ctxresume => Sys2Proof.Machine.execCtxresume s
  | .stopread => Sys2Proof.Machine.execStopread s
  | .evread => Sys2Proof.Machine.execEvread s
  | .partassign => Sys2Proof.Machine.execPartassign s
  | .partadd => Sys2Proof.Machine.execPartadd s
  | .partremove => Sys2Proof.Machine.execPartremove s
  | .partrelease => Sys2Proof.Machine.execPartrelease s
  | .setroot => Sys2Proof.Machine.execSetroot s
  | .inval => Sys2Proof.Machine.execInval s
  | .replay => Sys2Proof.Machine.execReplay s
  | .deny => Sys2Proof.Machine.execDeny s
  | .traceset => Sys2Proof.Machine.execTraceset s
  | .recset => Sys2Proof.Machine.execRecset s
  | .createq => Sys2Proof.Machine.execCreateq s
  | .mapq => Sys2Proof.Machine.execMapq s
  | .unmapq => Sys2Proof.Machine.execUnmapq s
  | .drainq => Sys2Proof.Machine.execDrainq s
  | .resetq => Sys2Proof.Machine.execResetq s
  | .destroyq => Sys2Proof.Machine.execDestroyq s
  | .queryallCmd => Sys2Proof.Machine.execQueryallCmd s
  | .clgate => Sys2Proof.Machine.execClgate s
  | .clungate => Sys2Proof.Machine.execClungate s
  | .benchClock => Sys2Proof.Machine.execBenchClock s
  | .railSlew => Sys2Proof.Machine.execRailSlew s
  | .linkstRead => Sys2Proof.Machine.execLinkstRead s
  | .unknownOpcodeCommand => Sys2Proof.Machine.execUnknownOpcodeCommand s

end Sys2Proof.Machine
end

