-- ==== Sys2Proof/Machine/Turns.lean ====
section
/-! DEFINITION. The turns of the agenda: the issue of a word by a slot or a sequencer (R51, R57, R59, R164, R278), an
inspector's step and release (R312 to R314), the passing of ticks, and the round of turns that an empty agenda takes
(log 5). -/

namespace Sys2Proof.Machine

/-- Goes on with a next state. -/
def onNext (o : Out) (f : State → State) : Out :=
  match o with
  | .next s => .next (f s)
  | .fault r => .fault r
  | .refused r => .refused r

/-! ### The issue of a word -/

/-- Issues the word at a slot's PC in some lanes. A T-class fault that waits for this attempt is taken instead (R57,
R280), but for a word that has begun to enter an order; it is the fault of the slot whose word it was (R296). -/
def runWord (s : State) (w sl : Nat) (v : Wave) (lanes : Mask) (stepping : Bool) : Out :=
  let x := v.slot sl
  let m := x.mask &&& lanes
  match (if x.entry.isSome then [] else v.late) with
  | t :: rest =>
    .next (takeTrap (s.putWave w { v with late := rest }) w ⟨t.code, t.isSeq, t.late, t.slot.getD sl, t.info, t.fpc, (v.slot (t.slot.getD sl)).pc, t.lanes, t.ea, [], t.exec⟩)
  | [] =>
    let va := codeVa s v.grid x.pc
    match fetch s v.ctx va x.denied with
    | .word b => match issueWord (envOf s v.ctx v.grid false) b with
      | .ok i => exec i { s with cur := .wave w sl lanes stepping }
      | .error e => .next (takeT s w sl (decCode e) m 0 0)
    | .xlate => .next (takeT s w sl 0x0C m va 0)
    | .miss => .next (parkSlot s w sl 3 false [(lowLane m, va)])
    | .bad pa => .next (haltCtx s v.ctx 0x22 pa (some (.wave w)))
    | .lost k => .next (linkLost s v.ctx k (some (.wave w)))
    | .wait => .next (stallSlot s w sl)

/-- The grid of a wave is ENDING: its waves issue nothing further (R328). -/
def gridEnds (s : State) (gr : Nat) : Bool := match s.grid? gr with | some r => r.st = .ending | none => false

/-- A live slot of a wave that runs, on a clock that runs. -/
def mayTry (s : State) (w sl : Nat) : Option Wave :=
  match s.wave? w with
  | some v => if slotRuns s w sl v && (v.slot sl).live && clockRuns s (clusterOf v.place) then some v else none
  | none => none

/-- A slot that may issue now: its wave runs, and nothing holds it. -/
def canIssue (s : State) (w sl : Nat) : Option Wave :=
  match mayTry s w sl with
  | some v => if (v.slot sl).hold = .none && !gridEnds s v.grid then some v else none
  | none => none

/-- The slot has not issued its word: it waits at the same PC. -/
def wordWaits (s : State) (w sl : Nat) (pc : Word) : Bool :=
  match s.wave? w with
  | some v =>
    let x := v.slot sl
    x.live && x.pc = pc && (x.stalled || (match x.hold with | .parked => true | .sysCommit _ => true | _ => false))
  | none => false

/-- After a turn of a slot: nothing issues, the charge of the word is recorded (R430), and a parking that has ended ends
(R385). -/
def settleWave (w sl : Nat) (v : Wave) (charge : Nat) (s : State) : State :=
  let s1 := { s with cur := .none }
  let s2 := if wordWaits s1 w sl (v.slot sl).pc then s1 else addCharge s1 (clusterOf v.place) charge
  if v.parkTime.isNone then s2 else
  endPark (if (v.slot sl).again then s2.modWave w fun u => u.modSlot sl fun x => { x with again := false } else s2) w

/-- A slot whose word after a seam has stalled counts as waiting at that seam still (R192): `v` is its wave there. -/
def backToSeam (w sl : Nat) (v : Wave) (s : State) : State :=
  s.modWave w fun u =>
    let x := u.slot sl
    if x.live && x.stalled && x.hold = .none && x.pc = (v.slot sl).pc + 16 then
      { u with st := v.st }.modSlot sl fun x => { x with hold := .seam .ready, pc := (v.slot sl).pc }
    else u

/-- A wave of an ENDING grid issues nothing; that its word would fault in the same tick the grid's status notes, where its
issuer index is the lower (R328). -/
def faultOnly (s : State) (gr : Nat) (s1 : State) : State :=
  match s1.grid? gr with
  | some r => s.modGrid gr fun x => { x with fcode := r.fcode, issuer := r.issuer }
  | none => s

/-- A turn of a slot: the word at its PC issues in the lanes that have not executed it (R312). -/
def runWave (s : State) (w sl : Nat) : Out :=
  let lanes : Mask := ~~~((s.wave? w).map fun v => (v.slot sl).stepped).getD 0
  match canIssue s w sl, mayTry s w sl with
  | some v, _ => onNext (runWord s w sl v lanes false) (settleWave w sl v (slotCharge s v sl))
  | none, some v =>
    let u := v.ripe sl
    if (u.slot sl).hold ≠ .none then .next s
    else if gridEnds s v.grid then onNext (runWord (s.putWave w u) w sl u lanes false) (faultOnly s v.grid)
    else onNext (runWord (s.putWave w u) w sl u lanes false) fun s1 =>
      backToSeam w sl v (settleWave w sl u (slotCharge s v sl) s1)
  | none, none => .next s

/-- A sequencer that may issue. -/
def seqRuns (s : State) (b : Block) : Bool :=
  b.st = .resident && b.seq.st = .run && !b.seq.parked && !b.seq.halted && ctxLive s b.ctx && clockRuns s (16 * b.die + b.cl)

/-- A sequencer's fetch misses (R383): it waits for the record's answer, with a FAULT trace record (R405). -/
def parkSeq (s : State) (bk : Nat) (b : Block) (va : Nat) : State :=
  let place := placeId ⟨b.die, b.cl, b.core, 0, 0⟩
  addMiss (trace (s.modBlock bk fun b => { b with seq := { b.seq with parked := true } }) b.ctx 4 0x30 place 0 b.seq.pc va) b.ctx va 3
    place 0 false (.seq bk)

/-- After a sequencer's turn: MLD and MST carry their charge once they have issued (R430). -/
def settleSeq (bk : Nat) (b : Block) (i : Instr) (s : State) : State :=
  let s1 := { s with cur := .none }
  let went : Bool := match s1.block? bk with | some y => y.seq.pc ≠ b.seq.pc | none => false
  match i with
  | .mld _ => if went = true then addCharge s1 (16 * b.die + b.cl) 64 else s1
  | .mst _ => if went = true then addCharge s1 (16 * b.die + b.cl) 64 else s1
  | _ => s1

/-- A turn of a block's sequencer. -/
def runSeq (s : State) (bk : Nat) : Out :=
  match s.block? bk with
  | none => .next s
  | some b =>
    if !seqRuns s b then .next s else
    let va := codeVa s b.grid b.seq.pc
    match fetch s b.ctx va [] with
    | .word w => match issueWord (envOf s b.ctx b.grid true) w with
      | .ok i => onNext (exec i { s with cur := .seq bk }) (settleSeq bk b i)
      | .error e => .next (seqFault s bk (decCode e) 0)
    | .xlate => .next (seqFault s bk 0x0C va)
    | .miss => .next (parkSeq s bk b va)
    | .bad pa => .next (haltCtx s b.ctx 0x22 pa (some (.sequencer bk)))
    | .lost k => .next (linkLost s b.ctx k (some (.sequencer bk)))
    | .wait => .next s

/-! ### An inspector's step (R312, R313) -/

/-- A word that a lane step refuses as COLLECTIVE (R313). -/
def stepCollective (o : Op) (x : Body) : Bool :=
  match o with
  | .voteAny | .voteAll | .voteBal | .voteEq | .prisel | .movw | .xlXor | .xlUp | .xlDown | .xlIdx | .qxH | .qxV | .qxD
  | .rstep | .red | .scan | .lda | .aadd | .amov | .hrd | .hwr | .hstep | .hrun | .hstat | .dbmw | .dbmr
  | .bra | .brd | .join | .call | .ret | .jmpx | .exit | .seam | .barw | .bars | .wcnt | .gbar | .xbar | .cpyw
  | .commitBlk | .commitGang | .commitDev | .commitSys | .commitChkBlk | .commitChkGangDev | .commitChkSys
  | .abortWave | .abortBlk | .abortGang | .fence | .dphaseOpen | .dphaseClose | .cpy | .cpyq | .bara | .vscl
  | .bscale | .obst | .acrd | .trap | .rtt | .halt | .sleept => true
  | .srd => !laneReg x.aux.gReg
  | _ => false

/-- The code of the fault that has ended a grid. -/
def endedBy (a b : Option Grid) : Option Nat :=
  match a, b with
  | some (x : Grid), some y => if x.st ≠ .ending && y.st = .ending then some y.fcode else none
  | _, _ => none

/-- The code of a further H-class fault of a context. -/
def haltedBy (a b : Option Ctx) : Option Nat :=
  match a, b with
  | some (x : Ctx), some y => if x.faults.length < y.faults.length then y.faults.getLast? else none
  | _, _ => none

/-- The code of the page fault at which a slot is parked. -/
def parkedBy (s : State) (w sl : Nat) : Nat :=
  match (s.fbuf ++ s.fmiss).find? fun r => !r.answered && r.holders.any fun h => match h with
      | .slot k n => k = w && n = sl
      | .carry k n => k = w && n = sl
      | _ => false with
  | some r => if r.write then 0x31 else 0x30
  | none => 0x30

/-- The code of a fault that a stepped word has taken: that of the frame of a handler that it has entered, of its grid's end,
of a halt of its context, or of the page at which it is parked (R312). -/
def stepFault (s0 s : State) (w sl : Nat) : Option Nat :=
  match s0.wave? w, s.wave? w with
  | some (a : Wave), some b =>
    if !a.inHandler && b.inHandler then some (frameNat b.frame 0 1)
    else match endedBy (s0.grid? a.grid) (s.grid? a.grid), haltedBy (s0.ctx? a.ctx) (s.ctx? a.ctx) with
      | some k, _ => some k
      | none, some k => some k
      | none, none => if (b.slot sl).hold = .parked && (a.slot sl).hold ≠ .parked then some (parkedBy s w sl) else none
  | _, _ => none

/-- A slot's word waits for a source (R51 step 3), at which a step ends (R312). -/
def starves (s : State) (w sl : Nat) : Bool :=
  match s.wave? w with | some v => (v.slot sl).stalled && (v.slot sl).starved | none => false

/-- After a stepped word: a fault, a word that waits for a source, one that waits for its entry or for its commit, or at a seam,
for which the inspector waits on, or DONE (R312). A word that has issued carries its charge (R430). -/
def settleStep (s0 : State) (w sl insp isl : Nat) (v : Wave) (charge : Nat) (s : State) : State :=
  let s1 := { s with cur := .none }
  match stepFault s0 s1 w sl with
  | some code => finishInspect (steppedHalt s1 w sl) insp isl (8 + 256 * code)
  | none =>
    if wordWaits s1 w sl (v.slot sl).pc then
      (if starves s1 w sl then finishInspect (unstall s1 w) insp isl 7 else unstall s1 w)
    else
      let s2 := addCharge (steppedHalt s1 w sl) (clusterOf v.place) charge
      match (s2.wave? w).map fun y => (y.slot sl).hold with
      | some (Hold.seam c) => if c = .ready then finishInspect s2 insp isl 0 else s2
      | _ => finishInspect s2 insp isl 0

/-- The lanes of a step: one, or those that are not STEPPED. -/
def stepLanes (v : Wave) (sl : Nat) (lane : Option Nat) : Mask :=
  match lane with
  | some l => laneBit l
  | none => ~~~(v.slot sl).stepped

/-- An inspector still waits for its instruction's effect, in a slot numbered as in `holdAt`. -/
def inspects (s : State) (insp k : Nat) : Bool :=
  match (s.wave? insp).map fun v => v.holdAt k with
  | some (Hold.inspect _ _ _ _ _ _) => true
  | _ => false

/-- The turn of an HSTEP at its target. A wave of an ENDING grid issues nothing (R328), and a commit that has begun goes on of
itself: the inspector waits. -/
def runStep (s : State) (w sl : Nat) (lane : Option Nat) (insp isl : Nat) : Out :=
  if !inspects s insp isl then .next s else
  match s.wave? w with
  | none => .next (finishInspect s insp isl 3)
  | some v =>
    if !v.alive || v.st = .saved then .next (finishInspect s insp isl 3)
    else if !isHalted s v then .next (finishInspect s insp isl 2)
    else if gridEnds s v.grid then .next s
    else
      let u := v.ripe sl
      match (u.slot sl).hold with
      | .seam _ => .next (seamGoesOn s w sl)
      | .sysCommit _ => .next s
      | .none =>
        let o := slotWord s u sl
        let lanes := stepLanes u sl lane
        if u.late = [] && lane.isSome && (match o with | some y => stepCollective y.1 y.2 | none => false) then .next (finishInspect s insp isl 1)
        else onNext (runWord (s.putWave w u) w sl u lanes true)
          fun s1 => backToSeam w sl v (settleStep s w sl insp isl u (wordCharge s u sl lanes) s1)
      | _ => .next (finishInspect s insp isl 7)

/-! ### HRUN (R314) -/

/-- After the word of a slot that HRUN has completed; one that has issued carries its charge (R430). -/
def settleRun (w sl : Nat) (v : Wave) (charge : Nat) (k : Turn) (s : State) : State :=
  let s1 := { s with cur := .none }
  let s2 := if wordWaits s1 w sl (v.slot sl).pc then s1 else addCharge s1 (clusterOf v.place) charge
  (unstall s2 w).push [k]

/-- The turn of an HRUN: it executes the words that lane steps have begun, one a turn, and then releases. A word that
cannot issue now is executed by its own slot once it goes on. -/
def runRelease (s : State) (pend : List Nat) (c : Nat) (w : Option Nat) (scope insp isl : Nat) : Out :=
  if !inspects s insp isl then .next s else
  match pend with
  | k :: t =>
    let next : Turn := .hrun t c w scope insp isl
    (match s.wave? (k / 2) with
    | none => .next (s.push [next])
    | some v =>
      let x := v.slot (k % 2)
      if v.alive && isHalted s v && x.live && x.hold = .none && x.stepped ≠ 0 && !gridEnds s v.grid then
        onNext (runWord s (k / 2) (k % 2) v (~~~x.stepped) true) (settleRun (k / 2) (k % 2) v (wordCharge s v (k % 2) (~~~x.stepped)) next)
      else .next (s.push [next]))
  | [] =>
    let r := hrunRelease s c w scope
    let s1 := if !ctxLive s c && ctxLive r.1 c then goneLive r.1 c else r.1
    .next (finishInspect s1 insp isl r.2)

/-! ### A round of the module -/

/-- What still happens while the module is stopped (R402): the register path, module reset, the peers of its ports, and the analog
trip, which no clock drives (R428). -/
def whileStopped : Instr → Bool
  | .stopctlArm _ => true
  | .stopctlResume => true
  | .cntsnap => true
  | .cntclr => true
  | .registerWrite _ _ => true
  | .linkstRead => true
  | .moduleReset => true
  | .portIdleTimeout => true
  | .hardTrip _ _ => true
  | .hostPostedWrite bar _ _ => bar = 0
  | .hostRead bar _ _ => bar = 0
  | _ => false

/-- A state with what a word that only stalls may change put back: the flags of its wave's slots, the gates at which it has
registered (R415), the free values drawn. -/
def stallFree (s : State) (w : Nat) (v : Wave) (s1 : State) : State :=
  { s1 with cur := s.cur, ctxs := s.ctxs, free := s.free, waves := kput s1.waves w v }

/-- Tries the word at a slot's PC: where it only stalls, its flags say so from now on; else the slot is ready. -/
def trySlot (s : State) (w sl : Nat) : State :=
  match s.wave? w, runWave s w sl with
  | some v, .next s1 => match s1.wave? w with
    | some u =>
      let y := u.slot sl
      if (mayTry s w sl).isNone || !((v.ripe sl).slot sl).hold = .none then s
      else if y.live && y.stalled && stallFree s w v s1 = s then
        { s with ctxs := s1.ctxs, waves := kput s.waves w (v.modSlot sl fun x =>
            { x with stalled := true, starved := y.starved, capped := y.capped, entry := y.entry, again := y.again }) }
      else s.putWave w (v.modSlot sl fun x => { x with stalled := false, starved := false, capped := false })
    | none => s
  | _, _ => s

/-- Tries both slots of a wave. -/
def tryWave (s : State) (w : Nat) : State := trySlot (trySlot s w 0) w 1

/-- A FORCED wave is READY once what it stalled on can proceed (R55, R330): a slot's word, tried as if the wave held a seat,
would issue, and no page holds an access of the wave. Its context runs, its cluster's clock too, and no halt stops it. -/
def forcedReady (s : State) (w : Nat) (v : Wave) : Wave :=
  if v.st ≠ .forced || wavePages s w || !ctxLive s v.ctx || isHalted s v || !clockRuns s (clusterOf v.place) then v else
  match (tryWave (s.putWave w { v with st := .seated, seat := some 0 }) w).wave? w with
  | some u => if u.slot0.ready || u.slot1.ready then { v with st := .ready } else v
  | none => v

/-- A free seat of a bench. -/
def freeSeat (s : State) (b : Nat) : Option Nat :=
  (List.range (benchSeats b)).find? fun k => !((benchWaves s b).any fun x => x.2.seat = some k)

/-- The turns of one wave: an eviction saves it before its waits end (R336). -/
def waveTurns (s : State) (w : Nat) (v : Wave) : List Turn :=
  (if evicting s v.gang then [Turn.event w .waveSave] else []) ++
  ([0, 1].flatMap fun sl => match (v.slot sl).hold with
    | .seam _ => [Turn.event 0 (.seamWaitEnd w sl), .event 0 (.hstepWaitTimeout w sl)]
    | .sleep _ => [.event 0 (.sleeptExpiry w sl)]
    | _ => []) ++
  (if v.seat.isSome then [.event w .forcedUnseat, .event w .parklimitExpiry] else [])

/-- The seat turns of one bench: an unseat or a grant where a wave waits for a seat. -/
def seatTurns (s : State) (b : Nat) : List Turn :=
  match refillPick s b, freeSeat s b with
  | some w, some k => [Turn.event 0 (.seatGrant w k)]
  | some _, none => [.event b .unseat]
  | none, _ => []

/-- The benches that lodge a wave. -/
def benchesOf (s : State) : List Nat := ((s.waves.filter fun y => y.2.alive).map fun y => benchOf y.2.place).eraseDups

/-- Puts a bench into a list by the issuer index of the wave that it chooses; one that chooses none comes last. -/
def benchInsert (key : Nat → Nat) (b : Nat) : List Nat → List Nat
  | [] => [b]
  | x :: t => if key b < key x then b :: x :: t else x :: benchInsert key b t

/-- The issuer index of lane 0 of the wave that a bench chooses. -/
def benchKey (s : State) (b : Nat) : Nat :=
  match benchChoice s (b / 32) (readyWaves s b) with
  | some x => (issuer s x.v 0).toNat
  | none => 2 ^ 32

/-- The clusters whose clock runs have run one clock more (R406). -/
def countClocks (s : State) : State :=
  { s with clocks := (List.range 64).foldl (fun m c => if clockRuns s c then kput m c (kgetD m c 0 + 1) else m) s.clocks }

/-- One clock of the benches, and of the matrix units (R430): the words of the seated waves are tried, the records stand as they are now (R431), and the
benches take their clocks by ascending issuer index of what they issue, which orders what enters a level or a hall in
this clock (R73, R94, R105, R348). -/
def clockTurn (s0 : State) : State :=
  let s := countClocks (matrixTick s0)
  let s1 := (kfind s.waves fun w v => slotRuns s w 0 v || slotRuns s w 1 v).foldl tryWave s
  let s2 := { s1 with clusters := kmap s1.clusters fun c k => { k with recAt := curRec s1 c } }
  s2.push (((benchesOf s2).foldl (fun l b => benchInsert (benchKey s2) b l) []).map fun b => Turn.event b .benchClock)

/-- The event of a posted or running command. -/
def cmdEvent (op : Nat) : Instr :=
  match op with
  | 0x01 => .status | 0x02 => .flashwrite | 0x03 => .attest | 0x10 => .ctxcreate | 0x11 => .ctxreset
  | 0x12 => .ctxdestroy | 0x13 => .ctxhalt | 0x14 => .ctxrelease | 0x15 => .ctxresume | 0x16 => .stopread
  | 0x17 => .evread | 0x18 => .partassign | 0x19 => .partadd | 0x1A => .partremove | 0x1B => .partrelease
  | 0x20 => .setroot | 0x21 => .inval | 0x22 => .replay | 0x23 => .deny | 0x30 => .traceset | 0x31 => .recset
  | 0x40 => .createq | 0x41 => .mapq | 0x42 => .unmapq | 0x43 => .drainq | 0x44 => .resetq | 0x45 => .destroyq
  | 0x46 => .queryallCmd | 0x50 => .clgate | 0x51 => .clungate | _ => .unknownOpcodeCommand

/-- The turns of one queue: an accepted packet runs on whatever its state, a WAITVAL and one that has left its room (R370, R371). -/
def queueTurns (q : Nat) (x : Queue) : List Turn :=
  (if x.busy.any (fun y => match y.2 with | .wait _ _ _ => true | .grid _ => false) then [Turn.event q .waitvalRecheck] else []) ++
  (match x.room, x.cur with | none, some (_, b) => [Turn.event q (pktEvent (pktType b))] | _, _ => []) ++
  (match x.st with
   | 1 => [.event q .qpageageExpiry]
   | 2 => [.event q .roomGrant]
   | 3 => [.event q .qidleExpiry]
   | 4 => [.event q .drainComplete]
   | 5 => [.event q .unmapComplete]
   | _ => [])

/-- The turns of a context: the gates of its log, and its engines while its halt line is raised (R360). -/
def ctxTurns (s : State) (c : Nat) (x : Ctx) : List Turn :=
  ((List.range x.rec_.streams.length).flatMap fun k =>
    [Turn.event 0 (.gateAdmit c k), .event 0 (.replayIssuerTimeout c k), .event 0 (.chunkCloseTimeout c k)]) ++
  (if !haltLine x then [] else
    ((kfind s.waves fun _ v => v.ctx = c && v.alive).map fun w => Turn.event 0 (.engineStop c (.wave w))) ++
    ((kfind s.blocks fun _ b => b.ctx = c).map fun b => Turn.event 0 (.engineStop c (.sequencer b))) ++
    (((s.copies.filter fun y => y.2.ctx = c).map fun y => courierOf y.2).eraseDups.map fun p => Turn.event 0 (.engineStop c (.courier p.1 p.2.1 p.2.2))) ++
    (((List.range 64).filter (porterWork s c)).map fun h => Turn.event 0 (.engineStop c (.porter (h / 16) (h % 16)))) ++
    (s.matrix.map fun y => Turn.event 0 (.engineStop c (.matrix y.1))) ++
    (((s.queues.filterMap fun y => if y.2.ctx = c then y.2.room else none).map fun r => r % 64).eraseDups.map fun l =>
      Turn.event 0 (.engineStop c (.lane l))))

/-- The turns of a cluster's power block. -/
def clusterTurns (s : State) (c : Nat) : List Turn :=
  let x := s.cluster c
  (if x.mvNow ≠ (if x.off then 0 else x.mv) then [Turn.event c .railSlew] else []) ++
  (if x.st = 1 then [.event c .quiesceComplete] else []) ++ (if x.saving then [.event c .retsaveComplete] else []) ++
  (if x.rlBusy then [.event c .retloadComplete] else []) ++ (if x.st = 6 then [.event c .railSettled] else [])

/-- The turns of the ports and of the paths that are lost. -/
def linkTurns (s : State) : List Turn :=
  ((List.range 16).flatMap fun p =>
    (if (port s p).st = 1 then [Turn.event p .portTrainingTimeout] else []) ++
    (if 1000 < (recentReplays s (port s p)).length then [.event p .portReplayLimit] else [])) ++
  (s.cfg.paths.filterMap fun y => if homeCut s y.1 && !s.unreach.contains y.1 then some (.event y.1 .linkwaitExpiry) else none)

/-- The turns of the sensors (R427): one that was read 1,000 ticks ago is read again. The reading is a free value, and so is
whether the sensor gives one; one that gives none reads invalid once its last reading is no longer current (log 47). -/
def sensorTurns (s : State) : List Turn :=
  if s.tick.toNat < 1000 then [] else
  (List.range 256).filterMap fun k =>
    let r := Config.freeValue (s.free + k)
    if kgetD s.mods.sampled k 0 + 1000 ≤ s.tick.toNat && r.getLsbD 16 then
      some (.event 0 (.sensorSample (k / 64) (k % 64) (r.extractLsb' 0 16))) else none

/-- The steps for which inspectors wait (R312), in their slots or their trap frames. -/
def stepTurns (s : State) : List Turn :=
  s.waves.flatMap fun y => [0, 1, 2, 3].filterMap fun k => match y.2.holdAt k with
    | .inspect w sl lane _ _ _ => some (.hstep w sl lane y.1 k)
    | _ => none

/-- The translation caches (R378): free values say which RESIDENT leaf a walk brings in, with its rights, and which entry goes
(log 49). -/
def cacheTick (s : State) : State :=
  let a := s.draw
  let b := a.2.draw
  let c := (a.1.extractLsb' 0 13).toNat
  let va := (a.1.extractLsb' 13 8).toNat * 2 ^ 64 + b.1.toNat
  let kept := b.2.tlb.eraseIdx (a.1.extractLsb' 21 43).toNat
  match walk b.2 c va with
  | .leaf pa lo true _ x w r => { b.2 with tlb := ⟨c, va / 2 ^ lo * 2 ^ lo, lo, pa - va % 2 ^ lo, r, w, x⟩ :: kept }
  | _ => { b.2 with tlb := kept }

/-- Everything that may happen next of itself: each event leaves a state in which it is not due unchanged. Of what enters a
block's order in one clock the waves come first, then the sequencer, then the couriers (R73). -/
def roundTurns (s : State) : List Turn :=
  (s.slots.flatMap fun y => if y.2.st = 1 || y.2.st = 2 then [Turn.event y.1 (cmdEvent y.2.opcode)] else []) ++
  (s.queues.flatMap fun y => queueTurns y.1 y.2) ++
  (((s.rooms.map fun y => y.1 / 64).eraseDups).map fun k => Turn.event k .innkeeperSweepGroup) ++
  (s.waves.flatMap fun y => if y.2.alive then waveTurns s y.1 y.2 else []) ++
  (s.prods.map fun y => match y.2.kind with
    | .acrd _ _ _ _ => Turn.event y.1 .acrdDelivery
    | _ => .event y.1 .producerDataArrival) ++
  (s.hall.map fun r => Turn.event r.id .porterServe) ++
  (s.matrix.flatMap fun y => if y.2 = [] then [] else [Turn.event y.1 .matrixComplete]) ++
  (s.sysCommits.flatMap fun y => if y.2.finished then [] else [Turn.event y.1 .sysStageAck, .event y.1 .sysApplyAck]) ++
  (s.gangs.flatMap fun y => match y.2.st with
    | .resident => [Turn.event y.1 .xbarDieArrival]
    | .evicting => (y.2.blocks.map fun b => Turn.event b .blockSave) ++ [.event y.1 .gangSaveComplete, .event y.1 .evictionWithdraw]
    | _ => []) ++
  (s.grids.flatMap fun y => [Turn.event y.1 .xbarIodieComplete, .event y.1 .kernelComplete]) ++
  (s.ctxs.flatMap fun y => ctxTurns s y.1 y.2) ++
  (if s.fbuf.any fun r => !r.copied then [Turn.event 0 .faultRingCopy, .event 0 .faultRingPoll] else []) ++
  (s.clusters.flatMap fun y => clusterTurns s y.1) ++ linkTurns s ++ sensorTurns s ++ stepTurns s ++ (if s.stage = 5 && passDue s then [Turn.event 0 .railTargetPass] else []) ++
  ((benchesOf s).flatMap fun b => seatTurns s b) ++ [.clock] ++
  (s.blocks.flatMap fun y => if y.2.seq.st = .run then [Turn.seq y.1] else []) ++
  (s.copies.flatMap fun y => [Turn.event y.1 .courierLine, .event y.1 .carriedArrival]) ++ [.elapse 1]

/-- A round: what waits at a staged byte tries again, and everything that is due takes its turn. A stopped module does nothing of itself (R402). -/
def round (s : State) : State :=
  if s.mods.stopped then s else
  let s1 := cacheTick { s with waves := kmap s.waves (forcedReady s), waiting := [] }
  { s1 with free := s1.free + (if s1.tick.toNat < 1000 then 0 else 256) }.push (s.waiting.map (Turn.event waited) ++ roundTurns s1)

/-- n ticks pass, one a turn. -/
def elapse (s : State) (n : Nat) : State :=
  match n with
  | 0 => s
  | 1 => tickEnd s
  | k + 2 => (tickEnd s).push [.elapse (k + 1)]

/-- A turn that waits until the module runs again. -/
def later (s : State) (t : Turn) : State := { s with agenda := s.agenda ++ [t] }

/-- Takes one turn. A stopped module (R402) issues nothing, and only what stays clocked acts. -/
def takeTurn (t : Turn) (s : State) : Out :=
  match t with
  | .wave w sl => runWave s w sl
  | .seq b => runSeq s b
  | .event u i => if s.mods.stopped && !whileStopped i then .next s else exec i { s with unit := u, cur := .none }
  | .hstep w sl lane insp isl => if s.mods.stopped then .next (later s t) else runStep s w sl lane insp isl
  | .hrun pend c w scope insp isl => if s.mods.stopped then .next (later s t) else runRelease s pend c w scope insp isl
  | .clock => if s.mods.stopped then .next (later s t) else .next (clockTurn s)
  | .elapse n => .next (elapse s n)

/-- One step of the machine: the first turn of the agenda, or a round. What a turn changes of what is SAVED reaches the
images. -/
def machineStep (s : State) : Out :=
  match s.agenda with
  | [] => .next (round s)
  | t :: rest => onNext (takeTurn t { s with agenda := rest }) (syncImages s)

/-! ### A word placed for the next step -/

/-- A context that runs, privileged, of the model's own placing (log 5). -/
def probeCtx : Ctx := { newCtx 0 0 with priv := true, privN := 16 }

/-- A kernel of the model's own placing: one block of one wave, at the widest allocations, its code at address 0. -/
def probeGrid : Grid where
  ctx := 0
  queue := none
  st := .placed
  desc := { hasTrap := false, hasMs := true, bmode := false, dstk := 255, scratch := 16384, obk := 32, tiles := 64, mbanks := 32,
            gx := 1, gy := 1, gz := 1, bx := 64, byy := 1, bz := 1, seed := 0, trapOff := 0, msOff := 0, entry := 0, code := 0 }
  nx := 1
  ny := 1
  nz := 1
  sync := false
  params := []
  cpl := 0
  pending := []
  gangs := [0]
  status := 0
  fcode := 0
  issuer := 0
  xbArr := []
  xbDies := []
  recNo := 0

/-- Its wave, in seat 0 of bench 0. -/
def probeWave : Wave := { newWave probeGrid 0 0 0 0 ⟨0, 0, 0, 0, 0⟩ 0 with st := .seated, seat := some 0 }

/-- The bytes of the instruction that a table word gives: 16 bytes, the bits at and above `nbits` zero. -/
def wordBytes (nbits w : Nat) : List Byte := leBytes 16 (w % 2 ^ min nbits 128)

/-- Places a word at the PC of a wave, or of a sequencer where its OP is a sequencer's, and gives that issuer the next
turn: a context, a grid, a gang, a block, its wave and its sequencer, the code's bytes and their translation, and rails
that are on (log 5). -/
def placeWord (s : State) (nbits w : Nat) : State :=
  let seq := seqWord (BitVec.ofNat 128 (w % 2 ^ min nbits 128))
  let pa := s.cfg.modid * 2 ^ 48
  let s1 := ((wordBytes nbits w).zipIdx).foldl (fun s y => rawWrite 0 s (pa + y.2) y.1) s
  { s1 with
    tlb := ⟨0, 0, 16, pa, false, false, true⟩ :: s1.tlb
    ctxs := kput s1.ctxs 0 probeCtx
    grids := kput s1.grids 0 probeGrid
    gangs := kput s1.gangs 0 { Gang.new 0 0 0 with st := .resident, blocks := [0] }
    blocks := kput s1.blocks 0 (newBlock probeGrid 0 0 0 0 0 (0, 0, 0, 0) [0])
    waves := kput s1.waves 0 probeWave
    mods := { s1.mods with railsOff := false }
    agenda := [if seq then .seq 0 else .wave 0 0] }

end Sys2Proof.Machine
end

