-- ==== Sys2Proof/Machine/Step.lean ====
section
/-! DEFINITION. One step of the machine, and the placing of a word for the next one. -/

namespace Sys2Proof.Machine

/-- One step: the first turn of the agenda, or a round where the agenda is empty (log 5). -/
def step (s : State) : Host.Outcome State Fault Refusal := machineStep s

/-- The state in which the next step fetches and runs the word `w` (bits at and above `nbits` zero). -/
def State.withFetchWord (s : State) (nbits w : Nat) : State := placeWord s nbits w

end Sys2Proof.Machine
end

