-- ==== Sys2Proof/Safety.lean ====
section
/-! DEFINITION. The terms in which the claims speak: a word that issues undisturbed, sources that can be read, the whole
change that a register word makes and the frame around it. -/

namespace Sys2Proof.Safety

open Sys2Proof.Machine

/-! ### A word that issues -/

/-- No armed watch unit of the wave's core is one of its context (R302, R396). -/
def Unwatched (s : State) (v : Wave) : Prop :=
  ∀ n, n < 16 → (watchUnit s (coreOf v.place) n).arm = false ∨ (watchUnit s (coreOf v.place) n).ctx ≠ v.ctx

/-- Slot `sl` of wave `w`, which is `v`, has the turn: it is live, and it issues in the lanes of its mask that have not
executed the word yet (R59, R312). No watch unit and no gang halt follows the wave. -/
structure Issues (s : State) (w sl : Nat) (v : Wave) : Prop where
  slot : sl < 2
  cur : s.cur = .wave w sl (~~~(v.slot sl).stepped) false
  wave : s.wave? w = some v
  alive : v.st ≠ .ended
  live : (v.slot sl).live = true
  quiet : Unwatched s v
  free : v.gangHalt = none

/-- The lanes that issue. -/
def lanesIn (v : Wave) (sl : Nat) : Mask := (v.slot sl).mask &&& ~~~(v.slot sl).stepped
/-- The executing lanes (R183). -/
def exIn (v : Wave) (sl : Nat) (x : Body) : Mask := lanesIn v sl &&& v.guard x.guard
/-- The executing lanes that are no helper lanes. -/
def realIn (v : Wave) (sl : Nat) (x : Body) : Mask := exIn v sl x &&& ~~~v.helper
/-- The issue of a word, as the operations of the model take it. -/
def issOf (o : Op) (x : Body) (w sl : Nat) (v : Wave) : Iss := ⟨w, sl, v, lanesIn v sl, exIn v sl x, false, o⟩

/-- Every entry that the checks of R51 look at is FULL in the lanes they look at. -/
def Readable (v : Wave) (l : List Need) : Prop :=
  ∀ k ∈ l, ∀ n, n < 64 → k.lanes.getLsbD n = true → ∀ j, j < k.n → (v.cell (k.ent + j) n).st = .full

/-- The sources of a word can be read in its executing lanes (R51). -/
def SourcesFull (o : Op) (x : Body) (v : Wave) (sl : Nat) : Prop := Readable v (needs o x (exIn v sl x))

/-! ### The change that a register word makes -/

/-- What a register word changes: the words for D by lane, the lanes in which D takes them, the predicates by number
and lane, the bases, the flags by lane, FPEN, the RNG counter and the TICKHI capture. -/
structure Change where
  ds : Nat → List Word
  lanes : Mask
  preds : Nat → Nat → Bool
  bases : Nat → Option VA
  flags : Nat → BitVec 6
  fpen : BitVec 6
  rng : DWord
  cap : DWord

/-- No change. -/
def Change.none (v : Wave) : Change where
  ds := fun _ => []
  lanes := 0
  preds := fun p l => (v.pred p).getLsbD l
  bases := fun i => v.bases.toList[i]?
  flags := fun l => v.flag l
  fpen := v.fpen
  rng := v.rng
  cap := v.tickCap

/-- D takes these words in the lanes of a mask. -/
def Change.words (v : Wave) (m : Mask) (f : Nat → List Word) : Change := { Change.none v with ds := f, lanes := m }

/-- A predicate also takes a value in each lane of a mask; a write to p7 is discarded (R22). -/
def Change.withPred (c : Change) (p : Fin 8) (m : Mask) (f : Nat → Bool) : Change :=
  { c with preds := fun q l => if q = p.val ∧ q < 7 ∧ m.getLsbD l = true then f l else c.preds q l }

/-- The lanes of a mask also set sticky flags (R151). -/
def Change.withFlags (c : Change) (m : Mask) (f : Nat → BitVec 6) : Change :=
  { c with flags := fun l => if m.getLsbD l = true then c.flags l ||| f l else c.flags l }

/-- An address base also takes a value. -/
def Change.withBase (c : Change) (i : Fin 8) (x : VA) : Change :=
  { c with bases := fun k => if k = i.val then some x else c.bases k }

/-- The word that D takes in entry `e` of lane `l`: once in W for any executing lane, in each lane of the change in H, N
and M (R161). -/
def dstWord (d : Option Opd) (m : Mask) (f : Nat → List Word) (e l : Nat) : Option Word :=
  match d with
  | some (.w i) => if m ≠ 0 ∧ 552 + i.val ≤ e then (f (lowLane m))[e - (552 + i.val)]? else none
  | some o => match opdEnt o with
    | some b => if m.getLsbD l = true ∧ b ≤ e then (f l)[e - b]? else none
    | none => none
  | none => none

/-- The entry `e` in lane `l` after D is written. -/
def dstCell (v : Wave) (d : Option Opd) (m : Mask) (f : Nat → List Word) (e l : Nat) : Cell :=
  match dstWord d m f e l with
  | some w => ⟨w, .full⟩
  | none => v.cell e l

/-- The source that KEEP names. -/
def keepSrc (x : Body) (k : KeepSel) : Option Opd := match k with | .a => x.a | .b => x.b | .c => x.c

/-- What KEEP copies: the source's bits, or the code in which a floating-point word reads a literal or special (R26, R219). -/
def keptWord (i : Instr) (s : State) (v : Wave) (x : Body) (k : KeepSel) (l : Nat) : Word :=
  match opOf i with
  | some (o, _) => keepVal s v o x k l
  | none => src s v (keepSrc x k) l

/-- The entry `e` in lane `l` after the word: KEEP's copy of its source in the executing lanes (R26), else D's word, else
as before. -/
def cellAfter (i : Instr) (s : State) (v : Wave) (x : Body) (ex : Mask) (c : Change) (e l : Nat) : Cell :=
  match x.keep with
  | some (k, t) =>
    if e = t.val ∧ ex.getLsbD l = true then ⟨keptWord i s v x k l, .full⟩ else dstCell v x.d c.lanes c.ds e l
  | none => dstCell v x.d c.lanes c.ds e l

/-- The scratchpad bytes that the word stores: D at level S takes the lowest executing lane's words once, unless only
helper lanes execute (R65, R161). -/
def storedS (v : Wave) (x : Body) (ex : Mask) (c : Change) : List (Nat × Byte) :=
  match x.d with
  | some (.s i) =>
    if c.lanes = 0 ∨ ex &&& ~~~v.helper = 0 then [] else sBytes ((c.ds (lowLane c.lanes)).zipIdx.map fun y => (4 * (i.val + y.2), y.1))
  | _ => []

/-- The slot after its word (R59). -/
def slotAfter (a : Slot) : Slot :=
  { a with
    pc := a.pc + 16, stepped := 0, stalled := false, starved := false, capped := false, clocks := 0, starveClocks := 0
    denied := [], entry := none }

/-- Nothing of the module but wave `w` has changed, which is now `v'`. -/
def OnlyWave (s t : State) (w : Nat) (v' : Wave) : Prop :=
  { t with waves := s.waves } = s ∧ t.wave? w = some v' ∧ ∀ u, u ≠ w → t.wave? u = s.wave? u

/-- The word `i` completes with exactly this change: the slot moves past it, D, KEEP, predicates, bases, flags and the
rest are as the change says, and nothing else of the module or the wave changes; the wave's store hash (R413) follows
what it stores at level S. -/
def Does (i : Instr) (x : Body) (s : State) (w sl : Nat) (v : Wave) (c : Change) : Prop :=
  ∃ t v', Machine.exec i s = .next t ∧ OnlyWave s t w v' ∧
    v'.slot sl = slotAfter (v.slot sl) ∧ v'.slot (1 - sl) = v.slot (1 - sl) ∧
    (∀ e l, l < 64 → v'.cell e l = cellAfter i s v x (exIn v sl x) c e l) ∧
    v'.bufS = putAll v.bufS (storedS v x (exIn v sl x) c) ∧
    (storedS v x (exIn v sl x) c = [] → v'.hash = v.hash) ∧
    (∀ p l, l < 64 → (v'.pred p).getLsbD l = c.preds p l) ∧
    (∀ i : Nat, v'.bases.toList[i]? = c.bases i) ∧ (∀ l, l < 64 → v'.flag l = c.flags l) ∧
    v'.fpen = c.fpen ∧ v'.rng = c.rng ∧ v'.tickCap = c.cap ∧
    { v' with
      ents := v.ents, preds := v.preds, bases := v.bases, flags := v.flags, fpen := v.fpen, rng := v.rng
      tickCap := v.tickCap, slot0 := v.slot0, slot1 := v.slot1, lastSlot := v.lastSlot, bufS := v.bufS, hash := v.hash } = v

/-- `n` words of D lie in its level (R142). -/
def DRoom (x : Body) (n : Nat) : Prop := match x.d with | some (.m i) => i.val + n ≤ 512 | _ => True

/-- No lane would set a flag that FPEN enables (R152). -/
def NoFpTrap (v : Wave) (m : Mask) (f : Nat → BitVec 6) : Prop := ∀ l, l < 64 → m.getLsbD l = true → f l &&& v.fpen = 0

/-- The other slot has begun to enter no order: it waits in no commit, and in no closing of a phase (R72, R93, R114, R267). -/
def OtherIdle (v : Wave) (sl : Nat) : Prop :=
  (v.slot (1 - sl)).live = true → (v.slot (1 - sl)).entry = none ∧ ∀ c, (v.slot (1 - sl)).hold ≠ .sysCommit c

/-- Nothing earlier of the wave holds its loads and stores back: its other slot enters no order, no acquiring atomic of it is
out, and every load that an acquire has ordered has read (R72, R75, R100, R103, R114). -/
structure MayAccess (s : State) (w sl : Nat) (v : Wave) : Prop where
  slot : OtherIdle v sl
  acquires : ∀ r ∈ s.hall, r.wave = w → r.acq = false
  fences : ∀ y ∈ s.prods, y.2.wave = w → y.2.fenced = true → ∀ items trk, y.2.kind = .load items trk →
    ∀ it ∈ items, it.data ≠ none ∨ it.dead = true

/-- The S-level destination has room for `n` words in the wave buffer, whatever they are, and nothing holds its store back;
D's entries lie in their level (R76, R142, R161). -/
def Room (s : State) (w sl : Nat) (v : Wave) (x : Body) (n : Nat) : Prop :=
  DRoom x n ∧ match x.d with
    | some (.s i) => MayAccess s w sl v ∧ bufLines (bufPut v true ((List.range (4 * n)).map fun k => (4 * i.val + k, 0))) ≤ 128
    | _ => True

/-! ### Shapes of register words -/

/-- Every register word `mk x` that meets `Q` completes with result words that meet `P`, written to D in every executing
lane, and no other change (R183). `n` is the number of words. -/
def LaneWord (mk : Body → Instr) (o : Op) (n : Body → Nat) (Q : Body → Prop)
    (P : State → Wave → Body → Mask → Nat → List Word → Prop) : Prop :=
  ∀ s w sl v x, Issues s w sl v → Q x → SourcesFull o x v sl → Room s w sl v x (n x) →
    ∃ f : Nat → List Word, (∀ l, l < 64 → P s v x (exIn v sl x) l (f l)) ∧
      Does (mk x) x s w sl v (Change.words v (exIn v sl x) f)

/-- A number as its words, least significant first. -/
def natOf (ws : List Word) : Nat := ws.foldr (fun w n => w.toNat + 2 ^ 32 * n) 0

/-- The words of a TYPE: two where it is 64 bits wide (R142). -/
def tyWords (x : Body) : Nat := if fmt64 x.ty then 2 else 1

/-- TYPE is one of class 001 (R205). -/
def IntTy (x : Body) : Prop := x.ty = .u32 ∨ x.ty = .i32 ∨ x.ty = .u64 ∨ x.ty = .i64

/-- The words of an exact integer under R205: with SAT the nearest value of TYPE's range, without it the low bits. -/
def IntResult (x : Body) (r : Int) (ws : List Word) : Prop :=
  ws.length = tyWords x ∧
  if satOf x.md then decodeI x.ty (natOf ws) = max (intRange x.ty).1 (min (intRange x.ty).2 r)
  else (natOf ws : Int) % 2 ^ fmtBits x.ty = r % 2 ^ fmtBits x.ty

/-- An integer word that computes `g` of its sources exactly. -/
def IntWord (mk : Body → Instr) (o : Op) (g : Int → Int → Int → Int) : Prop :=
  LaneWord mk o tyWords IntTy fun s v x _ l ws =>
    IntResult x (g (srcInt s v x.ty x.a l) (srcInt s v x.ty x.b l) (srcInt s v x.ty x.c l)) ws

/-- A word that computes each bit of its operand width from the same bits of A and B. -/
def BitWord (mk : Body → Instr) (o : Op) (g : Bool → Bool → Bool) : Prop :=
  LaneWord mk o tyWords IntTy fun s v x _ l ws => ws.length = tyWords x ∧
    ∀ k, k < fmtBits x.ty → (natOf ws).testBit k = g ((src64 s v x.a l).getLsbD k) ((src64 s v x.b l).getLsbD k)

/-- A word of 32-bit sources and one 32-bit result that meets `P` with A, B and C. -/
def Word32 (mk : Body → Instr) (o : Op) (P : Body → Word → Word → Word → Word → Prop) : Prop :=
  LaneWord mk o (fun _ => 1) (fun _ => True) fun s v x _ l ws =>
    ∃ r, ws = [r] ∧ P x (src s v x.a l) (src s v x.b l) (src s v x.c l) r

/-- Predicates that a word reads as data hold one value over the executing lanes where D is W or S (R161). -/
def UniformPreds (v : Wave) (x : Body) (ex : Mask) (ps : List Nat) : Prop :=
  uniformDst x = true → ∀ p ∈ ps, ∀ k l, k < 64 → l < 64 → ex.getLsbD k = true → ex.getLsbD l = true →
    (v.pred p).getLsbD k = (v.pred p).getLsbD l

/-- A cross-lane move (R210, R211): D takes A of the lane that `p` names from B and the lane, where that lane exists and is
executing, else the lane's own A. -/
def ExchangeWord (mk : Body → Instr) (o : Op) (p : Nat → Int → Int) : Prop :=
  LaneWord mk o (fun _ => 1) (fun _ => True) fun s v x ex l ws =>
    let k := p (src s v x.b l).toNat l
    (0 ≤ k ∧ k < 64 ∧ ex.getLsbD k.toNat = true → ws = [src s v x.a k.toNat]) ∧
    (¬ (0 ≤ k ∧ k < 64 ∧ ex.getLsbD k.toNat = true) → ws = [src s v x.a l])

/-- Every floating-point word `mk x` completes, where no lane would set a flag that FPEN enables, with the words and flags
that `val` gives each executing lane; the flags are set in lanes that are no helper lanes (R65, R151, R183). `draws` says
whether the wave's RNG counter moves on (R150). -/
def FpWord (mk : Body → Instr) (o : Op) (n : Body → Nat) (draws : Body → Bool)
    (val : State → Iss → Body → Nat → List Word × BitVec 6) : Prop :=
  ∀ s w sl v x, Issues s w sl v → SourcesFull o x v sl → Room s w sl v x (n x) →
    let i := issOf o x w sl v
    (∀ l, (val s i x l).1.length = n x) → NoFpTrap v (realIn v sl x) (fun l => (val s i x l).2) →
    Does (mk x) x s w sl v { (Change.words v (exIn v sl x) fun l => (val s i x l).1).withFlags (realIn v sl x) fun l => (val s i x l).2 with
      rng := if draws x then v.rng + 1 else v.rng }

/-- One F32 result and its flags as a value. -/
def one32 (r : Nat × BitVec 6) : List Word × BitVec 6 := ([BitVec.ofNat 32 r.1], r.2)

/-- A result rounded by the MOD field from the F32 codes of the sources in the lane and the exact operation on their
values: the first NaN made quiet, or the exact value rounded, with DN for a subnormal source (R149 to R153, R220). -/
def rounded (s : State) (i : Iss) (x : Body) (l : Nat) (codes : List Nat) (exact : Val) : Nat × BitVec 6 :=
  let r := finish (codes.map (decodeF .f32)) exact .f32 (rmOf x.md) (satOf x.md) (drawOf s i (rmOf x.md) l 0)
  (r.1, r.2 ||| dnOf .f32 codes)

/-- The F32 code of a source and its exact value. -/
def codeA (s : State) (i : Iss) (x : Body) (l : Nat) : Nat := srcF s i.v .f32 x.a l 0
def codeB (s : State) (i : Iss) (x : Body) (l : Nat) : Nat := srcF s i.v .f32 x.b l 0
def codeC (s : State) (i : Iss) (x : Body) (l : Nat) : Nat := srcF s i.v .f32 x.c l 0
def valA (s : State) (i : Iss) (x : Body) (l : Nat) : Val := decodeF .f32 (codeA s i x l)
def valB (s : State) (i : Iss) (x : Body) (l : Nat) : Val := decodeF .f32 (codeB s i x l)
def valC (s : State) (i : Iss) (x : Body) (l : Nat) : Val := decodeF .f32 (codeC s i x l)

/-- The word draws from the RNG stream: rounding mode RS (R150). -/
def drawsRs (x : Body) : Bool := decide (rmOf x.md = 4)

/-- The element results of a word: its words and the union of the elements' flags. -/
def packed (ws : List Word) (rs : List (Nat × BitVec 6)) : List Word × BitVec 6 := (ws, rs.foldl (fun a r => a ||| r.2) 0)

/-- Element j of a packed word of R228 from its sources' element codes and the exact operation. -/
def elemOf (s : State) (i : Iss) (x : Body) (l n j : Nat) (exact : List Val → Val) : Nat × BitVec 6 :=
  arith x.ty (rmOf x.md) (satOf x.md) (drawOf s i (rmOf x.md) l j) (codesOf s x i x.ty n l j) exact

/-! ### Words that move the PC, wait or trap -/

/-- The wave once its slot `sl` has gone on to a PC. -/
def jumped (v : Wave) (sl : Nat) (pc : Word) : Wave :=
  { v.setSlot sl { slotAfter (v.slot sl) with pc := pc } with lastSlot := sl }

/-- The wave once its slot `sl` has gone on past its word (R59). -/
def moved (v : Wave) (sl : Nat) : Wave := jumped v sl ((v.slot sl).pc + 16)

/-- The divergence stack's table `f` is `g` but for entry `n`, which is `e` as R62 lays it out: the mask, the PC and the join PC at
their offsets, every other byte of its 32 zero. -/
def TableTakes (g f : KMap Byte) (n : Nat) (e : StkEntry) : Prop :=
  let a := frameSize + 32 * n
  frameNat f a 8 = e.mask.toNat ∧ frameNat f (a + 8) 8 = 0 ∧ frameNat f (a + 16) 4 = e.pc.toNat ∧
  frameNat f (a + 20) 4 = e.join.toNat ∧ frameNat f (a + 24) 8 = 0 ∧ ∀ o, o < a ∨ a + 32 ≤ o → kgetD f o 0 = kgetD g o 0

/-- The word completes, and it changes wave `w` alone, to `v'`. -/
def WaveBecomes (i : Instr) (s : State) (w : Nat) (v' : Wave) : Prop :=
  ∃ t, Machine.exec i s = .next t ∧ OnlyWave s t w v'

/-- The context's trace ring takes no record of a kind (R403). -/
def Untraced (s : State) (c kind : Nat) : Prop := ∀ x, s.ctx? c = some x → x.trace.kinds.getLsbD (kind - 1) = false

/-- The context is neither recorded nor replayed (R409). -/
def Unrecorded (s : State) (c : Nat) : Prop := ∀ x, s.ctx? c = some x → x.rec_.mode = 0

/-- The trap frame at its offsets (R296): the fault, the slots, the bases, the predicates, the flags, the entries and
their states. -/
def FrameHolds (v : Wave) (T : TrapInfo) (f : KMap Byte) : Prop :=
  frameNat f 0 1 = T.code % 256 ∧ frameNat f 1 1 = (if T.seq then 1 else 0) + (if T.late then 2 else 0) ∧
  frameNat f 2 1 = T.fslot % 256 ∧ frameNat f 3 1 = v.stack.length % 256 ∧
  frameNat f 4 4 = T.info.toNat ∧ frameNat f 8 4 = T.fpc.toNat ∧
  (∀ k, k < 2 → frameNat f (0x10 + 4 * k) 4 = (if T.fslot = k then T.resume else (v.slot k).pc).toNat ∧
    frameNat f (0x18 + 8 * k) 8 = (v.slot k).mask.toNat ∧
    frameNat f (0x28 + k) 1 = (if (v.slot k).live then 1 else 0) + (if (v.slot k).hold = .join then 2 else 0)) ∧
  frameNat f 0x2A 1 = T.ea / 2 ^ 64 % 256 ∧ frameNat f 0x2C 4 = v.fpen.toNat ∧
  frameNat f 0x30 8 = T.lanes.toNat ∧ frameNat f 0x38 8 = T.ea % 2 ^ 64 ∧
  (∀ i : Fin 8, frameNat f (0x40 + 16 * i.val) 9 = (v.base i).toNat) ∧
  (∀ p, p < 7 → frameNat f (0xC0 + 8 * p) 8 = (v.pred p).toNat) ∧
  (∀ l, l < 64 → frameNat f (0x100 + 4 * l) 4 = (v.flag l).toNat ∧ frameNat f (0x200 + l) 1 = (kgetD T.fl l 0).toNat) ∧
  (∀ e l, e < 40 → l < 64 → frameNat f (0x400 + 256 * e + 4 * l) 4 = (v.cell e l).val.toNat ∧
    frameNat f (0x2C00 + 16 * e + l / 4) 1 / 4 ^ (l % 4) % 4 = (match (v.cell e l).st with | .full => 0 | .empty _ => 1 | .lost => 2))

/-- The wave after it enters its trap handler (R57, R295): slot 0 at TRAPOFF with every live lane, slot 1 free, A7 at the
frame, H and N LOST, the state in the frame; the table of its divergence stack, above the frame, and everything else of it
stand as they were. -/
def Entered (s : State) (v v' : Wave) (d : Desc) (T : TrapInfo) : Prop :=
  FrameHolds v T v'.frame ∧ (∀ a, frameSize ≤ a → kgetD v'.frame a 0 = kgetD v.frame a 0) ∧ v'.inHandler = true ∧ v'.slot0 = .at_ d.trapOff v.liveMask ∧ v'.slot1 = .free ∧
  (∀ e l, e < 40 → l < 64 → (v'.cell e l).st = .lost) ∧ (∀ e l, 40 ≤ e → v'.cell e l = v.cell e l) ∧
  v'.bases = v.bases.set 7 (BitVec.ofNat 72 (privAddr s v)) ∧
  { v' with
    ents := v.ents, frame := v.frame, frameAtt := v.frameAtt, frameHold0 := v.frameHold0, frameHold1 := v.frameHold1
    frameDenied0 := v.frameDenied0, frameDenied1 := v.frameDenied1, slot0 := v.slot0, slot1 := v.slot1, bases := v.bases, inHandler := v.inHandler } = v

/-- The issuer index that a grid's status names: of the lowest faulting lane, or of the wave's lowest live lane where the fault
names none or is a double fault (R295, R329; which lane stands for a double fault is the model's choice, log 68). -/
def faultIssuer (s : State) (v : Wave) (T : TrapInfo) : Word :=
  issuer s v (if v.inHandler = true ∨ T.lanes = 0 then lowLane v.liveMask else lowLane T.lanes)

/-- The word takes the fault or trap `T`: into the handler where the kernel has one and the wave is not in it; else the
grid ends with the fault's code (R57, R295). -/
def Traps (i : Instr) (s : State) (w : Nat) (v : Wave) (T : TrapInfo) : Prop :=
  Untraced s v.ctx 4 → ∀ d, descOf s v.grid = some d →
    (d.hasTrap = true ∧ v.inHandler = false → ∃ v', WaveBecomes i s w v' ∧ Entered s v v' d T) ∧
    (d.hasTrap = false ∨ v.inHandler = true → Machine.exec i s = .next (gridFault s v.grid T.code (faultIssuer s v T)))

/-- A fault of the word at the slot's PC: it resumes there (R296). -/
def wordTrap (v : Wave) (sl code : Nat) (lanes : Mask) (ea : Nat) (info : Word) : TrapInfo :=
  ⟨code, false, false, sl, info, (v.slot sl).pc, (v.slot sl).pc, lanes, ea, [], 0⟩

/-- The wave whose slot waits at a seam at its own PC: with every live slot at a seam it gives up its seat (R54, R330). -/
def waitsAt (s : State) (v : Wave) (sl : Nat) (c : WaitCond) : Wave :=
  let v1 : Wave := { v.setSlot sl { v.slot sl with
    hold := .seam c, stalled := false, starved := false, capped := false, clocks := 0, starveClocks := 0 } with lastSlot := sl }
  if v1.waiting then { v1 with st := if v1.st = .seated then .seatwait else v1.st, waitSince := s.tick.toNat } else v1

/-- The wave after a seam has lost its non-survivors: `v1` is `v` but for the H and N entries that the word does not name,
which are LOST in the lanes of the slot, a FULL one's value discarded (R48, R52, R192); that it then reads as zero bits is
the model's choice (log 1). -/
def SeamCells (v v1 : Wave) (x : Body) (sl : Nat) : Prop :=
  { v1 with ents := v.ents } = v ∧ ∀ e l, l < 64 → v1.cell e l =
    if e < 40 ∧ (v.slot sl).mask.getLsbD l = true ∧ (if e < 8 then x.aux.sSh.getLsbD e else x.aux.sSn.getLsbD (e - 8)) = false
    then ⟨if (v.cell e l).st = .full then 0 else (v.cell e l).val, .lost⟩ else v.cell e l

/-- A seam completes: the slot goes on where `go` holds, else it waits for `c`. -/
def SeamDone (i : Instr) (s : State) (w sl : Nat) (v : Wave) (x : Body) (go : Prop) (c : WaitCond) : Prop :=
  ∃ v1, SeamCells v v1 x sl ∧ (go → WaveBecomes i s w (moved v1 sl)) ∧ (¬ go → WaveBecomes i s w (waitsAt s v1 sl c))

/-- Lanes in which some checked entry meets a condition. -/
def NeedLane (v : Wave) (l : List Need) (p : Need → CellSt → Bool) (n : Nat) : Prop :=
  ∃ k ∈ l, k.lanes.getLsbD n = true ∧ ∃ j, j < k.n ∧ p k (v.cell (k.ent + j) n).st = true

/-- The checks of R51 on a word's sources: LOST in any checked lane is STRANDLOSS; else EMPTY under a caret is EMPTYTRAP;
else EMPTY stalls the slot at its word. The frame's lanes are those of that kind. -/
def ChecksNeeds (mk : Body → Instr) (nd : Nat → Nat → Wave → Body → List Need) : Prop :=
  ∀ s w sl v x, Issues s w sl v → let l := nd w sl v x
    (∀ m : Mask, m ≠ 0 → (∀ n, n < 64 → (m.getLsbD n = true ↔ NeedLane v l (fun _ c => c matches .lost) n)) →
      Traps (mk x) s w v (wordTrap v sl 0x05 m 0 0)) ∧
    ((∀ n, n < 64 → ¬ NeedLane v l (fun _ c => c matches .lost) n) →
      (∀ m : Mask, m ≠ 0 → (∀ n, n < 64 → (m.getLsbD n = true ↔ NeedLane v l (fun k c => k.caret && c matches .empty _) n)) →
        Traps (mk x) s w v (wordTrap v sl 0x06 m 0 0)) ∧
      ((∀ n, n < 64 → ¬ NeedLane v l (fun k c => k.caret && c matches .empty _) n) →
        (∃ n, n < 64 ∧ NeedLane v l (fun _ c => c matches .empty _) n) →
        WaveBecomes (mk x) s w (v.setSlot sl { v.slot sl with stalled := true, starved := true, capped := false })))

/-- The same of a word whose sources are its operands A, B and C. -/
def ChecksSources (mk : Body → Instr) (o : Op) : Prop := ChecksNeeds mk fun _ sl v x => needs o x (exIn v sl x)

/-! ### Entries into the device level -/

/-- The byte that a list of bytes in order leaves at an address. -/
def lastByte (l : List (Nat × Byte)) (a : Nat) : Option Byte := (l.reverse.find? fun y => y.1 = a).map Prod.snd

/-- The module's registers once a word of its memory has read with an uncorrectable error, which it does until it is written
(R377). -/
def eccNoted (s : State) (pa : Nat) : ModRegs :=
  if isDevice s pa = true ∧ pa / 8 ∉ s.mods.badEcc then { s.mods with badEcc := pa / 8 :: s.mods.badEcc } else s.mods

/-- The module's registers once bytes are written: their words of memory read without an uncorrectable error again (R377). -/
def healed (s : State) (bytes : List (Nat × Byte)) : ModRegs :=
  { s.mods with badEcc := s.mods.badEcc.filter fun k => !(bytes.any fun y => y.1 / 8 = k) }

/-- One entry into the device level of this module (R80, R95, R97): every byte of the list is written under a key slot's
key, or in plain where the key is 0, every other byte reads as before, a wave but `own` that tracks a written byte is
marked, and nothing else changes. -/
def DeviceTakes (s t : State) (key : Nat) (own : Option Nat) (bytes : List (Nat × Byte)) : Prop :=
  (∀ a, memGet t.mem a = (lastByte bytes a).getD (memGet s.mem a)) ∧
  (∀ a, kget t.memKey a = if (lastByte bytes a).isSome then (if key = 0 then none else some key) else kget s.memKey a) ∧
  (∀ w, t.wave? w = (s.wave? w).map fun v =>
    if some w ≠ own ∧ ∃ y ∈ v.trk.bytes, (lastByte bytes y.2).isSome = true then { v with trk := { v.trk with confDev := true } } else v) ∧
  t.mods = healed s bytes ∧ { t with mem := s.mem, memKey := s.memKey, waves := s.waves, mods := s.mods } = s

/-- Bytes from an address up. -/
def bytesFrom (pa : Nat) (l : List Byte) : List (Nat × Byte) := l.zipIdx.map fun y => (pa + y.2, y.1)

/-- No byte of a range is staged (R114), and every one is device memory of this module. -/
def PlainRange (s : State) (pa n : Nat) : Prop := ∀ i, i < n → isDevice s (pa + i) = true ∧ stagedByte s (pa + i) = false

/-- The number of one place more in a list of blocks or waves: a site's core with its waves' benches, slots and private
slots. -/
def SitePrivs (s : State) (c : Nat) (pl : Placement) : Prop := ∀ b ∈ pl.blocks, ∀ z ∈ b.waves, privOk s c z.2.2 = true

/-- A port of the module carries flits (R389). -/
def Linked (s : State) : Prop := ∃ p, p < 16 ∧ portUp s p = true

/-- No access of the agent of `i` waits for a staged byte (R114, R119, R120). -/
def NoneWaits (s : State) (i : Instr) : Prop := ∀ y ∈ s.waiting, agentOf y ≠ agentOf i

/-- The unit of storage in which offset i of a section lies is dirty: no restore has written it, or it is not as the latest one
left it (R340). -/
def UnitDirty (kept : Option (KMap Byte)) (unit : Nat) (f : Nat → Byte) (i : Nat) : Prop :=
  ∀ k, kept = some k → ∃ j, j < unit ∧ f (i / unit * unit + j) ≠ kgetD k (i / unit * unit + j) 0

/-- One entry into the device level writes a section of an image: what a save always writes, and of the rest the dirty units,
each byte as `f` has it (R340, R343). -/
def SectionSaved (s t : State) (key a n unit : Nat) (always : Nat → Prop) (kept : Option (KMap Byte)) (f : Nat → Byte) : Prop :=
  ∃ l, DeviceTakes s t key none l ∧ (∀ x, x < a ∨ a + n ≤ x → lastByte l x = none) ∧
    ∀ i, i < n → (always i ∨ UnitDirty kept unit f i → lastByte l (a + i) = some (f i)) ∧
      (¬ always i → ¬ UnitDirty kept unit f i → lastByte l (a + i) = none)

/-- In `t` the port of the path in use to each module is the one that `s` used, where it is UP or DEGRADED, else the first of the
module's paths that is (R391). -/
def RoutesFollow (s t : State) : Prop :=
  ∀ m l, kget s.cfg.paths m = some l →
    (∀ p, kget s.routes m = some p → portUp t p = true → kget t.routes m = some p) ∧
    ((∀ p, kget s.routes m = some p → portUp t p = false) → ∀ p, l.find? (portUp t) = some p → kget t.routes m = some p)

/-- A range of this module's device memory. -/
def DeviceRange (s : State) (a n : Nat) : Prop := ∀ i, i < n → isDevice s (a + i) = true

/-- The slot of a saved wave. -/
def savedSlot (x : Slot) : Slot :=
  { x with stalled := false, starved := false, capped := false, clocks := 0, starveClocks := 0 }

/-! ### Management commands (R449) -/

/-- Command slot `n`, which is `x`, holds a posted or running command of an opcode whose arguments are well formed, and the
module is ready for it. -/
structure Posted (s : State) (n : Nat) (x : CmdSlot) (op : Nat) : Prop where
  unit : s.unit = n
  slot : n < 64
  here : kget s.slots n = some x
  opcode : x.opcode = op
  state : x.st = 1 ∨ x.st = 2
  ready : s.stage = 5 ∧ s.recovery = false
  args : argsBad x = false

/-- The slot once its command is DONE with a RESULT, its returned data over the named bytes of ARG. -/
def doneSlot (s : State) (x : CmdSlot) (result : Nat) (out : List (Nat × List Byte)) : CmdSlot :=
  { x with
    st := 3, result, tick := s.tick, phase := 0
    arg := (out.flatMap fun y => bytesFrom y.1 y.2).foldl (fun m y => if y.2 = 0 then kdel m y.1 else kput m y.1 y.2) x.arg }

/-- The command is DONE with a RESULT and returned data, and the rest of the module is as in `t`. -/
def Answers (i : Instr) (s : State) (x : CmdSlot) (result : Nat) (out : List (Nat × List Byte)) (t : State) : Prop :=
  Machine.exec i s = .next { t with slots := kput s.slots s.unit (doneSlot s x result out) }

/-- The command goes on later: the slot is RUNNING, at a phase of its course. -/
def Waits (i : Instr) (s : State) (x : CmdSlot) (phase : Nat) (t : State) : Prop :=
  Machine.exec i s = .next { t with slots := kput s.slots s.unit { x with st := 2, phase } }

/-- The stop record of R361 as a number: tick, code, KIND, flags and detail. -/
def StopRecordIs (r tick code kind flags detail : Nat) : Prop :=
  r % 2 ^ 64 = tick ∧ r / 2 ^ 64 % 256 = code ∧ r / 2 ^ 72 % 256 = kind ∧ r / 2 ^ 80 % 2 ^ 16 = flags ∧
  r / 2 ^ 352 % 2 ^ 64 = detail % 2 ^ 64

/-- A LIVE context takes an H-class fault that no engine has met (R357, R360, R361): HALTED with its cause, and one stop record,
which names it as the cause, in its stop ring; `i` brings it in `s0`, and `s` is the module as that leaves it. -/
def HaltsContext (i : Instr) (s0 s : State) (c code detail : Nat) : Prop :=
  ∀ x, s.ctx? c = some x → x.st = .live → x.stops < x.stopsPrev + 4096 → DeviceRange s (x.poolBase + 64 * (x.stops % 4096)) 64 →
    ∃ t r, Machine.exec i s0 = .next t ∧ StopRecordIs r s.tick.toNat code 5 1 detail ∧
      DeviceTakes { s with ctxs := kmod s.ctxs c fun x => { x with
          st := .halted, cause := code, causeRank := 2 ^ 32, causeAt := some x.stops, faults := [code], haltTick := s.tick
          stopped := [], stops := x.stops + 1 } }
        t x.key none (bytesAt (x.poolBase + 64 * (x.stops % 4096)) 64 r)

/-! ### Barriers -/

/-- The word completes, changes wave `w` to `v'`, and the rest of the module is as in `u`. -/
def BecomesFrom (i : Instr) (s u : State) (w : Nat) (v' : Wave) : Prop :=
  ∃ t, Machine.exec i s = .next t ∧ OnlyWave u t w v'

/-- The arrival of a party completes the phase of a barrier word: the arrived set equals the mask (R87, R348). -/
def Completes (b : BarWord) (party : Nat) (m : BitVec 17) : Prop :=
  (if b.mask = 0 then 0 else b.arrived) ||| BitVec.ofNat 17 (2 ^ party) = m

/-- A block's barrier `n` takes an arrival of a party with a mask (R86, R87, R129, R348): the word joins it or completes its
phase; a completing arrival opens the window of a sequencer that waits there, and nothing else of the block changes. -/
def TakesArrival (b y : Block) (n : Fin 16) (party : Nat) (m : BitVec 17) : Prop :=
  let wd := b.bars[n]
  y.stamp = b.stamp + 1 ∧
  (¬ Completes wd party m → y.bars = b.bars.set n { wd with
      mask := m, arrived := (if wd.mask = 0 then 0 else wd.arrived) ||| BitVec.ofNat 17 (2 ^ party) } ∧
    { y with bars := b.bars, stamp := b.stamp } = b) ∧
  (Completes wd party m → y.bars = b.bars.set n { wd with mask := 0, arrived := 0, phase := wd.phase + 1 } ∧
    y.doneAt = b.doneAt.set n (b.stamp + 1) ∧
    (if b.seq.st = .waitBar n.val ∧ wd.pending.getLsbD 16 = false then
      y.seq = { b.seq with st := .run, pc := b.seq.pc + 16 } ∧ y.window = true ∧ y.pre = [] ∧ y.saved = [] ∧
        y.snapAt = max b.snapAt (b.stamp + 1) ∧
        { y with
          bars := b.bars, stamp := b.stamp, doneAt := b.doneAt, seq := b.seq, window := b.window, pre := b.pre
          saved := b.saved, snapAt := b.snapAt } = b
    else { y with bars := b.bars, stamp := b.stamp, doneAt := b.doneAt } = b))

/-- An arrival of a party fails a check of R86. -/
def ArrivalBad (b : Block) (n : Fin 16) (party : Nat) (m : BitVec 17) : Prop :=
  m = 0 ∨ m.getLsbD party = false ∨ 2 ^ b.waves.length ≤ m.toNat % 2 ^ 16 ∨ (m.getLsbD 16 = true ∧ b.seq.st = .absent) ∨
  b.bars[n].arrived.getLsbD party = true ∨ b.bars[n].pending.getLsbD party = true ∨ (b.bars[n].mask ≠ 0 ∧ b.bars[n].mask ≠ m)

/-- A block's arrival word and a gang's slot for GBAR, or for XBAR. -/
def arrOf (xb : Bool) (b : Block) : ArrWord := if xb then b.xbar else b.gbar
def withArr (xb : Bool) (b : Block) (a : ArrWord) : Block := if xb then { b with xbar := a } else { b with gbar := a }
def fldOf (xb : Bool) (g : Gang) : TreeFld := if xb then g.xb else g.gb
def withFld (xb : Bool) (g : Gang) (f : TreeFld) : Gang := if xb then { g with xb := f } else { g with gb := f }

/-- The block word of a wave that arrives at GBAR or XBAR with block mask `m`, and whether it then covers every wave that has not
ended (R271, R350). -/
def arrived (xb : Bool) (b : Block) (v : Wave) (m : BitVec 8) : ArrWord :=
  { arrOf xb b with bmask := m, waves := (arrOf xb b).waves ||| BitVec.ofNat 16 (2 ^ v.idx) }
def BlockArrives (s : State) (xb : Bool) (b : Block) (v : Wave) (m : BitVec 8) : Prop :=
  ∀ k ∈ b.waves, ∀ y, s.wave? k = some y → y.st ≠ .ended → (arrived xb b v m).waves.getLsbD y.idx = true

/-- An arrival at GBAR or XBAR fails a check of R271. -/
def TreeBad (s : State) (xb : Bool) (b : Block) (g : Gang) (v : Wave) (m : BitVec 8) : Prop :=
  m = 0 ∨ m.getLsbD b.gblk = false ∨
  (∃ k, k < 8 ∧ m.getLsbD k = true ∧ ∀ j ∈ g.blocks, ∀ y, s.block? j = some y → y.gblk ≠ k) ∨
  ((arrOf xb b).waves ≠ 0 ∧ (arrOf xb b).bmask ≠ m) ∨ (arrOf xb b).waves.getLsbD v.idx = true ∨
  (xb = true ∧ ∀ r, s.grid? v.grid = some r → r.sync = false) ∨
  (BlockArrives s xb b v m ∧ (fldOf xb g).gmask ≠ 0 ∧ (fldOf xb g).gmask ≠ m)

/-- A wave's word at GBAR or XBAR (R271, R350): the checks of its mask; its bit in its block's word; the block's arrival at
the gang's slot once every wave that has not ended has its bit; the completion of a GBAR, which releases every block of the
mask; and the wait of the word until its phase is over. -/
def TreeBarrier (mk : Body → Instr) (o : Op) (xb : Bool) : Prop :=
  ∀ s w sl v x b g, Issues s w sl v → OtherIdle v sl → exIn v sl x ≠ 0 → SourcesFull o x v sl → v.idx < 16 → s.block? v.blk = some b →
    s.gang? b.gang = some g → v.blk ∈ g.blocks → g.blocks.Nodup →
    let m : BitVec 8 := (src s v x.a (lowLane (exIn v sl x))).extractLsb' 0 8
    let a := arrOf xb b
    let f := fldOf xb g
    let f1 : TreeFld := { f with gmask := m, garr := f.garr ||| BitVec.ofNat 8 (2 ^ b.gblk) }
    let arrives : Prop := BlockArrives s xb b v m
    let bad : Prop := TreeBad s xb b g v m
    let wait : WaitCond := if xb then .xbar a.phase.toNat else .gbar a.phase.toNat
    let s1 : State := { s with blocks := kmod s.blocks v.blk fun b => withArr xb b (arrived xb b v m) }
    (bad → Traps (mk x) s w v (wordTrap v sl 0x09 (exIn v sl x) 0 0)) ∧
    (¬ bad → ∃ v1, SeamCells v v1 x sl ∧
      (¬ arrives → BecomesFrom (mk x) s s1 w (waitsAt s v1 sl wait)) ∧
      (arrives → (xb = true ∨ f1.garr ≠ m) →
        BecomesFrom (mk x) s { s1 with gangs := kmod s.gangs b.gang fun g => withFld xb g f1 } w (waitsAt s v1 sl wait)) ∧
      (arrives → xb = false → f1.garr = m → ∃ bs : KMap Block,
        (∀ k, kget bs k = (s.block? k).map fun y =>
          if k ∈ g.blocks ∧ m.getLsbD y.gblk = true then { y with gbar := ⟨y.gbar.phase + 1, 0, 0⟩ } else y) ∧
        BecomesFrom (mk x) s { s with blocks := bs, gangs := kmod s.gangs b.gang fun g => { g with gb := ⟨0, 0, f.phase + 1⟩ } } w
          (moved v1 sl)))

/-! ### Memory words -/

/-- Nothing holds the wave's memory words back; the context reaches every home of the domain and is not the innkeeper's. -/
structure MemoryFree (s : State) (w sl : Nat) (v : Wave) : Prop where
  may : MayAccess s w sl v
  homes : s.unreach = []
  context : v.ctx ≠ firmwareCtx

/-- The address of a layout M word in a lane (R248): base, offset and immediate, modulo 2^72. -/
def laneEa (s : State) (v : Wave) (x : Body) (wide : Bool) (l : Nat) : Nat :=
  (v.base x.aux.mBase +
    (if x.aux.mXp = false then 0 else if wide then (src64 s v x.a l).signExtend 72 else (src s v x.a l).signExtend 72) +
    x.aux.mImm.signExtend 72).toNat

/-- The lanes in which an address meets a condition. -/
def LanesAre (m : Mask) (real : Mask) (p : Nat → Prop) : Prop := ∀ n, n < 64 → (m.getLsbD n = true ↔ real.getLsbD n = true ∧ p n)

/-- A memory word takes ALIGN where a lane's address is no multiple of its unit, and XLATE where a scratchpad access runs over
the block's allotment, with the lanes and the lowest lane's address in the frame (R248, R249, R251). -/
def AddressFaults (i : Instr) (s : State) (w sl : Nat) (v : Wave) (real : Mask) (ea : Nat → Nat) (unit size : Nat) (scratch : Bool) : Prop :=
  ∀ m : Mask, m ≠ 0 →
    (LanesAre m real (fun n => ea n % unit ≠ 0) → Traps i s w v (wordTrap v sl 0x0B m (ea (lowLane m)) 0)) ∧
    ((∀ n, n < 64 → real.getLsbD n = true → ea n % unit = 0) → scratch = true →
      LanesAre m real (fun n => scratchSize s v.grid < ea n + size) → Traps i s w v (wordTrap v sl 0x0C m (ea (lowLane m)) 0))

/-- Every lane's address is a multiple of the unit, and lies in the allotment on scratchpad. -/
def AddressesGood (s : State) (v : Wave) (real : Mask) (ea : Nat → Nat) (unit size : Nat) (scratch : Bool) : Prop :=
  ∀ n, n < 64 → real.getLsbD n = true → ea n % unit = 0 ∧ (scratch = true → ea n + size ≤ scratchSize s v.grid)

/-- The words of entries that a producer is attached to: EMPTY with their bits kept in the lanes of a mask, a W entry once
(R48, R50). -/
def emptiedCell (v : Wave) (m : Mask) (b n p e l : Nat) : Cell :=
  if b ≤ e ∧ e < b + n ∧ (if e < 552 then m.getLsbD l = true else m ≠ 0) then ⟨(v.cell e l).val, .empty p⟩ else v.cell e l

/-- The word has left a new producer, numbered as `u` has it, and wave `w` is now `v'`; nothing else differs from `u`. What a
producer showed to watch units at issue is left open. -/
def NewProducer (u t : State) (w : Nat) (v' : Wave) (q : Prod) : Prop :=
  let bare (k : KMap Prod) (p : Nat) : Option Prod := (kget k p).map fun q => { q with shown := .none }
  t.wave? w = some v' ∧ (∀ k, k ≠ w → t.wave? k = u.wave? k) ∧ t.nextId = u.nextId + 1 ∧
  bare t.prods u.nextId = some { q with shown := .none } ∧ (∀ p, p ≠ u.nextId → bare t.prods p = bare u.prods p) ∧
  (∀ p, p < u.nextId → kget t.prods p = kget u.prods p) ∧
  { t with prods := u.prods, nextId := u.nextId, waves := u.waves } = u

/-- The wave after a word that has attached a producer on a path: its entries EMPTY, its counter one higher, its slot past
the word (R50, R252). -/
def AwaitsData (v v' : Wave) (sl : Nat) (m : Mask) (b n p path : Nat) : Prop :=
  (∀ e l, l < 64 → v'.cell e l = emptiedCell v m b n p e l) ∧
  (∀ k, v'.path k = v.path k + if k = path ∧ k < 5 then 1 else 0) ∧
  { v' with ents := v.ents, paths := v.paths } = moved v sl

/-- The elements of a load by lane, entry, address and extension, as they issue: nothing read yet but what the wave's own
buffer holds (R66, R253). -/
def IssuedItems (s : State) (v : Wave) (scratch : Bool) (items : List LoadItem) (l : List (Nat × Nat × Nat × LoadExt)) : Prop :=
  items.map (fun it => (it.lane, it.ent, it.ea, it.ext)) = l ∧
  ∀ it ∈ items, it.scratch = scratch ∧ it.dead = false ∧ it.held = false ∧ (v.helper.getLsbD it.lane = false → it.data = none) ∧
    ∀ i, i < it.ext.size → it.own[i]? = some (if scratch then kget v.bufS (it.ea + i)
      else if (inFrame s v (it.ea + i)).isSome then none else kget v.bufD ((it.ea + i) % 2 ^ 72))

/-- A load completes: its producer waits for these elements. -/
def LoadIssues (i : Instr) (s : State) (w sl : Nat) (v : Wave) (x : Body) (lanes m : Mask) (n : Nat) (scratch trk : Bool)
    (l : List (Nat × Nat × Nat × LoadExt)) : Prop :=
  ∃ t v' q items, Machine.exec i s = .next t ∧ NewProducer s t w v' q ∧
    (∀ d b, x.d = some d → opdEnt d = some b → AwaitsData v v' sl m b n s.nextId (if scratch then 1 else 0)) ∧
    { q with shown := .none } = ⟨w, sl, if scratch then 1 else 0, (v.slot sl).pc, lanes, v.helper, .load items trk, .none, false⟩ ∧
    IssuedItems s v scratch items l

/-- LD, LD.TRK and LDS (R248 to R253). -/
def LoadWord (mk : Body → Instr) (o : Op) (scratch trk : Bool) : Prop :=
  ∀ s w sl v x, Issues s w sl v → SourcesFull o x v sl → MemoryFree s w sl v → v.path (if scratch then 1 else 0) < 4095 →
    let ex := exIn v sl x; let real := realIn v sl x; let ea := laneEa s v x (o64m x.md)
    let size := elemSize x.ty; let cnt := vecCount x.aux.mSub; let n := if size = 8 then 2 else 1
    (ex = 0 → WaveBecomes (mk x) s w (moved v sl)) ∧
    (ex ≠ 0 → AddressFaults (mk x) s w sl v real ea (size * cnt) (size * cnt) scratch) ∧
    (∀ d b, ex ≠ 0 → x.d = some d → opdEnt d = some b → AddressesGood s v real ea (size * cnt) (size * cnt) scratch →
      let lanes := match d with | .w _ => if real = 0 then ex else real | _ => ex
      LoadIssues (mk x) s w sl v x lanes lanes (n * cnt) scratch trk ((lanesOf lanes).flatMap fun l => (List.range cnt).map fun j =>
        (l, b + n * j, (ea l + j * size) % 2 ^ 72, if x.ty = .i8 then .sext 1 else .zext size)))

/-- The bytes that a store takes from a lane's source: its elements in order, least significant byte first (R249). -/
def laneData (s : State) (v : Wave) (x : Body) (l : Nat) : List Byte :=
  let n := elemSize x.ty
  (List.range (vecCount x.aux.mSub)).flatMap fun j => if n = 8 then leBytes 8 (srcEntry s v x.b (2 * j + 1) l ++ srcEntry s v x.b (2 * j) l).toNat
    else leBytes n (srcEntry s v x.b j l).toNat

/-- The bytes of a store's lanes by address, lowest lane first (R66). -/
def laneStores (s : State) (v : Wave) (x : Body) (real : Mask) (ea : Nat → Nat) : List (Nat × Byte) :=
  (lanesOf real).flatMap fun l => (laneData s v x l).zipIdx.map fun y => ((ea l + y.2) % 2 ^ 72, y.1)

/-- ST and STS (R66, R71, R76, R248 to R251, R257, R413). -/
def StoreWord (mk : Body → Instr) (o : Op) (scratch : Bool) : Prop :=
  ∀ s w sl v x, Issues s w sl v → SourcesFull o x v sl → MemoryFree s w sl v →
    let real := realIn v sl x; let ea := laneEa s v x (o64m x.md); let size := elemSize x.ty * vecCount x.aux.mSub
    let bytes := laneStores s v x real ea
    let v1 : Wave := if scratch then { v with bufS := putAll v.bufS bytes } else { v with bufD := putAll v.bufD bytes }
    let hash := hashStores v.hash scratch ((lanesOf real).map fun l => (ea l, laneData s v x l))
    AddressFaults (mk x) s w sl v real ea size size scratch ∧
    (AddressesGood s v real ea size size scratch →
      (scratch = false → ∀ n, n < 64 → real.getLsbD n = true → inFrame s v (ea n) = none ∧
        (∀ i, i < size → inFrame s v ((ea n + i) % 2 ^ 72) = none) ∧
        (v.slot sl).denied.contains (pageOf s v.ctx (ea n)) = false ∧ ∃ pa, xlate s v.ctx (ea n) .write = .hit pa) →
      (bufLines v1 ≤ 128 → WaveBecomes (mk x) s w { moved v1 sl with hash }) ∧
      (128 < bufLines v1 → bytes ≠ [] → escalates s v.grid = false → Traps (mk x) s w v (wordTrap v sl 0x0A (v.slot sl).mask 0 0))) ∧
    (AddressesGood s v real ea size size scratch → scratch = false → ∀ m : Mask, m ≠ 0 →
      (∀ n pa, n < 64 → real.getLsbD n = true → inFrame s v (ea n) = none ∧ (v.slot sl).denied = [] ∧ xlate s v.ctx (ea n) .write ≠ .bad pa) →
      LanesAre m real (fun n => xlate s v.ctx (ea n) .write = .xlate) → Traps (mk x) s w v (wordTrap v sl 0x0C m (ea (lowLane m)) 0))

/-- A byte that a load reads: the wave's own buffer as at its issue, else the block's scratchpad, or the block pool, the gang
pool and the device level in turn (R66, R70, R92). -/
def loadByte (s : State) (v : Wave) (it : LoadItem) (i : Nat) : Byte :=
  match (it.own[i]?).join with
  | some b => b
  | none =>
    let a := (it.ea + i) % 2 ^ 72
    if it.scratch then (match s.block? v.blk with | some b => kgetD b.scratch (it.ea + i) 0 | none => 0) else
    match s.block? v.blk, s.gang? v.gang with
    | some b, some g => (match kget b.pool a, kget g.pool a, xlate s v.ctx a .read with
      | some c, _, _ => c
      | none, some c, _ => c
      | none, none, .hit pa => devByte s v.ctx pa
      | none, none, _ => 0)
    | _, _ => 0

/-- An element's bytes can be read now: its address is translated, and no home of it waits. -/
def ItemReads (s : State) (v : Wave) (it : LoadItem) : Prop :=
  it.lane < 64 ∧ it.data = none ∧ it.dead = false ∧ it.held = false ∧ (s.block? v.blk).isSome = true ∧ (s.gang? v.gang).isSome = true ∧
  ∀ i, i < it.ext.size → it.scratch = false → inFrame s v (it.ea + i) = none ∧
    ∃ pa, xlate s v.ctx ((it.ea + i) % 2 ^ 72) .read = .hit pa ∧ stagedByte s pa = false ∧ cutOff s pa = false

/-- The words that an element's bits become in its entries (R249, R255). -/
def itemWords (s : State) (v : Wave) (it : LoadItem) : List Word :=
  let d := leNat ((List.range it.ext.size).map (loadByte s v it)) % 2 ^ 64
  match it.ext with
  | .zext 8 => [BitVec.ofNat 32 d, BitVec.ofNat 32 (d / 2 ^ 32)]
  | .zext n => [BitVec.ofNat 32 (d % 256 ^ n)]
  | .sext n => [BitVec.ofInt 32 (let m := d % 256 ^ n; if 2 * m < 256 ^ n then (m : Int) else m - 256 ^ n)]
  | .bits off n => [BitVec.ofNat 32 (d / 2 ^ off % 2 ^ n)]

/-- The word that the elements bring to an entry in a lane: the first one's that covers it. -/
def broughtWord (s : State) (v : Wave) (items : List LoadItem) (e l : Nat) : Option Word :=
  items.findSome? fun it => if it.ent ≤ e ∧ (552 ≤ e ∨ it.lane = l) then (itemWords s v it)[e - it.ent]? else none

/-- A wave once its stalled slots may be tried again. -/
def tried (v : Wave) : Wave := { v with
  slot0 := { v.slot0 with stalled := false, starved := false, capped := false }
  slot1 := { v.slot1 with stalled := false, starved := false, capped := false } }

/-! ### Commits -/

/-- The pools that a commit carries up: the block's with the wave's bytes, and the gang's with those (R72, R93). -/
def blockBytes (v : Wave) (b : Block) : KMap Byte := putAll b.pool v.bufD
def gangBytes (v : Wave) (b : Block) (g : Gang) : KMap Byte := putAll g.pool (blockBytes v b)

/-- Every load of the wave has read its bytes (R67). -/
def LoadsRead (s : State) (w : Nat) : Prop :=
  ∀ y ∈ s.prods, y.2.wave = w → ∀ items trk, y.2.kind = .load items trk → ∀ it ∈ items, it.data ≠ none ∨ it.dead = true

/-- A commit of wave `w` at a scope can enter its levels now: the wave's loads have read, each pool has room, and from the
device level on every byte is translated to this module's device memory, its address there `place`, where nothing holds it
back (R67, R77, R93, R95, R96, R105, R114, R130). -/
structure CommitReady (s : State) (w : Nat) (v : Wave) (b : Block) (g : Gang) (scope : Nat) (place : Nat → Nat) : Prop where
  block : s.block? v.blk = some b
  gang : s.gang? v.gang = some g
  same : b.gang = v.gang ∧ g.ctx = v.ctx
  record : Unrecorded s v.ctx
  loads : LoadsRead s w
  sys : s.sysCommits = []
  snapshot : b.window = false ∧ b.saved.length ≤ 256
  blockRoom : lineCount ((blockBytes v b).map Prod.fst) ≤ 2048
  gangRoom : 2 ≤ scope → lineCount ((gangBytes v b g).map Prod.fst) ≤ 65536
  requests : 2 ≤ scope → ∀ r ∈ s.hall, ∀ va pa, r.at_ = .gang v.gang va pa →
    r.wave ≠ w ∧ ∀ y ∈ blockBytes v b, y.1 < va ∨ va + (if r.wide then 8 else 4) ≤ y.1
  hall : 3 ≤ scope → ∀ r ∈ s.hall, r.wave ≠ w ∧ ∀ a n, r.span = some (a, n) →
    ∀ y ∈ gangBytes v b g, place y.1 < a ∨ a + n ≤ place y.1
  bytes : 3 ≤ scope → ∀ y ∈ gangBytes v b g, v.denied.contains (pageOf s v.ctx y.1) = false ∧
    xlate s v.ctx y.1 .write = .hit (place y.1) ∧ isDevice s (place y.1) = true ∧ stagedByte s (place y.1) = false

/-- A wave tracks one of these addresses, or one of these physical addresses. -/
def Tracks (y : Wave) (l : List Nat) : Bool := y.trk.bytes.any fun t => l.contains t.1
def TracksPa (y : Wave) (l : List Nat) : Bool := y.trk.bytes.any fun t => l.contains t.2

/-- A wave marked with CONFLICT at the levels where an entry meets what it tracks (R80, R97). -/
def marked (y : Wave) (blk gang dev : Bool) : Wave :=
  { y with trk := { y.trk with confBlk := y.trk.confBlk || blk, confGang := y.trk.confGang || gang, confDev := y.trk.confDev || dev } }

/-- The module once wave `w` has committed at a scope: 1 its block, 2 its gang, 3 the device. Its buffers are empty and its
tracked set is clear; the block pool takes the device bytes and the scratchpad the others; from the gang level on the block
pool goes up into the gang pool, from the device level on that one goes to memory under the context's key; waves that track
what has entered are marked (R72, R80, R93, R95, R97). -/
def Committed (s u : State) (w : Nat) (v v1 : Wave) (b : Block) (g : Gang) (scope : Nat) (place : Nat → Nat) : Prop :=
  let dev := (gangBytes v b g).map fun y => (place y.1, y.2)
  v1 = { v with bufD := [], bufS := [], trk := Wave.noTrack false, denied := if scope < 3 then v.denied else [] } ∧
  u.wave? w = some v1 ∧
  (∀ k, k ≠ w → u.wave? k = (s.wave? k).map fun y => marked y (decide (y.blk = v.blk) && Tracks y (v.bufD.map Prod.fst))
    (decide (2 ≤ scope) && decide (y.gang = v.gang) && Tracks y ((blockBytes v b).map Prod.fst))
    (decide (3 ≤ scope) && TracksPa y (dev.map Prod.fst))) ∧
  (∃ y, u.block? v.blk = some y ∧ y.pool = (if scope < 2 then blockBytes v b else []) ∧
    (∀ a, kgetD y.scratch a 0 = (lastByte v.bufS a).getD (kgetD b.scratch a 0)) ∧ y.stamp = b.stamp + 1 ∧
    { y with pool := b.pool, scratch := b.scratch, stamp := b.stamp } = b) ∧
  (∀ k, k ≠ v.blk → u.block? k = s.block? k) ∧
  u.gangs = (if scope < 2 then s.gangs else kmod s.gangs v.gang fun g0 => { g0 with pool := if scope < 3 then gangBytes v b g else [] }) ∧
  (if scope < 3 then u.mem = s.mem ∧ u.memKey = s.memKey else
    (∀ a, memGet u.mem a = (lastByte dev a).getD (memGet s.mem a)) ∧
    ∀ a, kget u.memKey a = if (lastByte dev a).isSome then (if keyOf s v.ctx = 0 then none else some (keyOf s v.ctx)) else kget s.memKey a) ∧
  u.mods = healed s (if scope < 3 then [] else dev) ∧
  { u with waves := s.waves, blocks := s.blocks, gangs := s.gangs, mem := s.mem, memKey := s.memKey, mods := s.mods } = s

/-- An acquire orders the loads of wave `w` (R75, R100): from now on they stand before its later accesses. -/
def ordered (w : Nat) (acq : Bool) (q : Prod) : Prod := if acq = true ∧ q.wave = w then { q with fenced := true } else q
def Ordered (s : State) (w : Nat) (acq : Bool) : State := { s with prods := kmap s.prods fun _ q => ordered w acq q }

/-- The word, which has entered no level yet, commits at a scope up to DEV; `acq` says that it also acquires. -/
def CommitsAt (i : Instr) (s : State) (w sl : Nat) (v : Wave) (scope : Nat) (acq : Bool) : Prop :=
  (v.slot sl).entry = none → ∀ b g place, CommitReady s w v b g scope place →
    ∃ u v1, Committed s u w v v1 b g scope place ∧ BecomesFrom i s (Ordered u w acq) w (moved v1 sl)

/-- The word performs COMMIT.SYS up to its staging: its slot holds for the carry, whose share stands to be applied at this
module (R114). -/
def StagesSys (i : Instr) (s : State) (w sl : Nat) (v : Wave) : Prop :=
  (v.slot sl).entry = none → ∀ b g place, CommitReady s w v b g 4 place →
    ∃ u v1 iss, Committed s u w v v1 b g 2 place ∧
      let p := gangBytes v b g
      let v2 : Wave := { v1 with denied := [] }
      BecomesFrom i s { u with
          gangs := kmod s.gangs v.gang fun g => { g with pool := [] }
          sysCommits := [(s.nextId, ⟨w, sl, (v.slot sl).pc, v.ctx, putAll [] (p.map fun y => (place y.1, y.2)), [], p,
            if p = [] then [] else [s.cfg.modid], false, false, false, iss, v.hash⟩)]
          nextId := s.nextId + 1 }
        w (v2.setSlot sl { v2.slot sl with hold := .sysCommit s.nextId })

/-- The word of a checked COMMIT.SYS stages the share that it would carry and holds its slot; no level is left yet, since its
check and its steps take one point once every home has acknowledged (R97, R114, R116). -/
def StagesCheck (i : Instr) (s u : State) (w sl : Nat) (v : Wave) : Prop :=
  ∀ b g place, CommitReady s w v b g 4 place → let p := gangBytes v b g
    ∃ iss, BecomesFrom i s { u with
        sysCommits := [(s.nextId, ⟨w, sl, (v.slot sl).pc, v.ctx, putAll [] (p.map fun y => (place y.1, y.2)), [], p,
          if p = [] then [] else [s.cfg.modid], false, false, true, iss, v.hash⟩)]
        nextId := s.nextId + 1 }
      w (v.setSlot sl { v.slot sl with hold := .sysCommit s.nextId })

/-- The COMMIT.SYS of the word at the slot's PC has had its last acknowledgement (R114). -/
def SysFinished (s : State) (w sl : Nat) (v : Wave) (cid : Nat) : Prop :=
  ∃ c, s.sysCommits.find? (fun y => decide (y.2.wave = w) && decide (y.2.slot = sl) && decide (y.2.pc = (v.slot sl).pc) && y.2.finished) = some (cid, c)

/-- The wave with one word in D, in the executing lanes or once in W. -/
def WithD (v v1 : Wave) (x : Body) (ex : Mask) (c : Word) : Prop :=
  { v1 with ents := v.ents } = v ∧ ∀ e l, l < 64 → v1.cell e l = dstCell v x.d ex (fun _ => [c]) e l

/-- The reason of a checked commit at a scope (R79, R97): the lowest code that holds; 0 where none does. -/
def reasonOf (t : Track) (scope : Nat) : Nat :=
  if t.confBlk = true ∨ (2 ≤ scope ∧ t.confGang = true) ∨ (3 ≤ scope ∧ t.confDev = true) then 1
  else if t.abortedBlk = true ∨ (2 ≤ scope ∧ t.abortedGang = true) then 2
  else if t.overflow = true then 3 else if t.escalated = true then 4 else if t.evicted = true then 5 else 0

/-- A checked commit at a scope up to DEV: a reason goes to D and nothing is committed; without one the commit is performed
and D takes 0 (R79, R97, R259). -/
def ChecksAndCommits (i : Instr) (s : State) (w sl : Nat) (v : Wave) (x : Body) (scope : Nat) : Prop :=
  let ex := exIn v sl x; let code := reasonOf v.trk scope
  (code ≠ 0 → LoadsRead s w → ∃ v1, WithD v v1 x ex (BitVec.ofNat 32 code) ∧ WaveBecomes i s w (moved v1 sl)) ∧
  (code = 0 → ∀ b g place, CommitReady s w v b g scope place →
    ∃ u v1 v2, Committed s u w v v1 b g scope place ∧ WithD v1 v2 x ex 0 ∧ BecomesFrom i s u w (moved v2 sl))

/-! ### Atomics and reductions -/

/-- One lane's operation: the lane, its address, its operands. -/
structure LaneOp where
  lane : Nat
  at_ : Nat
  b : Nat
  c : Nat

/-- Lanes in turn on bytes (R74, R263): the bytes after them, the old values by lane, and the addresses written. -/
def runLanes (op : AtomOp) (ty : Fmt) (wide : Bool) : List LaneOp → (Nat → Byte) → (Nat → Byte) × List (Nat × Nat) × List Nat
  | [], m => (m, [], [])
  | y :: t, m =>
    let n := if wide then 8 else 4
    let old := leNat ((List.range n).map fun j => m (y.at_ + j))
    match atomNew op ty wide old y.b y.c with
    | none => let r := runLanes op ty wide t m; (r.1, (y.lane, old) :: r.2.1, r.2.2)
    | some d =>
      let r := runLanes op ty wide t fun a => if y.at_ ≤ a ∧ a < y.at_ + n then BitVec.ofNat 8 (d / 256 ^ (a - y.at_)) else m a
      (r.1, (y.lane, old) :: r.2.1, ((List.range n).map (y.at_ + ·)) ++ r.2.2)

/-- The lanes of a word as operations at their addresses. -/
def laneOps (s : State) (v : Wave) (x : Body) (op : AtomOp) (wide : Bool) (real : Mask) : List LaneOp :=
  (lanesOf real).map fun l => ⟨l, laneEa s v x (o64c x.md) l, atomSrc s v op wide x.b l, atomSrc s v op wide x.c l⟩

/-- What an atomic word releases first (R264): with a releasing order the commit of its scope, at SYS the one whose last
acknowledgement has come; else nothing. -/
def ReleasedFirst (s u : State) (w sl : Nat) (v v1 : Wave) (order scope : Nat) : Prop :=
  if order ∉ [2, 3, 4] then u = s ∧ v1 = v
  else if scope = 4 then v1 = v ∧ ∃ cid, SysFinished s w sl v cid ∧ u = { s with sysCommits := kdel s.sysCommits cid }
  else (v.slot sl).entry = none ∧ ∃ b g place, CommitReady s w v b g scope place ∧ Committed s u w v v1 b g scope place

/-- What an atomic needs to issue (R251, R264): its lanes' addresses aligned and in range, and in device space translated, each
to `pa`. -/
structure AtomReady (s : State) (w sl : Nat) (v : Wave) (x : Body) (size : Nat) (scratch reds : Bool) (op : AtomOp) (pa : Nat → Nat) : Prop where
  free : MemoryFree s w sl v
  path : v.path 3 < 4095
  some_ : realIn v sl x ≠ 0
  good : AddressesGood s v (realIn v sl x) (laneEa s v x (o64c x.md)) size size scratch
  loads : LoadsRead s w
  hits : scratch = false → ∀ n, n < 64 → (realIn v sl x).getLsbD n = true → let ea := laneEa s v x (o64c x.md) n
    (v.slot sl).denied.contains (pageOf s v.ctx ea) = false ∧ xlate s v.ctx ea (if reds then .write else .both) = .hit (pa ea) ∧
    atomRefused s op size (pa ea) = false

/-- One lane's request as it goes to its home (R103, R104, R118): at GANG scope and in this module the gang level at its own
cluster, else the byte's home. -/
def RequestIs (s : State) (v : Wave) (w sl : Nat) (x : Body) (op : AtomOp) (wide reds : Bool) (ret : Option Nat) (pa : Nat) (y : LaneOp)
    (id : Nat) (r : Req) : Prop :=
  let here : Prop := ∃ c, homeOf s pa = .here c
  r.id = id ∧ r.seqNo = id ∧ r.ctx = v.ctx ∧ r.wave = w ∧ r.slot = sl ∧ r.lane = y.lane ∧ r.pc = (v.slot sl).pc ∧
  r.issuer = issuer s v y.lane ∧ r.first = issuer s v (lowLane (exIn v sl x)) ∧ r.op = op ∧ r.ty = x.ty ∧ r.wide = wide ∧ r.b = BitVec.ofNat 64 y.b ∧ r.c = BitVec.ofNat 64 y.c ∧
  r.ret = ret ∧ r.acq = decide (x.aux.mOrder ∈ [1, 3, 4]) ∧
  (scopeOf x.md = 2 → here → r.at_ = .gang v.gang y.at_ pa ∧ r.home = clusterOf v.place) ∧
  (scopeOf x.md ≠ 2 ∨ ¬ here → r.at_ = .dev pa) ∧
  (∀ c, scopeOf x.md ≠ 2 → homeOf s pa = .here c → r.home = c) ∧
  (r.holds = true ↔ here ∧ scopeOf x.md = 3 ∧ ret = none ∧ (reds = true ∨ (wide = false ∧ op ∉ [.xchg, .cas, .incw])))

/-- A lane acts at the block level: on scratchpad, or at scope BLK at an address homed in this module (R103, R118). -/
def AtBlockLevel (s : State) (x : Body) (scratch : Bool) (pa : Nat → Nat) (y : LaneOp) : Bool :=
  scratch || (decide (scopeOf x.md = 1) && isDevice s (pa y.at_))

/-- An atomic or reduction acts (R74, R103, R104, R118, R263): the lanes at the block level take their turns there at once,
lowest first, as one entry; every other lane sends one request, in lane order; the old values come back on path 3 where D
takes them. `u` is the module, and `v1` the wave, after what the word releases first. -/
def AtomActs (i : Instr) (s u : State) (w sl : Nat) (v v1 : Wave) (x : Body) (op : AtomOp) (wide scratch ret reds : Bool) (pa : Nat → Nat) : Prop :=
  ∀ b, u.block? v.blk = some b → (∀ p ∈ u.prods, p.1 < u.nextId) →
    let l := laneOps s v x op wide (realIn v sl x)
    let near := l.filter fun y => AtBlockLevel u x scratch pa y
    let far := l.filter fun y => !AtBlockLevel u x scratch pa y
    let size := if wide then 8 else 4
    let acq : Bool := decide (x.aux.mOrder ∈ [1, 3, 4])
    let first := if ret then u.nextId + 1 else u.nextId
    let tickets := if x.aux.mOrder = 4 ∧ scopeOf x.md = 4 then u.tickets + 1 else u.tickets
    (near ≠ [] → b.window = false ∧ b.saved.length ≤ 256 ∧ Unrecorded s v.ctx) →
    (scratch = false → ∀ y ∈ near, ∀ j, j < size → stagedByte u (pa y.at_ + j) = false ∧ ∃ p, xlate u v.ctx (y.at_ + j) .read = .hit p) →
    (scratch = false → ∀ k : List Nat, (∀ a ∈ k, a ∈ b.pool.map Prod.fst ∨ ∃ y ∈ near, y.at_ ≤ a ∧ a < y.at_ + size) → lineCount k ≤ 2048) →
    let r := runLanes op x.ty wide near fun a => if scratch then kgetD b.scratch a 0 else (poolByte u v a).2
    ∃ t y v' rs, Machine.exec i s = .next t ∧ t.block? v.blk = some y ∧ (∀ k, k ≠ v.blk → t.block? k = u.block? k) ∧
      (if scratch then (∀ a, kgetD y.scratch a 0 = r.1 a) ∧ { y with scratch := b.scratch, stamp := b.stamp } = b
        else (∀ a, kget y.pool a = if a ∈ r.2.2 then some (r.1 a) else kget b.pool a) ∧ { y with pool := b.pool } = b) ∧
      t.wave? w = some v' ∧
      (∀ k, k ≠ w → t.wave? k = (u.wave? k).map fun z =>
        if scratch = false ∧ z.blk = v.blk ∧ Tracks z r.2.2 = true then { z with trk := { z.trk with confBlk := true } } else z) ∧
      t.hall = u.hall ++ rs ∧ rs.length = far.length ∧
      (∀ k y r, far[k]? = some y → rs[k]? = some r →
        RequestIs s v w sl x op wide reds (if ret then some u.nextId else none) (pa y.at_) y (first + k) r ∧ r.hash = v.hash) ∧
      t.nextId = first + far.length ∧
      (∀ p, p < u.nextId → kget t.prods p = (kget u.prods p).map (ordered w (far.isEmpty && acq))) ∧
      (ret = false → v' = moved v1 sl ∧ ∀ p, u.nextId ≤ p → kget t.prods p = none) ∧
      (ret = true → ∃ q vals, kget t.prods u.nextId = some q ∧
        { q with shown := .none } = ⟨w, sl, 3, (v.slot sl).pc, realIn v sl x, v.helper, .value vals wide (((x.d.bind opdEnt)).getD 0), .none,
          far.isEmpty && acq⟩ ∧
        (∀ n, kget vals n = ((r.2.1.find? fun z => z.1 = n).map fun z => BitVec.ofNat 64 z.2)) ∧
        (∀ d e, x.d = some d → opdEnt d = some e → AwaitsData v1 v' sl (realIn v sl x) e (if wide then 2 else 1) u.nextId 3)) ∧
      { t with waves := u.waves, blocks := u.blocks, prods := u.prods, hall := u.hall, nextId := u.nextId } = { u with tickets }

/-- An ATOM or ATOMD word of an operation (R74, R103, R104, R118, R251, R262 to R264). -/
def AtomicWord (mk : Body → Instr) (o : Op) (op : AtomOp) (wide : Bool) : Prop :=
  ∀ s w sl v x pa, Issues s w sl v → SourcesFull o x v sl → let size := if wide then 8 else 4
    let scratch := x.aux.mSub.getLsbD 1; let ret := x.aux.mSub.getLsbD 0
    (MemoryFree s w sl v → realIn v sl x = 0 → WaveBecomes (mk x) s w (moved v sl)) ∧
    (MemoryFree s w sl v → v.path 3 < 4095 →
      AddressFaults (mk x) s w sl v (realIn v sl x) (laneEa s v x (o64c x.md)) size size scratch) ∧
    (AtomReady s w sl v x size scratch false op pa → x.aux.mOrder ∈ [2, 3, 4] → scopeOf x.md = 4 → StagesSys (mk x) s w sl v) ∧
    (AtomReady s w sl v x size scratch false op pa → ∀ u v1, ReleasedFirst s u w sl v v1 x.aux.mOrder (scopeOf x.md) →
      AtomActs (mk x) s u w sl v v1 x op wide scratch ret false pa)

/-- A REDS word of an operation (R134, R266): a request without return to every lane's home. -/
def ReductionWord (mk : Body → Instr) (o : Op) (op : AtomOp) : Prop :=
  ∀ s w sl v x pa, Issues s w sl v → SourcesFull o x v sl →
    (MemoryFree s w sl v → realIn v sl x = 0 → WaveBecomes (mk x) s w (moved v sl)) ∧
    (MemoryFree s w sl v → AddressFaults (mk x) s w sl v (realIn v sl x) (laneEa s v x (o64c x.md)) 4 4 false) ∧
    (AtomReady s w sl v x 4 false true op pa → x.aux.mOrder ∈ [2, 3, 4] → scopeOf x.md = 4 → StagesSys (mk x) s w sl v) ∧
    (AtomReady s w sl v x 4 false true op pa → ∀ u v1, ReleasedFirst s u w sl v v1 x.aux.mOrder (scopeOf x.md) →
      AtomActs (mk x) s u w sl v v1 x op false false false true pa)

/-- FADD.F32.RN of two codes as an atomic takes it (R222, R263): the value, no flag. -/
def one32F (a b : Nat) : Nat := let l := [decodeF .f32 a, decodeF .f32 b]; (finish l (Val.sum false l) .f32 0 false 0).1

/-! ### Copies -/

/-- The sides of one lane's copy (R272): DIR 0 from device to scratchpad, 1 the other way, 2 within device memory. -/
def CopyIs (s : State) (v : Wave) (x : Body) (dev l : Nat) (q : CopyReq) : Prop :=
  let dir := (x.aux.mSub.extractLsb' 0 2).toNat
  let b := src s v x.b l
  q.len = (src s v x.c l).toNat ∧
  (dir = 0 → q.src = dev ∧ q.dst = b.toNat) ∧ (dir = 1 → q.src = b.toNat ∧ q.dst = dev) ∧
  (dir ≠ 0 → dir ≠ 1 → q.src = dev ∧ q.dst =
    (v.base x.aux.mBase + if o64c x.md = true ∧ x.aux.mXp = false then (src64 s v x.b l).signExtend 72 else b.signExtend 72).toNat)

/-- The arrival that a copy word carries fails a check of R86 at its issue (R126). -/
def CarriedBad (s : State) (v : Wave) (x : Body) (b : Block) : Prop :=
  let n : Fin 16 := (x.aux.mSub.extractLsb' 3 4).toFin
  let m : BitVec 17 := match x.d with | some o => (srcAt s v o 0 0).extractLsb' 0 17 | none => 0
  x.aux.mSub.getLsbD 2 = true ∧ (m = 0 ∨ m.getLsbD v.idx = false ∨ 2 ^ b.waves.length ≤ m.toNat % 2 ^ 16 ∨
    (m.getLsbD 16 = true ∧ b.seq.st = .absent) ∨ b.bars[n].arrived.getLsbD v.idx = true ∨ b.bars[n].pending.getLsbD v.idx = true)

/-- A copy word starts one copy per lane of a list, where no commit of the other slot holds an arrival that it carries (R87, R124 to
R126, R251, R272 to R274): BARMASK where a carried arrival fails its
checks, XLATE where a scratchpad side runs over the allotment, else the copies that move bytes, counted on path 2, the last one
with the arrival, whose PENDING bit stands from now on. -/
def StartsCopies (i : Instr) (s : State) (w sl : Nat) (v : Wave) (x : Body) (ls : List Nat) (dev : Nat → Nat) : Prop :=
  ∀ b (qs : List CopyReq), s.block? v.blk = some b → qs.length = ls.length → (∀ (k l : Nat) q, ls[k]? = some l → qs[k]? = some q → CopyIs s v x (dev l) l q) →
    (x.aux.mSub.getLsbD 2 = true → OtherIdle v sl) →
    let dir := (x.aux.mSub.extractLsb' 0 2).toNat
    let arv := x.aux.mSub.getLsbD 2
    let n : Fin 16 := (x.aux.mSub.extractLsb' 3 4).toFin
    let m : BitVec 17 := match x.d with | some o => (srcAt s v o 0 0).extractLsb' 0 17 | none => 0
    let bad : Prop := CarriedBad s v x b
    let beyond (q : CopyReq) : Prop := q.len ≠ 0 ∧ ((dir = 0 ∧ scratchSize s v.grid < q.dst + q.len) ∨ (dir = 1 ∧ scratchSize s v.grid < q.src + q.len))
    let real := qs.filter fun q => decide (q.len ≠ 0)
    let all := if real = [] ∧ arv = true then [⟨0, 0, 0⟩] else real
    (bad → Traps i s w v (wordTrap v sl 0x09 (exIn v sl x) 0 0)) ∧
    (¬ bad → v.path 2 + real.length ≤ 4095 →
      (∀ (k l : Nat) (q : CopyReq), (∀ (j : Nat) y, j < k → qs[j]? = some y → ¬ beyond y) → ls[k]? = some l → qs[k]? = some q → beyond q → ∀ mask : Mask,
        (∀ l, l < 64 → (mask.getLsbD l = true ↔ ∃ (j : Nat) (y : CopyReq), ls[j]? = some l ∧ qs[j]? = some y ∧ beyond y)) →
        Traps i s w v (wordTrap v sl 0x0C mask (if dir = 0 then q.dst else q.src) 0)) ∧
      ((∀ q ∈ qs, ¬ beyond q) → ∃ t v', Machine.exec i s = .next t ∧ OnlyWave
          { s with
            copies := t.copies, nextId := s.nextId + all.length
            blocks := if arv then kmod s.blocks v.blk (fun b => { b with bars := b.bars.set n { b.bars[n] with
              pending := b.bars[n].pending ||| BitVec.ofNat 17 (2 ^ v.idx) } }) else s.blocks }
          t w v' ∧
        (∀ k, v'.path k = v.path k + if k = 2 then real.length else 0) ∧ { v' with paths := v.paths } = moved v sl ∧
        (∀ p, p < s.nextId → kget t.copies p = kget s.copies p) ∧
        ∀ (k : Nat) q, all[k]? = some q → ∃ c, kget t.copies (s.nextId + k) = some c ∧ c.wave = w ∧ c.slot = sl ∧ c.blk = v.blk ∧ c.ctx = v.ctx ∧
          c.pc = (v.slot sl).pc ∧ c.dir = dir ∧ c.src = q.src ∧ c.dst = q.dst ∧ c.len = q.len ∧ c.done = 0 ∧ c.group = s.nextId ∧
          c.parked = none ∧ c.counted = decide (q.len ≠ 0) ∧
          c.arrive = if k + 1 = all.length ∧ arv = true then some (n.val, m) else none))

/-- A copy may carry its next line: it has bytes left, waits for no page and for no earlier lane of its word, no other copy
holds its courier, its context runs, and its block is not being restored (R124, R127, R273, R274). -/
structure CopyGoes (s : State) (c : Copy) : Prop where
  here : kget s.copies s.unit = some c
  left_ : c.done < c.len
  unparked : c.parked = none
  live : ∃ y, s.ctx? c.ctx = some y ∧ y.st = .live
  block : ∀ b, s.block? c.blk = some b → b.st ≠ .restoring
  first : ∀ y ∈ s.copies, y.2.group = c.group → y.1 < s.unit → y.2.len ≤ y.2.done
  courier : ∀ y ∈ s.copies, y.1 ≠ s.unit → courierOf y.2 = courierOf c → y.2.parked = none

/-- A byte range of a copy's device side, at its translation. -/
def SideReads (s : State) (ctx va n : Nat) (k : Acc) (pa : Nat → Nat) : Prop :=
  ∀ i, i < n → xlate s ctx ((va + i) % 2 ^ 72) k = .hit (pa i) ∧ isDevice s (pa i) = true ∧ stagedByte s (pa i) = false

/-- The module once copy `unit` has carried n bytes: it goes on, or it is done, leaving path 2, and gone unless it carries an
arrival (R124 to R126). -/
def CopyMoved (s t : State) (c : Copy) (n : Nat) : Prop :=
  let fin : Prop := c.len ≤ c.done + n
  (¬ fin → t = { s with copies := kput s.copies s.unit { c with done := c.done + n } }) ∧
  (fin → t = { s with
    copies := if c.arrive = none then kdel s.copies s.unit else kput s.copies s.unit { c with done := c.len }
    waves := kmod s.waves c.wave fun v => if c.counted then v.subPath 2 else v })

/-! ### The matrix sequencer -/

/-- The sequencer of block `bk`, which is `b`, has the turn (R278), and no armed watch unit of its core is of its context. -/
structure SeqIssues (s : State) (bk : Nat) (b : Block) : Prop where
  cur : s.cur = .seq bk
  block : s.block? bk = some b
  run : b.seq.st = .run
  quiet : ∀ n, n < 16 → (watchUnit s (blockCore b) n).arm = false ∨ (watchUnit s (blockCore b) n).ctx ≠ b.ctx

/-- The block with its sequencer at a PC, and past its word. -/
def seqAt (b : Block) (pc : Word) : Block := { b with seq := { b.seq with pc, waits := false } }
def seqPast (b : Block) : Block := seqAt b (b.seq.pc + 16)

/-- The word completes, and it changes block `bk` alone, to `y`. -/
def SeqBecomes (i : Instr) (s : State) (bk : Nat) (y : Block) : Prop :=
  Machine.exec i s = .next { s with blocks := kmod s.blocks bk fun _ => y }

/-- The word faults (R280): the sequencer stops at it, its window ends, and the lowest-numbered wave of the block that has not
ended takes the fault at its next issue. -/
def SeqFaults (i : Instr) (s : State) (bk : Nat) (b : Block) (code ea : Nat) : Prop :=
  ∀ w v, w ∈ b.waves → s.wave? w = some v → v.alive = true →
    (∀ k ∈ b.waves, ∀ y, s.wave? k = some y → y.alive = true → k = w ∨ v.idx < y.idx) →
    Machine.exec i s = .next { s with
      blocks := kmod s.blocks bk fun b => { b with seq := { b.seq with st := .stopped }, window := false, pre := [], saved := [] }
      waves := kmod s.waves w fun v => { v with late := v.late ++ [⟨code, b.seq.pc, 0, ea, b.seq.pc, true, false, none, 0⟩] } }

/-- Some wave of the block has not ended. -/
def HasWave (s : State) (b : Block) : Prop := ∃ w ∈ b.waves, ∃ v, s.wave? w = some v ∧ v.alive = true

/-- The word waits at its PC, and the block's sequencer with it, while a wave of the block is there (R278, R279, R290, R291). -/
def SeqWaits (i : Instr) (s : State) (bk : Nat) (b : Block) : Prop :=
  HasWave s b → Machine.exec i s = .next { s with blocks := kmod s.blocks bk fun b => { b with seq := { b.seq with waits := true } } }

/-- A tile of a block after its steps, elements by row and column. -/
def TileIs (t : Tile) (f : Nat → Nat → Word) : Prop := ∀ r c, r < 32 → c < 32 → t.elem r c = f r c

/-- The row and column predicates keep an element. -/
def Keeps (rowP colP : Word) (r c : Nat) : Prop := rowP.getLsbD r = true ∧ colP.getLsbD c = true

/-- The range that MRES names, as its handle holds it (R281, R282). -/
def newRange (b : Block) (x : Body) : Resv :=
  let blk := (x.aux.qSub.extractLsb' 0 2).toNat
  ⟨if blk = 0 then 0 else (seqSrc b x.c).toNat, (seqSrc b x.b).toNat, (seqSrc b x.a).toNat, true, blk, x.ty⟩

/-- MRES takes OBRANGE: its handle is live, the range is no whole number of K-steps, or it lies outside the allotment or over
another live range (R281, R282). -/
def RangeBad (s : State) (b : Block) (h : Fin 32) (r : Resv) : Prop :=
  b.handles[h].live = true ∨ r.len = 0 ∨ r.len % fmtBits r.fmt ≠ 0 ∨ (∃ y ∈ r.spans, obufSize s b < y.1 + y.2) ∨
  ∃ k : Fin 32, b.handles[k].live = true ∧ ∃ y ∈ r.spans, ∃ z ∈ b.handles[k].spans, z.1 < y.1 + y.2 ∧ y.1 < z.1 + z.2

/-- A queued MMA reads the range of a handle (R279). -/
def RangeRead (s : State) (bk : Nat) (b : Block) (h : Fin 32) : Prop :=
  ∃ m ∈ kgetD s.matrix (blockCore b) [], m.blk = bk ∧ m.zero = false ∧ (m.oa = h.val ∨ m.ob = h.val)

/-- MLD's scratchpad addresses are words, and lie in the allotment (R284). -/
def LoadOdd (b : Block) (x : Body) : Prop :=
  (seqSrc b x.a).toNat % 4 ≠ 0 ∨ (x.aux.qSub.getLsbD 1 = false ∧ (seqSrc b x.b).toNat % 4 ≠ 0)
def LoadInRange (s : State) (b : Block) (x : Body) (r : Resv) : Prop :=
  let a := (seqSrc b x.a).toNat
  if x.aux.qSub.getLsbD 1 then a + 256 ≤ scratchSize s b.grid else ∀ n, n < 32 → a + n * (seqSrc b x.b).toNat + 4 * fmtBits r.fmt ≤ scratchSize s b.grid
/-- MLD's handle has no such range, or the range no such K-step or scale block. -/
def LoadNone (b : Block) (x : Body) (r : Resv) : Prop :=
  r.live = false ∨ (if x.aux.qSub.getLsbD 1 then r.kblocks ≤ (seqSrc b x.c).toNat else r.ks ≤ (seqSrc b x.c).toNat)

/-- Bytes of the operand buffer outside a range are as before. -/
def ObufOutside (b : Block) (m : KMap Byte) (lo n : Nat) : Prop := ∀ a, (a < lo ∨ lo + n ≤ a) → kgetD m a 0 = kgetD b.obuf a 0

/-- The 32 × 32 tile of K-step `c` of a range holds these codes, and nothing beside it has changed (R146). -/
def PlanesHold (b y : Block) (r : Resv) (c : Nat) (code : Nat → Nat → Nat) : Prop :=
  (∀ row k, row < 32 → k < 32 → planeCode y r c row k = code row k) ∧
  ObufOutside b y.obuf (128 * (r.base + fmtBits r.fmt * c)) (128 * fmtBits r.fmt)

/-- An MMA or MZA step goes to the core's queue, or waits where eight stand there (R132, R278, R285, R286). -/
def QueuesStep (i : Instr) (s : State) (bk : Nat) (b : Block) (t : Nat) (m : MatStep) : Prop :=
  let q := kgetD s.matrix (blockCore b) []
  (8 ≤ q.length → SeqWaits i s bk b) ∧
  (q.length < 8 → Machine.exec i s = .next { s with
    matrix := kput s.matrix (blockCore b) (q ++ [m])
    blocks := kmod s.blocks bk fun _ => seqPast { b with
      tiles := kput b.tiles t { kgetD b.tiles t .lost with st := .empty, queued := (kgetD b.tiles t .lost).queued + 1 } } })

/-! ### Inspecting -/

/-- A WAVEREF names wave `k` for an inspector's context (R306): its context has the inspector's as its debug context, and `k`
is the one wave of it lodged at PLACE. -/
def Names (s : State) (insp : Nat) (ref : Word) (k : Nat) : Prop :=
  let c := (ref.extractLsb' 20 12).toNat
  (∃ x, s.ctx? c = some x ∧ x.dbgEn = true ∧ x.dbgCtx = insp) ∧
  kfind s.waves (fun _ u => decide (u.ctx = c) && u.alive && decide (u.st ≠ .saved) &&
    decide ((placeId u.place).extractLsb' 4 15 = ref.extractLsb' 4 15)) = [k]

/-- A WAVEREF names no wave: no context that this inspector debugs, or no wave there (R306). -/
def NamesNone (s : State) (insp : Nat) (ref : Word) : Prop :=
  let c := (ref.extractLsb' 20 12).toNat
  (∀ x, s.ctx? c = some x → x.dbgEn = false ∨ x.dbgCtx ≠ insp) ∨
  ∀ y ∈ s.waves, y.2.ctx = c → y.2.alive = true → y.2.st ≠ .saved →
    (placeId y.2.place).extractLsb' 4 15 ≠ ref.extractLsb' 4 15

/-- A configuration whose unit, C0 first, R302 makes ILLFLD in unit n. -/
def WatchBad (n : Nat) (c0 : Word) : Prop :=
  let field (lo len : Nat) : Nat := (c0.extractLsb' lo len).toNat
  3 < field 20 3 ∨ 3 < field 17 3 ∨ 4 < field 12 3 ∨ field 23 3 = 7 ∨ (c0.getLsbD 26 = true ∧ n = 0)

/-- A core selector of R302 picks a core. -/
def Picks (sel : Word) (core : Nat) : Prop := core < 512 ∧ (sel.msb = true ∨ core = (sel.extractLsb' 12 9).toNat)

/-- A selector is good for a target (R309). -/
def GoodSelector (s : State) (u : Wave) (b : Word) : Prop :=
  let k := (b.extractLsb' 0 12).toNat
  b.extractLsb' 12 16 = 0 ∧
  match (b.extractLsb' 28 4).toNat with
  | 0 | 1 => k < 40
  | 2 => ∃ d, descOf s u.grid = some d ∧ k < 16 * d.mbanks
  | 3 => k < 128
  | 4 => k < 7
  | 5 => k < 24
  | 6 => k < 1
  | 7 => k < 3
  | _ => False

/-- The arguments of HWR that its target takes (R311): a good selector, states FULL or LOST, a PC of whole words. -/
def WriteArgs (s : State) (u : Wave) (b : Word) (ex : Mask) (c : Nat → Word) : Prop :=
  let sp := (b.extractLsb' 28 4).toNat; let j := (b.extractLsb' 0 12).toNat
  GoodSelector s u b ∧ (sp = 1 → ∀ l, l < 64 → ex.getLsbD l = true → c l = 0 ∨ c l = 2) ∧
  (sp = 7 → j < 2 → (u.slot j).live = true → ∀ l, l < 64 → ex.getLsbD l = true → (c l).toNat % 16 = 0)

/-- The item that a good selector names in a lane of a target (R309, R310). -/
def ItemIs (u : Wave) (b : Word) (l : Nat) (r : Word) : Prop :=
  let sp := (b.extractLsb' 28 4).toNat; let k := (b.extractLsb' 0 12).toNat
  (sp = 0 → r = (u.cell k l).val) ∧
  (sp = 1 → r = match (u.cell k l).st with | .full => 0 | .empty _ => 1 | .lost => 2) ∧
  (sp = 2 → r = (u.cell (40 + k) l).val) ∧ (sp = 3 → r = (u.cell (552 + k) 0).val) ∧
  (sp = 4 → r = if (u.pred k).getLsbD l then 1 else 0) ∧
  (∀ (i : Fin 8) j, sp = 5 → k = 3 * i.val + j → j < 3 → r.toNat = (u.base i).toNat / 2 ^ (32 * j) % 2 ^ 32) ∧
  (sp = 6 → r = (u.flag l).setWidth 32) ∧
  (sp = 7 → (k = 0 → r = u.slot0.pc) ∧ (k = 1 → r = u.slot1.pc) ∧ (k = 2 → r = u.fpen.setWidth 32))

/-- The target once HWR has written C, per lane of a mask or once, into the item of a selector (R309, R311). -/
def Wrote (u u' : Wave) (b : Word) (m : Mask) (c : Nat → Word) : Prop :=
  let sp := (b.extractLsb' 28 4).toNat; let k := (b.extractLsb' 0 12).toNat; let one := c (lowLane m)
  (∀ e l, l < 64 → u'.cell e l =
    if sp = 0 ∧ e = k ∧ m.getLsbD l = true then ⟨c l, .full⟩
    else if sp = 1 ∧ e = k ∧ m.getLsbD l = true then ⟨(u.cell e l).val, if c l = 0 then .full else .lost⟩
    else if sp = 2 ∧ e = 40 + k ∧ m.getLsbD l = true then ⟨c l, .full⟩
    else if sp = 3 ∧ e = 552 + k then ⟨one, .full⟩ else u.cell e l) ∧
  (∀ p l, l < 64 → (u'.pred p).getLsbD l = if sp = 4 ∧ p = k ∧ m.getLsbD l = true then (c l).getLsbD 0 else (u.pred p).getLsbD l) ∧
  (∀ i : Fin 8, (u'.base i).toNat = if sp = 5 ∧ k / 3 = i.val then
      (let a := (u.base i).toNat; let j := 32 * (k % 3); a % 2 ^ j + 2 ^ j * (one.toNat % 2 ^ min 32 (72 - j)) + a / 2 ^ (j + 32) * 2 ^ (j + 32))
    else (u.base i).toNat) ∧
  (∀ l, l < 64 → u'.flag l = if sp = 6 ∧ m.getLsbD l = true then (c l).setWidth 6 else u.flag l) ∧
  u'.slot0 = (if sp = 7 ∧ k = 0 then { u.slot0 with pc := one } else u.slot0) ∧
  u'.slot1 = (if sp = 7 ∧ k = 1 then { u.slot1 with pc := one } else u.slot1) ∧
  u'.fpen = (if sp = 7 ∧ k = 2 then one.setWidth 6 else u.fpen) ∧
  { u' with
    ents := u.ents, preds := u.preds, bases := u.bases, flags := u.flags, slot0 := u.slot0, slot1 := u.slot1, fpen := u.fpen } = u

/-- The word writes a status to D and has no other effect. -/
def StatusOnly (i : Instr) (s : State) (w sl : Nat) (v : Wave) (x : Body) (c : Nat) : Prop :=
  ∃ v1, WithD v v1 x (exIn v sl x) (BitVec.ofNat 32 c) ∧ WaveBecomes i s w (moved v1 sl)

/-- The inspector's slot, past its word, holds until the effect at its target; the turn that brings it goes first. -/
def InspectorHolds (i : Instr) (s : State) (w sl : Nat) (v : Wave) (x : Body) (k sl' : Nat) (lane : Option Nat) (t : Turn) : Prop :=
  BecomesFrom i s { s with agenda := t :: s.agenda } w
    ((moved v sl).setSlot sl { (moved v sl).slot sl with hold := .inspect k sl' lane x.d (exIn v sl x) s.tick.toNat })

/-! ### Words and steps -/

/-- A word laid out by R159, from its OP down to its AUX. -/
def wordOf (op : BitVec 8) (fn : BitVec 6) (guard : BitVec 4) (d a b c : BitVec 12) (keep : BitVec 2) (ktgt eb : BitVec 3)
    (ty md : BitVec 4) (aux : BitVec 46) : BitVec 128 :=
  op ++ fn ++ guard ++ d ++ a ++ b ++ c ++ keep ++ ktgt ++ eb ++ ty ++ md ++ aux

/-- OP and FN of a word (R159). -/
def opField (w : BitVec 128) : BitVec 8 := w.extractLsb' 120 8
def fnField (w : BitVec 128) : BitVec 6 := w.extractLsb' 114 6

/-- Slot `sl` of wave `w`, which is `v`, has the first turn of the agenda, and `s0` is the state it is taken in: the slot may
issue, and what its fetch meets at its PC is `f`. -/
structure WaveTurn (s s0 : State) (w sl : Nat) (v : Wave) (f : Fetched) : Prop where
  turn : ∃ rest, s.agenda = .wave w sl :: rest ∧ s0 = { s with agenda := rest }
  can : canIssue s0 w sl = some v
  fetched : fetch s0 v.ctx (codeVa s0 v.grid (v.slot sl).pc) (v.slot sl).denied = f

/-- The sequencer of block `bk`, which is `b`, has the first turn, and what it fetches is `f`. -/
structure SeqTurn (s s0 : State) (bk : Nat) (b : Block) (f : Fetched) : Prop where
  turn : ∃ rest, s.agenda = .seq bk :: rest ∧ s0 = { s with agenda := rest }
  block : s0.block? bk = some b
  can : seqRuns s0 b = true
  fetched : fetch s0 b.ctx (codeVa s0 b.grid b.seq.pc) [] = f

/-- After the turn nothing issues, and the charge of R430 apart the module is as the word has left it; a parked wave's parking
may end (R385), where no halt waits for it (R330). -/
def Settled (t u : State) (parked : Option Nat) : Prop :=
  t.cur = .none ∧ (∀ k, { t.cluster k with charges := (u.cluster k).charges } = u.cluster k) ∧
  match parked with
  | none => { t with cur := u.cur, clusters := u.clusters } = u
  | some w => (∀ v, u.wave? w = some v → v.haltDue = none) → { t with cur := u.cur, clusters := u.clusters, waves := u.waves } = u ∧ ∀ k, k ≠ w → t.wave? k = u.wave? k

/-- A step does what a word does, and then settles; what that changes of a SAVED block or wave goes into its image; a fault or a refusal of the word is the step's own. -/
def StepRuns (s : State) (o : Host.Outcome State Fault Refusal) (parked : Option Nat) : Prop :=
  (∀ u, o = .next u → ∃ t, step s = .next (syncImages s t) ∧ Settled t u parked) ∧ (∀ r, o = .fault r → step s = .fault r) ∧
  ∀ r, o = .refused r → step s = .refused r

/-- A step's turn, which finds the module as in `s0`, takes the fault `T` for wave `w`, which is `v` in `u` (R57, R295). -/
def StepTraps (s s0 u : State) (w : Nat) (v : Wave) (T : TrapInfo) : Prop :=
  Untraced s0 v.ctx 4 → v.parkTime = none → v.haltDue = none → ∀ d, descOf s0 v.grid = some d →
    (d.hasTrap = true ∧ v.inHandler = false → ∃ t v', step s = .next (syncImages s t) ∧ t.wave? w = some v' ∧ Entered s0 v v' d T ∧
      (∀ k, k ≠ w → t.wave? k = s0.wave? k) ∧ { t with waves := s0.waves, cur := s0.cur, clusters := s0.clusters } = s0) ∧
    (d.hasTrap = false ∨ v.inHandler = true →
      ∃ t, step s = .next (syncImages s t) ∧ Settled t (gridFault u v.grid T.code (faultIssuer u v T)) none)

/-! ### Arrivals -/

/-- In `t` party `party` has arrived with mask `m` at barrier `n` of block `bk`, which was `b`: the arrival stands in the block's
order after every entry so far, and commits nothing; it completes the phase where the arrived set equals the mask (R87). -/
def ArrivalMade (s t : State) (bk : Nat) (b : Block) (n : Fin 16) (party : Nat) (m : BitVec 17) : Prop :=
  let wd := b.bars[n]
  let arrived : BitVec 17 := (if wd.mask = 0 then 0 else wd.arrived) ||| BitVec.ofNat 17 (2 ^ party)
  ∃ y, t.block? bk = some y ∧ y.stamp = b.stamp + 1 ∧ y.pool = b.pool ∧ y.scratch = b.scratch ∧ t.mem = s.mem ∧ t.gangs = s.gangs ∧
    (∀ k v, s.wave? k = some v → ∃ v', t.wave? k = some v' ∧ v'.bufD = v.bufD ∧ v'.bufS = v.bufS) ∧
    (∀ k : Fin 16, k ≠ n → y.bars[k] = b.bars[k]) ∧
    (arrived = m → y.bars[n].mask = 0 ∧ y.bars[n].arrived = 0 ∧ y.bars[n].phase = wd.phase + 1) ∧
    (arrived ≠ m → y.bars[n].mask = m ∧ y.bars[n].arrived = arrived ∧ y.bars[n].phase = wd.phase)

/-! ### Results of floating-point words -/

/-- The shape of `FpWord` for a result that a relation gives. -/
def FpWordIs (mk : Body → Instr) (o : Op) (n : Body → Nat) (draws : Body → Bool)
    (P : State → Iss → Body → Nat → List Word × BitVec 6 → Prop) : Prop :=
  ∀ s w sl v x, Issues s w sl v → SourcesFull o x v sl → Room s w sl v x (n x) →
    ∃ val : Nat → List Word × BitVec 6, (∀ l, l < 64 → P s (issOf o x w sl v) x l (val l)) ∧
      (NoFpTrap v (realIn v sl x) (fun l => (val l).2) →
        Does (mk x) x s w sl v { (Change.words v (exIn v sl x) fun l => (val l).1).withFlags (realIn v sl x) fun l => (val l).2 with
          rng := if draws x then v.rng + 1 else v.rng })

/-- NV where a source is a signalling NaN, DN where a code is subnormal (R153, R220). -/
def sourceFlags (f : Fmt) (codes : List Nat) : BitVec 6 :=
  (if (codes.map (decodeF f)).any Val.isSnan then fNV else 0) ||| (if codes.any (subnormal f) then fDN else 0)

/-- One value is below another in the order of R154, where −0 is below +0. -/
def Below (a b : Val) : Prop := Val.lt a b = true ∨ (Val.eqv a b = true ∧ a.isNeg = true ∧ b.isNeg = false)

/-- The quiet form of an F32 NaN's code: its sign and payload kept (R153). -/
def quietCode (c : Nat) : Nat := c ||| 0x400000

/-- What a minimum or maximum of R154 gives of two F32 codes: one NaN gives the other operand, or itself made quiet under PROP, two
give the first made quiet, and otherwise the one of the codes that no other is below, or above. -/
def Selects (mx prop : Bool) (a b c : Nat) : Prop :=
  let p := decodeF .f32 a; let q := decodeF .f32 b; let r := decodeF .f32 c
  (p.isNan = true → q.isNan = true → c = quietCode a) ∧
  (p.isNan = true → q.isNan = false → c = if prop then quietCode a else b) ∧
  (p.isNan = false → q.isNan = true → c = if prop then quietCode b else a) ∧
  (p.isNan = false → q.isNan = false → (c = a ∨ c = b) ∧
    if mx then ¬ Below r p ∧ ¬ Below r q else ¬ Below p r ∧ ¬ Below q r)

/-- A word of R223. -/
def SelectWord (mk : Body → Instr) (o : Op) (mx prop : Bool) : Prop :=
  FpWordIs mk o (fun _ => 1) (fun _ => false) fun s i x l r =>
    ∃ c, r.1 = [BitVec.ofNat 32 c] ∧ Selects mx prop (codeA s i x l) (codeB s i x l) c ∧
      r.2 = sourceFlags .f32 [codeA s i x l, codeB s i x l]

/-- An exact value in a format: rounded where it is a float format, else the nearest integer of it under R155, whose NV a signalling
source also sets (R153, R231, R232). -/
def convertedTo (dst : Fmt) (srcs : List Val) (v : Val) (rm : Nat) (sat : Bool) (draw : Nat) : Nat × BitVec 6 :=
  if isFloat dst then finish srcs v dst rm sat draw
  else (((toInt v dst rm draw).1 % (2 ^ fmtBits dst : Nat)).toNat, (toInt v dst rm draw).2 ||| if srcs.any Val.isSnan then fNV else 0)

/-- DN for codes of a format. -/
def denormal (f : Fmt) (codes : List Nat) : BitVec 6 := if codes.any (subnormal f) then fDN else 0

/-- The record of a group of participating lanes' finite values, in lane order (R236): 1.0 and 0x80 where all are zero; else from
its largest magnitude, the lowest lane's on a tie, and the next largest one. -/
def ScaleIs (t : Fmt) (fs : List Val) (r : Nat × Nat) : Prop :=
  ((∀ a ∈ fs, a.isZero = true) → r = (0x3F800000, 0x80)) ∧
  ∀ (i : Nat) (a m : Val), fs[i]? = some a → a.isZero = false →
    (∀ (j : Nat) b, fs[j]? = some b → Val.lt a.abs b.abs = false ∧ (j < i → Val.lt b.abs a.abs = true)) →
    (∀ (j : Nat) b, j ≠ i → fs[j]? = some b → Val.lt m b.abs = false) →
    (m = Val.zero false ∨ ∃ (j : Nat) (b : Val), j ≠ i ∧ fs[j]? = some b ∧ b.isZero = false ∧ m = b.abs) →
    let outlier : Prop := t = .e2m1 ∧ m.isZero = false ∧ Val.lt (.mul (.ofInt 2) m) a.abs = true
    (outlier → r.1 = (roundTo (.div m (.ofInt 6)) .f32 2 false 0).1 ∧
      r.2 = (roundTo (.div a (decodeF .f32 r.1)) .e4m3 0 true 0).1) ∧
    (¬ outlier → r = ((roundTo (.div a.abs (if t = .i8 then .ofInt 127 else decodeF t (fmtMax t))) .f32 2 false 0).1, 0x80))

/-- QNT of an F32 code by a scale and a special value (R237): the quotient rounded to the format, or code 0b1000 where an E2M1
block's special value is strictly nearer to it. -/
def QuantIs (t : Fmt) (rm : Nat) (sat : Bool) (draw a sc sv : Nat) (r : Nat × BitVec 6) : Prop :=
  let p := decodeF .f32 a; let q := decodeF .f32 sc
  let x := Val.div p q
  let c := convertedTo t [p, q] x rm sat draw
  let dz : BitVec 6 := if p.isFin = true ∧ p.isZero = false ∧ q.isZero = true then fDZ else 0
  let sp := decodeF .e4m3 sv
  let far (y : Val) : Val := (Val.sum false [x, y.neg]).abs
  let special : Prop := t = .e2m1 ∧ sv ∉ [0x00, 0x80, 0x7F, 0xFF] ∧ x.isFin = true ∧ Val.lt (far sp) (far (decodeF .e2m1 c.1)) = true
  (special → r = (8, (if Val.eqv x sp then 0 else fNX) ||| denormal .f32 [a, sc])) ∧
  (¬ special → r = (c.1, c.2 ||| dz ||| denormal .f32 [a, sc]))

/-- One rounded step of the running statistics: F32 codes in NaN order, the exact value, and DZ where its quotient divides what is
not zero by zero (R151, R220, R241 to R243). -/
def statOf (codes : List Nat) (exact : Val) (quots : List (Val × Val)) : Nat × BitVec 6 :=
  let l := codes.map (decodeF .f32)
  let r := finish l exact .f32 0 false 0
  (r.1, r.2 ||| denormal .f32 codes |||
    if l.any Val.isNan = false ∧ quots.any (fun y => y.1.isFin && !y.1.isZero && y.2.isZero) = true then fDZ else 0)

/-- WUPD of a triple and a sample by the steps of R241. -/
def UpdatedBy (n mu m2 x : Nat) (r : List Word × BitVec 6) : Prop :=
  let f (c : Nat) : Val := decodeF .f32 c
  let n1 := statOf [n] (.sum false [f n, .ofInt 1]) []
  let d := statOf [x, mu] (.sum false [f x, (f mu).neg]) []
  let m1 := statOf [mu, d.1, n1.1] (.sum false [f mu, .div (f d.1) (f n1.1)]) [(f d.1, f n1.1)]
  let e := statOf [x, m1.1] (.sum false [f x, (f m1.1).neg]) []
  let q := statOf [m2, d.1, e.1] (.sum false [f m2, .mul (f d.1) (f e.1)]) []
  r.1 = [n1.1, m1.1, q.1].map (BitVec.ofNat 32) ∧ r.2 = n1.2 ||| d.2 ||| m1.2 ||| e.2 ||| q.2

/-- WMRG of triple B into triple A by the steps of R242: an empty B leaves A, an empty A takes B. -/
def MergedBy (nA mA qA nB mB qB : Nat) (r : List Word × BitVec 6) : Prop :=
  let f (c : Nat) : Val := decodeF .f32 c
  let n := statOf [nA, nB] (.sum false [f nA, f nB]) []
  let d := statOf [mB, mA] (.sum false [f mB, (f mA).neg]) []
  let p := Val.mul (f d.1) (f nB)
  let m := statOf [mA, d.1, nB, n.1] (.sum false [f mA, .div p (f n.1)]) [(p, f n.1)]
  let u := Val.mul (.mul (.mul (f d.1) (f d.1)) (f nA)) (f nB)
  let q := statOf [qA, qB, d.1, nA, nB, n.1] (.sum false [f qA, f qB, .div u (f n.1)]) [(u, f n.1)]
  ((f nB).isZero = true → r = ([nA, mA, qA].map (BitVec.ofNat 32), sourceFlags .f32 [nA, mA, qA, nB, mB, qB])) ∧
  ((f nB).isZero = false → (f nA).isZero = true → r = ([nB, mB, qB].map (BitVec.ofNat 32), sourceFlags .f32 [nA, mA, qA, nB, mB, qB])) ∧
  ((f nB).isZero = false → (f nA).isZero = false →
    r.1 = [n.1, m.1, q.1].map (BitVec.ofNat 32) ∧ r.2 = n.2 ||| d.2 ||| m.2 ||| q.2)

/-- WFIN of a triple and ε by R243: no sample or a NaN gives NaNs with NV, else the mean and the reciprocal root of the variance. -/
def FinishedBy (n mu m2 eps : Nat) (r : List Word × BitVec 6) : Prop :=
  let f (c : Nat) : Val := decodeF .f32 c
  let first (l : List Nat) : Nat := match l.find? fun c => (f c).isNan with | some c => quietCode c | none => 0
  let nan : Prop := ∃ c ∈ [n, mu, m2, eps], (f c).isNan = true
  let dn := denormal .f32 [n, mu, m2, eps]
  ((f n).isZero = true → r = ([0x7FC00000, 0x7FC00000], fNV ||| dn)) ∧
  ((f n).isZero = false → nan → r = ([first [mu, n, m2, eps], first [n, m2, eps, mu]].map (BitVec.ofNat 32), fNV ||| dn)) ∧
  ((f n).isZero = false → ¬ nan →
    let m : Val := if Val.lt (.zero false) (f m2) = true then f m2 else .zero false
    let v := statOf [n, m2, eps] (.sum false [.div m (f n), f eps]) []
    let q := special .rsq v.1
    r.1 = [mu, q.1].map (BitVec.ofNat 32) ∧ r.2 = dn ||| v.2 ||| q.2 ||| denormal .f32 [v.1])

/-- An enabled flag traps (R152): where the word, on the same wave with no flag enabled and none yet set, completes and leaves flags of
which FPEN enables one in some lane, it has no effect and takes FPTRAP instead, with those flags and their lanes in the
frame. -/
def FlagsTrap (mk : Body → Instr) (o : Op) : Prop :=
  ∀ s w sl v x, Issues s w sl v → SourcesFull o x v sl →
    ∀ t u, Machine.exec (mk x) (s.putWave w { v with fpen := 0, flags := [] }) = .next t → t.wave? w = some u →
      u.slot sl = slotAfter (v.slot sl) →
      ∀ m : Mask, (∀ l, l < 64 → (m.getLsbD l = true ↔ u.flag l ≠ 0)) → (∃ l, l < 64 ∧ u.flag l &&& v.fpen ≠ 0) →
        ∃ fl, (∀ l, l < 64 → kgetD fl l 0 = u.flag l) ∧ Traps (mk x) s w v { wordTrap v sl 0x10 m 0 0 with fl }

/-! ### Completion -/

/-- A register word completes (R59, R183): its slot goes past it, no other slot or wave changes, every register entry is as before or
FULL, and D's `n` entries are FULL in the executing lanes that are no helper lanes. -/
def RegisterWordDone (i : Instr) (s : State) (w sl : Nat) (v : Wave) (x : Body) (n : Nat) : Prop :=
  ∃ t v', Machine.exec i s = .next t ∧ OnlyWave s t w v' ∧ v'.slot sl = slotAfter (v.slot sl) ∧
    v'.slot (1 - sl) = v.slot (1 - sl) ∧
    (∀ e l, l < 64 → v'.cell e l = v.cell e l ∨ (v'.cell e l).st = .full) ∧
    ∀ d e, x.d = some d → opdEnt d = some e → ∀ j l, j < n → l < 64 → (realIn v sl x).getLsbD l = true → (v'.cell (e + j) l).st = .full

/-- A word of a wave completes: its slot goes past it, and the state and the wave after it meet `Q`. -/
def Retires (i : Instr) (s : State) (w sl : Nat) (v : Wave) (Q : State → Wave → Prop) : Prop :=
  ∃ t v', Machine.exec i s = .next t ∧ t.wave? w = some v' ∧ v'.slot sl = slotAfter (v.slot sl) ∧ Q t v'

/-- A word of a wave completes by holding its slot at its own PC, at a seam or held for an inspector. -/
def HoldsAt (i : Instr) (s : State) (w sl : Nat) (v : Wave) (h : Hold → Prop) : Prop :=
  ∃ t v', Machine.exec i s = .next t ∧ t.wave? w = some v' ∧ (v'.slot sl).live = true ∧ (v'.slot sl).pc = (v.slot sl).pc ∧ h (v'.slot sl).hold

/-- A lane-wise atomic or reduction of R262 with no releasing order, whose requests all go to a porter or whose lanes all act on
scratchpad, completes: its lanes' requests stand in the hall, and its returning form counts on path 3. -/
def AtomicDone (i : Instr) (o : Op) (s : State) (w sl : Nat) (v : Wave) (x : Body) (op : AtomOp) (wide reds : Bool) : Prop :=
  let size := if wide then 8 else 4
  let scratch := !reds && x.aux.mSub.getLsbD 1
  let ret := !reds && x.aux.mSub.getLsbD 0
  ∀ pa b, Issues s w sl v → SourcesFull o x v sl → AtomReady s w sl v x size scratch reds op pa → x.aux.mOrder ∉ [2, 3, 4] →
    s.block? v.blk = some b → (∀ p ∈ s.prods, p.1 < s.nextId) →
    (scratch = true → b.window = false ∧ b.saved.length ≤ 256 ∧ Unrecorded s v.ctx) →
    (scratch = false → scopeOf x.md ≠ 1 ∨ ∀ n, n < 64 → (realIn v sl x).getLsbD n = true → isDevice s (pa n) = false) →
    Retires i s w sl v fun t v' =>
      (∃ rs, t.hall = s.hall ++ rs ∧ rs.length = if scratch = true then 0 else (lanesOf (realIn v sl x)).length) ∧
      v'.path 3 = v.path 3 + if ret = true then 1 else 0

/-- A posted command ends DONE with a result in slot `n`, the module after it meeting `Q` (R449). -/
def Finishes (i : Instr) (s : State) (n result : Nat) (Q : State → Prop) : Prop :=
  ∃ t y, Machine.exec i s = .next t ∧ kget t.slots n = some y ∧ y.st = 3 ∧ y.result = result ∧ Q t

/-- A posted command has taken a step of its course: its slot is RUNNING at a phase (R449). -/
def GoesOn (i : Instr) (s : State) (n phase : Nat) : Prop :=
  ∃ t y, Machine.exec i s = .next t ∧ kget t.slots n = some y ∧ y.st = 2 ∧ y.phase = phase

end Sys2Proof.Safety
end

