-- ==== Sys2Proof/Certificates/Slice0/Obligations.lean ====
section
/-! DEFINITION. The statements about the machine. -/

open Sys2Proof Sys2Proof.Machine Sys2Proof.Safety

/-! ### Class 001: integer words -/

/-- IADD, ISUB, IMUL, IMULH, IMAD, IMIN, IMAX, IABS and ICLAMP compute on exact integers, then narrow as SAT says, in every
executing lane; nothing else but D, KEEP's target and the PC changes (R183, R205, R206). -/
def Parts.IntegerArithmeticWords : Prop :=
  IntWord .iadd .iadd (fun a b _ => a + b) ∧ IntWord .isub .isub (fun a b _ => a - b) ∧
  IntWord .imul .imul (fun a b _ => a * b) ∧ IntWord .imulh .imulh (fun a b _ => (a * b).fdiv (2 ^ 32)) ∧
  IntWord .imad .imad (fun a b c => a * b + c) ∧ IntWord .imin .imin (fun a b _ => if a ≤ b then a else b) ∧
  IntWord .imax .imax (fun a b _ => if a ≤ b then b else a) ∧ IntWord .iabs .iabs (fun a _ _ => if a < 0 then -a else a) ∧
  IntWord .iclamp .iclamp (fun a b c => min (max a b) c)

/-- AND, OR, XOR, ANDN, SHL, SHR, SAR, ROT, BFX, BFI, POPC, CLZ and BREV give each bit of the result that the manual names
(R206, R208, R209), and change nothing else but KEEP's target and the PC. -/
def Parts.LogicShiftAndFieldWords : Prop :=
  BitWord .and .and (fun a b => a && b) ∧ BitWord .or .or (fun a b => a || b) ∧ BitWord .xor .xor (fun a b => a != b) ∧
  BitWord .andn .andn (fun a b => a && !b) ∧
  Word32 .shl .shl (fun _ a b _ r => r.toNat = if b.toNat < 32 then a.toNat * 2 ^ b.toNat % 2 ^ 32 else 0) ∧
  Word32 .shr .shr (fun _ a b _ r => r.toNat = if b.toNat < 32 then a.toNat / 2 ^ b.toNat else 0) ∧
  Word32 .sar .sar (fun _ a b _ r => r.toInt = if b.toNat < 32 then a.toInt.fdiv (2 ^ b.toNat) else if a.msb then -1 else 0) ∧
  Word32 .rot .rot (fun _ a b _ r => ∀ k, k < 32 → r.getLsbD ((k + b.toNat) % 32) = a.getLsbD k) ∧
  Word32 .bfx .bfx (fun x a b _ r =>
    let off := (b.extractLsb' 0 8).toNat
    let wd := min (b.extractLsb' 8 8).toNat (32 - off)
    ∀ k, k < 32 → r.getLsbD k =
      if off < 32 ∧ wd ≠ 0 then a.getLsbD (off + (if k < wd then k else wd - 1)) && (decide (k < wd) || decide (x.ty = .i32))
      else false) ∧
  Word32 .bfi .bfi (fun _ a b c r =>
    let off := (c.extractLsb' 0 8).toNat
    let wd := min (c.extractLsb' 8 8).toNat (32 - off)
    ∀ k, k < 32 → r.getLsbD k = if off ≤ k ∧ k < off + wd then b.getLsbD (k - off) else a.getLsbD k) ∧
  Word32 .popc .popc (fun _ a _ _ r => r.toNat = ((List.range 32).filter fun k => a.getLsbD k).length) ∧
  Word32 .clz .clz (fun _ a _ _ r => if a = 0 then r = 32 else r.toNat < 32 ∧ a.toNat < 2 ^ (32 - r.toNat) ∧ 2 ^ (31 - r.toNat) ≤ a.toNat) ∧
  Word32 .brev .brev (fun _ a _ _ r => ∀ k, k < 32 → r.getLsbD k = a.getLsbD (31 - k))

/-- IADDC adds A, B and the carry in pa; D takes the low 32 bits and pd the carry out in the executing lanes (R207). -/
def Parts.AddWithCarryGivesSumAndCarry : Prop :=
  ∀ s w sl v x, Issues s w sl v → SourcesFull .iaddc x v sl → Room s w sl v x 1 →
    UniformPreds v x (exIn v sl x) [x.aux.pPa.val] →
    ∃ (f : Nat → Word) (c : Nat → Bool),
      (∀ l, l < 64 → (f l).toNat + (if c l then 2 ^ 32 else 0) =
        (src s v x.a l).toNat + (src s v x.b l).toNat + (if (v.pred x.aux.pPa.val).getLsbD l then 1 else 0)) ∧
      Does (.iaddc x) x s w sl v ((Change.words v (exIn v sl x) fun l => [f l]).withPred x.aux.pPd (exIn v sl x) c)

/-! ### Class 010: predicates, selection, moves -/

/-- PSET, PLOG, PMOV.VP and PMOV.LOAD write predicates in the executing lanes, a write to p7 being discarded, and nothing
else but KEEP's target and the PC (R22, R166, R195 to R197). -/
def Parts.PredicateWordsWritePredicates : Prop :=
  ∀ s w sl v x, Issues s w sl v →
    (SourcesFull .pset x v sl → Does (.pset x) x s w sl v ((Change.none v).withPred x.aux.pPd (exIn v sl x) fun l =>
      let a := srcInt s v x.ty x.a l
      let b := srcInt s v x.ty x.b l
      if x.md = 0 then decide (a = b) else if x.md = 1 then decide (a ≠ b) else if x.md = 2 then decide (a < b)
      else if x.md = 3 then decide (a ≤ b) else if x.md = 4 then decide (a > b) else decide (a ≥ b))) ∧
    (SourcesFull .plog x v sl → Does (.plog x) x s w sl v ((Change.none v).withPred x.aux.pPd (exIn v sl x) fun l =>
      match (v.pred x.aux.pPa.val).getLsbD l, (v.pred x.aux.pPb.val).getLsbD l with
      | false, false => x.aux.pTt.getLsbD 0
      | false, true => x.aux.pTt.getLsbD 1
      | true, false => x.aux.pTt.getLsbD 2
      | true, true => x.aux.pTt.getLsbD 3)) ∧
    (SourcesFull .pmovVp x v sl → Does (.pmovVp x) x s w sl v ((Change.none v).withPred x.aux.pPd (exIn v sl x) fun l =>
      decide (src s v x.a l ≠ 0))) ∧
    (SourcesFull .pmovLoad x v sl → Does (.pmovLoad x) x s w sl v { Change.none v with
      preds := fun p l => if p < 7 ∧ (exIn v sl x).getLsbD l = true then (src s v x.a l).getLsbD p else (v.pred p).getLsbD l })

/-- PMOV.PV, PMOV.SAVE and SEL write what predicates choose, and PRISEL the least A over the executing lanes with its
holders in pd (R197 to R199). -/
def Parts.PredicatesReadAsData : Prop :=
  ∀ s w sl v x, Issues s w sl v → let ex := exIn v sl x
    (SourcesFull .pmovPv x v sl → Room s w sl v x 1 → UniformPreds v x ex [x.aux.pPa.val] →
      Does (.pmovPv x) x s w sl v (Change.words v ex fun l => [if (v.pred x.aux.pPa.val).getLsbD l then 1 else 0])) ∧
    (SourcesFull .pmovSave x v sl → Room s w sl v x 1 → UniformPreds v x ex (List.range 7) →
      ∃ f : Nat → Word, (∀ l p, l < 64 → (f l).getLsbD p = (decide (p < 7) && (v.pred p).getLsbD l)) ∧
        Does (.pmovSave x) x s w sl v (Change.words v ex fun l => [f l])) ∧
    (Readable v (selNeeds x (issOf .sel x w sl v)) → Room s w sl v x (tyWords x) → UniformPreds v x ex [x.aux.pPa.val] →
      ∃ f : Nat → List Word,
        (∀ l, l < 64 → (f l).length = tyWords x ∧
          natOf (f l) = (if (v.pred x.aux.pPa.val).getLsbD l then src64 s v x.a l else src64 s v x.b l).toNat % 2 ^ (32 * tyWords x)) ∧
        Does (.sel x) x s w sl v (Change.words v ex f)) ∧
    (SourcesFull .prisel x v sl → Room s w sl v x 1 →
      ∃ m : Word, (∀ l, l < 64 → ex.getLsbD l = true → m.toNat ≤ (src s v x.a l).toNat) ∧
        (ex ≠ 0 → ∃ l, l < 64 ∧ ex.getLsbD l = true ∧ src s v x.a l = m) ∧
        Does (.prisel x) x s w sl v ((Change.words v ex fun _ => [m]).withPred x.aux.pPd ex fun l => decide (src s v x.a l = m)))

/-- MOV, MOVQ and LDI copy their source to D, and MOVW the value of the lowest executing lane (R200 to R203). -/
def Parts.MovesCopyTheirSource : Prop :=
  ∀ s w sl v x, Issues s w sl v → let ex := exIn v sl x
    (SourcesFull .mov x v sl → Room s w sl v x (tyWords x) →
      Does (.mov x) x s w sl v (Change.words v ex fun l =>
        if fmt64 x.ty then [src s v x.a l, (src64 s v x.a l).extractLsb' 32 32] else [src s v x.a l])) ∧
    (Readable v (needs .movw x (if ex = 0 then 0 else laneBit (lowLane ex))) → Room s w sl v x 1 →
      Does (.movw x) x s w sl v (Change.words v ex fun _ => [src s v x.a (lowLane ex)])) ∧
    (SourcesFull .movq x v sl → Room s w sl v x 4 → ∀ a, x.a = some a →
      Does (.movq x) x s w sl v (Change.words v ex fun l => [srcAt s v a 0 l, srcAt s v a 1 l, srcAt s v a 2 l, srcAt s v a 3 l])) ∧
    (Room s w sl v x 1 → Does (.ldi x) x s w sl v (Change.words v ex fun _ => [x.aux.iImm]))

/-- LDA and AADD write an address base once for any executing lane, modulo 2^72, and AMOV copies one to three entries
(R204). -/
def Parts.AddressBaseWords : Prop :=
  ∀ s w sl v x, Issues s w sl v → let ex := exIn v sl x
    (SourcesFull .lda x v sl → ∀ a, x.a = some a →
      Does (.lda x) x s w sl v (if ex = 0 then Change.none v else (Change.none v).withBase x.aux.mBase
        (BitVec.ofInt 72 ((srcAt s v a 0 0).toNat + 2 ^ 32 * (srcAt s v a 1 0).toNat + 2 ^ 64 * ((srcAt s v a 2 0).toNat % 256 : Nat) +
          x.aux.mImm.toInt)))) ∧
    (SourcesFull .aadd x v sl →
      Does (.aadd x) x s w sl v (if ex = 0 then Change.none v else (Change.none v).withBase x.aux.mBase
        (BitVec.ofInt 72 ((v.base (subBase x)).toNat + (src s v x.a (lowLane ex)).toInt + x.aux.mImm.toInt)))) ∧
    (SourcesFull .amov x v sl → Room s w sl v x 3 →
      ∃ a b c : Word, a.toNat + 2 ^ 32 * b.toNat + 2 ^ 64 * c.toNat = (v.base (subBase x)).toNat ∧
        Does (.amov x) x s w sl v (Change.words v ex fun _ => [a, b, c]))

/-- SRD reads each system register of R171, TICKLO capturing the tick for TICKHI, and SWR writes FPFLAGS in the executing
lanes and FPEN from the lowest of them (R171, R216). -/
def Parts.SystemRegisterWords : Prop :=
  ∀ s w sl v x, Issues s w sl v → let ex := exIn v sl x
    (SourcesFull .srd x v sl → Room s w sl v x 1 → x.aux.gReg ∈ [0x000, 0x001, 0x002, 0x003, 0x004, 0x008, 0x009, 0x010, 0x011, 0x020] →
      Does (.srd x) x s w sl v { Change.words v ex fun l =>
          if x.aux.gReg = 0x000 then [64] else if x.aux.gReg = 0x001 then [placeId v.place]
          else if x.aux.gReg = 0x002 then [BitVec.ofNat 32 (dspOf s v)]
          else if x.aux.gReg = 0x003 then [BitVec.ofNat 32 (dspOf s v / 2 ^ 32)]
          else if x.aux.gReg = 0x004 then
            [BitVec.ofNat 32 (v.stack.length % 2 ^ 8 + 2 ^ 8 * (stackLimit s v % 2 ^ 8) + 2 ^ 24 * (dspOf s v / 2 ^ 64 % 2 ^ 8))]
          else if x.aux.gReg = 0x008 then [(v.flag l).setWidth 32] else if x.aux.gReg = 0x009 then [v.fpen.setWidth 32]
          else if x.aux.gReg = 0x010 then [s.tick.setWidth 32] else if x.aux.gReg = 0x011 then [v.tickCap.extractLsb' 32 32]
          else [issuer s v l] with
        cap := if x.aux.gReg = 0x010 ∧ ex ≠ 0 then s.tick else v.tickCap }) ∧
    (SourcesFull .swr x v sl → x.aux.gReg = 0x008 →
      Does (.swr x) x s w sl v { Change.none v with
        flags := fun l => if ex.getLsbD l = true then (src s v x.a l).setWidth 6 else v.flag l }) ∧
    (SourcesFull .swr x v sl → x.aux.gReg = 0x009 →
      Does (.swr x) x s w sl v { Change.none v with fpen := if ex = 0 then v.fpen else (src s v x.a (lowLane ex)).setWidth 6 })

/-- VOTE.ANY, VOTE.ALL and VOTE.EQ write one predicate value in the participating lanes, and VOTE.BAL the mask of the
participating lanes whose predicate is set (R194). -/
def Parts.VotesCombineThePredicate : Prop :=
  ∀ s w sl v x, Issues s w sl v → let real := realIn v sl x
    let on (l : Nat) : Prop := real.getLsbD l = true ∧ (v.pred x.aux.pPa.val).getLsbD l = true
    let off (l : Nat) : Prop := real.getLsbD l = true ∧ (v.pred x.aux.pPa.val).getLsbD l = false
    (SourcesFull .voteAny x v sl → ∃ r : Bool, (r = true ↔ ∃ l, l < 64 ∧ on l) ∧
      Does (.voteAny x) x s w sl v ((Change.none v).withPred x.aux.pPd real fun _ => r)) ∧
    (SourcesFull .voteAll x v sl → ∃ r : Bool, (r = true ↔ ¬ ∃ l, l < 64 ∧ off l) ∧
      Does (.voteAll x) x s w sl v ((Change.none v).withPred x.aux.pPd real fun _ => r)) ∧
    (SourcesFull .voteEq x v sl → ∃ r : Bool, (r = true ↔ ¬ ((∃ l, l < 64 ∧ on l) ∧ ∃ l, l < 64 ∧ off l)) ∧
      Does (.voteEq x) x s w sl v ((Change.none v).withPred x.aux.pPd real fun _ => r)) ∧
    (SourcesFull .voteBal x v sl → DRoom x 2 → (∀ i, x.d ≠ some (.s i)) →
      Does (.voteBal x) x s w sl v (Change.words v (collMask x (issOf .voteBal x w sl v)) fun _ =>
        let m := v.pred x.aux.pPa.val &&& real
        [m.setWidth 32, m.extractLsb' 32 32]))

/-! ### Class 010: across the lanes -/

/-- XL.XOR, XL.UP, XL.DOWN, XL.IDX, QX.H, QX.V and QX.D take A from the lane that R210 and R211 name, or the lane's own A. -/
def Parts.ExchangeWordsTakeTheNamedLane : Prop :=
  ExchangeWord .xlXor .xlXor (fun b l => (Nat.xor l.toNat (b % 64) : Nat)) ∧
  ExchangeWord .xlUp .xlUp (fun b l => l - (b % 64 : Nat)) ∧ ExchangeWord .xlDown .xlDown (fun b l => l + (b % 64 : Nat)) ∧
  ExchangeWord .xlIdx .xlIdx (fun b _ => (b % 64 : Nat)) ∧
  ExchangeWord .qxH .qxH (fun _ l => if l % 2 = 0 then l + 1 else l - 1) ∧
  ExchangeWord .qxV .qxV (fun _ l => if l % 4 < 2 then l + 2 else l - 2) ∧
  ExchangeWord .qxD .qxD (fun _ l => if l % 4 = 0 then l + 3 else if l % 4 = 1 then l + 1 else if l % 4 = 2 then l - 1 else l - 3)

/-- RSTEP combines a lane's A with its partner's, RED gives the tree of every participating lane's A or the identity, and
SCAN the running combination in lane order; F32 reads a literal or special as its value (R212 to R215, R219). -/
def Parts.ReductionWordsCombineTheLanes : Prop :=
  ∀ s w sl v x, Issues s w sl v → let real := realIn v sl x
    let a (l : Nat) : Word := if x.ty = .f32 then BitVec.ofNat 32 (srcF s v .f32 x.a l 0) else src s v x.a l
    let part (l : Nat) : Part := (if real.getLsbD l then some (a l) else none, 0)
    (SourcesFull .rstep x v sl → Room s w sl v x 1 →
      let val (l : Nat) : Word × BitVec 6 :=
        let p := Nat.xor l (src s v x.b l).toNat
        if p < 64 ∧ real.getLsbD p = true then combine2 x.ty x.md.toNat (a (min l p)) (a (max l p)) else (a l, 0)
      NoFpTrap v real (fun l => if x.ty = .f32 then (val l).2 else 0) →
      Does (.rstep x) x s w sl v ((Change.words v real fun l => [(val l).1]).withFlags real fun l => if x.ty = .f32 then (val l).2 else 0)) ∧
    (SourcesFull .red x v sl → Room s w sl v x 1 →
      let r := redTree x.ty x.md.toNat part 6 0
      NoFpTrap v real (fun _ => if x.ty = .f32 then r.2 else 0) →
      Does (.red x) x s w sl v ((Change.words v (collMask x (issOf .red x w sl v)) fun _ => [r.1.getD (redIdentity x.ty x.md.toNat)]).withFlags
        real fun _ => if x.ty = .f32 then r.2 else 0)) ∧
    (SourcesFull .scan x v sl → Room s w sl v x 1 →
      let val (l : Nat) : Part := (((List.range (l + 1)).filter fun k => real.getLsbD k).map part).foldl (combine x.ty x.md.toNat) (none, 0)
      NoFpTrap v real (fun l => if x.ty = .f32 then (val l).2 else 0) →
      Does (.scan x) x s w sl v ((Change.words v real fun l => [(val l).1.getD 0]).withFlags real fun l => if x.ty = .f32 then (val l).2 else 0))

/-- On integers the tree of RED gives the same value as combining the lanes in ascending order: the operations of R212 are
associative. -/
def Parts.IntegerReductionHasNoOrder : Prop :=
  ∀ (ty : Fmt) (code : Nat) (p : Nat → Option Word), (ty = .u32 ∨ ty = .i32) →
    (redTree ty code (fun l => (p l, 0)) 6 0).1 =
      ((List.range 64).foldl (fun acc l => match acc, p l with
        | some a, some b => some (combine2 ty code a b).1
        | none, b => b
        | a, none => a) (none : Option Word))

/-! ### Class 011: floating point -/

/-- FADD, FSUB, FMUL and FFMA round the exact sum, difference, product and fused product and sum of their sources once,
under RM and SAT; FSCALE rounds A × 2^B, and FRND the integer nearest under RM (R220, R222, R226, R227). -/
def Parts.FloatArithmeticRoundsOnce : Prop :=
  FpWord .fadd .fadd (fun _ => 1) drawsRs (fun s i x l => one32 (rounded s i x l [codeA s i x l, codeB s i x l]
    (.sum (decide (rmOf x.md = 3)) [valA s i x l, valB s i x l]))) ∧
  FpWord .fsub .fsub (fun _ => 1) drawsRs (fun s i x l => one32 (rounded s i x l [codeA s i x l, codeB s i x l]
    (.sum (decide (rmOf x.md = 3)) [valA s i x l, (valB s i x l).neg]))) ∧
  FpWord .fmul .fmul (fun _ => 1) drawsRs (fun s i x l => one32 (rounded s i x l [codeA s i x l, codeB s i x l]
    (.mul (valA s i x l) (valB s i x l)))) ∧
  FpWord .ffma .ffma (fun _ => 1) drawsRs (fun s i x l => one32 (rounded s i x l [codeA s i x l, codeB s i x l, codeC s i x l]
    (.sum (decide (rmOf x.md = 3)) [.mul (valA s i x l) (valB s i x l), valC s i x l]))) ∧
  FpWord .fscale .fscale (fun _ => 1) drawsRs (fun s i x l => one32 (rounded s i x l [codeA s i x l]
    (scaleVal (valA s i x l) (srcInt s i.v .i32 x.b l)))) ∧
  FpWord .frnd .frnd (fun _ => 1) drawsRs (fun s i x l =>
    let r := frnd (codeA s i x l) (rmOf x.md) (drawOf s i (rmOf x.md) l 0)
    one32 (r.1, r.2 ||| dnOf .f32 [codeA s i x l]))

/-- An enabled flag traps: the word has no effect, and FPTRAP's frame holds the flags that it would have set (R152). -/
def Parts.EnabledFlagsTrap : Prop :=
  FlagsTrap .fadd .fadd ∧ FlagsTrap .fsub .fsub ∧ FlagsTrap .fmul .fmul ∧ FlagsTrap .ffma .ffma ∧ FlagsTrap .fmin .fmin ∧
  FlagsTrap .fmax .fmax ∧ FlagsTrap .fminProp .fminProp ∧ FlagsTrap .fmaxProp .fmaxProp ∧ FlagsTrap .fcmp .fcmp ∧
  FlagsTrap .frnd .frnd ∧ FlagsTrap .fscale .fscale ∧ FlagsTrap .hadd2 .hadd2 ∧ FlagsTrap .hmul2 .hmul2 ∧ FlagsTrap .hfma2 .hfma2 ∧
  FlagsTrap .dot4 .dot4 ∧ FlagsTrap .cvt .cvt ∧ FlagsTrap .cvts .cvts ∧ FlagsTrap .pack .pack ∧ FlagsTrap .unpk .unpk ∧
  FlagsTrap .qnt .qnt ∧ FlagsTrap .dqnt .dqnt ∧ FlagsTrap .rcp .rcp ∧ FlagsTrap .rsq .rsq ∧ FlagsTrap .exp2 .exp2 ∧
  FlagsTrap .log2 .log2 ∧ FlagsTrap .sin .sin ∧ FlagsTrap .cos .cos ∧ FlagsTrap .tanh .tanh ∧ FlagsTrap .sqrt .sqrt ∧ FlagsTrap .wfin .wfin

/-- Rounding to nearest is right: a finite result is as near to the exact value as any finite code of the format, and an
exact value that the format holds is returned (R149). -/
def Obligations.RoundToNearestIsNearest : Prop :=
  ∀ (f : Fmt) (neg : Bool) (n d : Nat), isFloat f = true → 0 < d →
    let r := roundTo (.fin neg n d) f 0 false 0
    r.2 &&& fOF = 0 →
    (decodeF f r.1).isFin = true ∧ (decodeF f r.1).den ≠ 0 ∧
    ∀ c, c < 2 ^ fmtBits f → (decodeF f c).isFin = true →
      ((decodeF f r.1).num * d - (if neg then -(n : Int) else n) * (decodeF f r.1).den).natAbs * (decodeF f c).den ≤
      ((decodeF f c).num * d - (if neg then -(n : Int) else n) * (decodeF f c).den).natAbs * (decodeF f r.1).den

/-- FMIN, FMAX, FMIN.PROP and FMAX.PROP give the lesser or greater source code, −0 below +0; with one NaN the other code, or under
PROP that NaN made quiet; with two the first made quiet; NV for a signalling NaN, DN for a subnormal. FCMP writes the comparison
of R224 to pd, with NV for a signalling NaN, and for any NaN under LT, LE, GT and GE (R153, R154, R223, R224). -/
def Parts.FloatSelectionAndComparison : Prop :=
  SelectWord .fmin .fmin false false ∧ SelectWord .fmax .fmax true false ∧
  SelectWord .fminProp .fminProp false true ∧ SelectWord .fmaxProp .fmaxProp true true ∧
  (∀ s w sl v x, Issues s w sl v → SourcesFull .fcmp x v sl →
    let code (o : Option Opd) (l : Nat) : Nat := srcF s v .f32 o l 0
    let a (l : Nat) : Val := decodeF .f32 (code x.a l)
    let b (l : Nat) : Val := decodeF .f32 (code x.b l)
    let un (l : Nat) : Bool := (a l).isNan || (b l).isNan
    let holds (l : Nat) : Bool :=
      if x.md = 0 then !un l && Val.eqv (a l) (b l) else if x.md = 1 then un l || !Val.eqv (a l) (b l)
      else if x.md = 2 then !un l && Val.lt (a l) (b l) else if x.md = 3 then !un l && (Val.lt (a l) (b l) || Val.eqv (a l) (b l))
      else if x.md = 4 then !un l && Val.lt (b l) (a l) else if x.md = 5 then !un l && (Val.lt (b l) (a l) || Val.eqv (a l) (b l))
      else if x.md = 6 then un l else !un l
    let fl (l : Nat) : BitVec 6 := sourceFlags .f32 [code x.a l, code x.b l] |||
      if un l = true ∧ x.md ∈ [2, 3, 4, 5] then fNV else 0
    NoFpTrap v (realIn v sl x) fl →
    Does (.fcmp x) x s w sl v (((Change.none v).withPred x.aux.pPd (exIn v sl x) holds).withFlags (realIn v sl x) fl))

/-- HADD2, HMUL2 and HFMA2 compute each of two elements on its own, with its own NaN order, rounding and random word; DOT4 sums its
products and C exactly and rounds once (R220, R228, R229). -/
def Parts.PackedAndDotWords : Prop :=
  let codes (s : State) (i : Iss) (x : Body) (l j n : Nat) : List Nat := ([x.a, x.b, x.c].take n).map fun o => srcF s i.v x.ty o l j
  let elem (exact : Body → List Val → Val) (n : Nat) (s : State) (i : Iss) (x : Body) (l j : Nat) : Nat × BitVec 6 :=
    let c := codes s i x l j n
    let r := finish (c.map (decodeF x.ty)) (exact x (c.map (decodeF x.ty))) x.ty (rmOf x.md) (satOf x.md) (drawOf s i (rmOf x.md) l j)
    (r.1, r.2 ||| denormal x.ty c)
  let word (exact : Body → List Val → Val) (n : Nat) (s : State) (i : Iss) (x : Body) (l : Nat) : List Word × BitVec 6 :=
    let e := elem exact n s i x l
    ([BitVec.ofNat 32 ((e 0).1 % 2 ^ 16 + 2 ^ 16 * ((e 1).1 % 2 ^ 16))], (e 0).2 ||| (e 1).2)
  let half (x : Body) : Prop := x.ty = .f16 ∨ x.ty = .bf16
  let at_ (l : List Val) (k : Nat) : Val := (l[k]?).getD .qnan
  let rd (x : Body) : Bool := decide (rmOf x.md = 3)
  FpWordIs .hadd2 .hadd2 (fun _ => 1) drawsRs (fun s i x l r => half x → r = word (fun x v => .sum (rd x) [at_ v 0, at_ v 1]) 2 s i x l) ∧
  FpWordIs .hmul2 .hmul2 (fun _ => 1) drawsRs (fun s i x l r => half x → r = word (fun _ v => .mul (at_ v 0) (at_ v 1)) 2 s i x l) ∧
  FpWordIs .hfma2 .hfma2 (fun _ => 1) drawsRs
    (fun s i x l r => half x → r = word (fun x v => .sum (rd x) [.mul (at_ v 0) (at_ v 1), at_ v 2]) 3 s i x l) ∧
  FpWordIs .dot4 .dot4 (fun _ => 1) drawsRs (fun s i x l r =>
    let js := List.range (32 / fmtBits x.ty)
    let a := js.map fun j => srcF s i.v x.ty x.a l j
    let b := js.map fun j => srcF s i.v x.ty x.b l j
    let c := codeC s i x l
    let vals := (a ++ b).map (decodeF x.ty) ++ [decodeF .f32 c]
    let exact := Val.sum (rd x) (decodeF .f32 c :: (a.zip b).map fun y => .mul (decodeF x.ty y.1) (decodeF x.ty y.2))
    let y := finish vals exact .f32 (rmOf x.md) (satOf x.md) (drawOf s i (rmOf x.md) l 0)
    r = ([BitVec.ofNat 32 y.1], y.2 ||| denormal x.ty (a ++ b) ||| denormal .f32 [c]))

/-! ### Class 100: conversion, special functions, statistics, random words -/

/-- CVT converts its source's value, CVTS the product with the F32 in B: into a float format by one rounding, into an integer by the
nearest integer of its range, an integer into an integer clamped or modulo 2^w. PACK packs consecutive entries, each converted,
or its codes as they are; UNPK converts each packed element into entries, E2M1's under the special value in B (R231 to R235). -/
def Parts.ConversionWords : Prop :=
  FpWordIs .cvt .cvt tyWords drawsRs (fun s i x l r =>
    let f := x.aux.fFmt; let n := srcInt s i.v f x.a l; let c := srcF s i.v f x.a l 0
    let draw := drawOf s i (rmOf x.md) l 0
    (isFloat f = true → let y := convertedTo x.ty [decodeF f c] (decodeF f c) (rmOf x.md) (satOf x.md) draw
      r = (wordsOf (fmt64 x.ty) y.1, y.2 ||| denormal f [c])) ∧
    (isFloat f = false → isFloat x.ty = true → let y := roundTo (.ofInt n) x.ty (rmOf x.md) (satOf x.md) draw
      r = (wordsOf (fmt64 x.ty) y.1, y.2)) ∧
    (isFloat f = false → isFloat x.ty = false → r.2 = 0 ∧ let w := 2 ^ fmtBits x.ty
      r.1 = wordsOf (fmt64 x.ty) ((if satOf x.md then max (intRange x.ty).1 (min (intRange x.ty).2 n) else n) % (w : Nat)).toNat)) ∧
  FpWordIs .cvts .cvts tyWords drawsRs (fun s i x l r =>
    let f := x.aux.fFmt; let a := srcF s i.v f x.a l 0; let b := codeB s i x l
    let y := convertedTo x.ty [decodeF f a, decodeF .f32 b] (.mul (decodeF f a) (decodeF .f32 b)) (rmOf x.md) (satOf x.md)
      (drawOf s i (rmOf x.md) l 0)
    r = (wordsOf (fmt64 x.ty) y.1, y.2 ||| denormal f [a] ||| denormal .f32 [b])) ∧
  FpWordIs .pack .pack (fun _ => 1) drawsRs (fun s i x l r =>
    ∃ e : Nat → Nat × BitVec 6,
      (∀ j, j < perEntry x.ty → let c := srcEntry s i.v x.a j l
        (x.ty = x.aux.fFmt → e j = (c.toNat % 2 ^ fmtBits x.ty, 0)) ∧
        (x.ty ≠ x.aux.fFmt → x.aux.fFmt = .f32 → let v := decodeF .f32 c.toNat
          let y := finish [v] v x.ty (rmOf x.md) (satOf x.md) (drawOf s i (rmOf x.md) l j)
          e j = (y.1, y.2 ||| denormal .f32 [c.toNat])) ∧
        (x.ty ≠ x.aux.fFmt → x.aux.fFmt ≠ .f32 →
          e j = (((if satOf x.md then max (intRange x.ty).1 (min (intRange x.ty).2 c.toInt) else c.toInt) % 256).toNat, 0))) ∧
      r = packed [packCodes x.ty ((List.range (perEntry x.ty)).map fun j => (e j).1)] ((List.range (perEntry x.ty)).map e)) ∧
  FpWordIs .unpk .unpk (fun x => unpkSpan x.ty x.aux.fFmt) drawsRs (fun s i x l r =>
    let f := x.aux.fFmt
    let code (j : Nat) : Nat := (src s i.v x.a l).toNat / 2 ^ (fmtBits f * j) % 2 ^ fmtBits f
    let sv := if f = .e2m1 then (src s i.v x.b l).toNat % 256 else 0x80
    ∃ e : Nat → Nat × BitVec 6,
      (∀ j, j < perEntry f → let v := decodeSv f (code j) sv
        (isFloat f = true → let y := convertedTo x.ty [v] v (rmOf x.md) (satOf x.md) (drawOf s i (rmOf x.md) l j)
          e j = (y.1, y.2 ||| denormal f [code j])) ∧
        (isFloat f = false → e j = ((decodeI f (code j) % 2 ^ 32).toNat, 0))) ∧
      r = packed ((List.range (unpkSpan x.ty f)).map fun k =>
        packCodes x.ty ((((List.range (perEntry f)).map fun j => (e j).1).drop (perEntry x.ty * k)).take (perEntry x.ty)))
        ((List.range (perEntry f)).map e))

/-- BSCALE gives every executing lane the scale and special value of its group of lanes by R236: 1.0 where all is zero, the
largest magnitude by MAXF rounded up, or for E2M1's outlier the next one by 6 and the outlier's own code. QNT rounds A ÷ SCALE,
or takes code 0b1000 where the special value is nearer; DQNT rounds the element times SCALE (R236 to R238). That a code of QNT
leaves the upper bits of its entry 0, and that BSCALE takes any two consecutive entries as D, is the model's choice (log 16).
-/
def Parts.BlockScalingWords : Prop :=
  (∀ s w sl v x, Issues s w sl v → SourcesFull .bscale x v sl → Room s w sl v x 2 → ∀ g : BitVec 9, x.b = some (.lit g) →
    g ∈ [16, 32, 64] → ∃ r : Nat → Nat × Nat,
      (∀ k, k * g.toNat < 64 → ScaleIs x.ty ((((List.range 64).filter fun l =>
        (realIn v sl x).getLsbD l && decide (l / g.toNat = k)).map fun l => decodeF .f32 (srcF s v .f32 x.a l 0)).filter Val.isFin) (r k)) ∧
      Does (.bscale x) x s w sl v (Change.words v (exIn v sl x) fun l =>
        [BitVec.ofNat 32 (r (l / g.toNat)).1, BitVec.ofNat 32 (r (l / g.toNat)).2])) ∧
  FpWordIs .qnt .qnt tyWords drawsRs (fun s i x l r =>
    ∃ y, QuantIs x.ty (rmOf x.md) (satOf x.md) (drawOf s i (rmOf x.md) l 0) (codeA s i x l) (srcEntry s i.v x.b 0 l).toNat
      ((srcEntry s i.v x.b 1 l).toNat % 256) y ∧ r = (wordsOf (fmt64 x.ty) y.1, y.2)) ∧
  FpWordIs .dqnt .dqnt tyWords drawsRs (fun s i x l r =>
    let f := x.aux.fFmt; let c := srcF s i.v f x.a l 0; let sc := (srcEntry s i.v x.b 0 l).toNat
    let va := if f = .i8 then Val.ofInt (decodeI .i8 c) else decodeSv f c ((srcEntry s i.v x.b 1 l).toNat % 256)
    let y := finish [va, decodeF .f32 sc] (.mul va (decodeF .f32 sc)) x.ty (rmOf x.md) (satOf x.md) (drawOf s i (rmOf x.md) l 0)
    r = (wordsOf (fmt64 x.ty) y.1, y.2 ||| (if f = .i8 then 0 else denormal f [c]) ||| denormal .f32 [sc]))

/-- RCP, RSQ, EXP2, LOG2, SIN, COS and TANH give one result per code, `special`, which meets the corner table of R240, and for RCP
the bound of R239 with NX exactly where it is inexact; within its bound a result is the implementation's own choice, a free
constant (log 7). SQRT rounds the root once; RNG draws the next random word (R239, R240, R246). -/
def Parts.SpecialFunctionWords : Prop :=
  let sp (fn : SpecialFn) : State → Iss → Body → Nat → List Word × BitVec 6 := fun s i x l =>
    let r := special fn (codeA s i x l)
    one32 (r.1, r.2 ||| denormal .f32 [codeA s i x l])
  FpWord .rcp .rcp (fun _ => 1) (fun _ => false) (sp .rcp) ∧ FpWord .rsq .rsq (fun _ => 1) (fun _ => false) (sp .rsq) ∧
  FpWord .exp2 .exp2 (fun _ => 1) (fun _ => false) (sp .exp2) ∧ FpWord .log2 .log2 (fun _ => 1) (fun _ => false) (sp .log2) ∧
  FpWord .sin .sin (fun _ => 1) (fun _ => false) (sp .sin) ∧ FpWord .cos .cos (fun _ => 1) (fun _ => false) (sp .cos) ∧
  FpWord .tanh .tanh (fun _ => 1) (fun _ => false) (sp .tanh) ∧
  (∀ fn c, c < 2 ^ 32 → (decodeF .f32 c).isNan = true → special fn c = (quietCode c, sourceFlags .f32 [c])) ∧
  (special .rcp 0 = (0x7F800000, fDZ) ∧ special .rcp 0x80000000 = (0xFF800000, fDZ) ∧
    special .rcp 0x7F800000 = (0, 0) ∧ special .rcp 0xFF800000 = (0x80000000, 0) ∧
    special .rsq 0 = (0x7F800000, fDZ) ∧ special .rsq 0x80000000 = (0xFF800000, fDZ) ∧ special .rsq 0x7F800000 = (0, 0) ∧
    special .exp2 0 = (0x3F800000, 0) ∧ special .exp2 0x80000000 = (0x3F800000, 0) ∧
    special .exp2 0x7F800000 = (0x7F800000, 0) ∧ special .exp2 0xFF800000 = (0, 0) ∧
    special .log2 0 = (0xFF800000, fDZ) ∧ special .log2 0x80000000 = (0xFF800000, fDZ) ∧ special .log2 0x7F800000 = (0x7F800000, 0) ∧
    special .tanh 0x7F800000 = (0x3F800000, 0) ∧ special .tanh 0xFF800000 = (0xBF800000, 0)) ∧
  (∀ c, c = 0 ∨ c = 0x80000000 → special .sin c = (c, 0) ∧ special .cos c = (0x3F800000, 0) ∧ special .tanh c = (c, 0)) ∧
  (special .rsq 0xFF800000 = (0x7FC00000, fNV) ∧ special .log2 0xFF800000 = (0x7FC00000, fNV) ∧
    ∀ c, c = 0x7F800000 ∨ c = 0xFF800000 → special .sin c = (0x7FC00000, fNV) ∧ special .cos c = (0x7FC00000, fNV)) ∧
  (∀ c neg n d, decodeF .f32 c = .fin neg n d → n ≠ 0 →
    (n * 2 ^ 128 ≤ d → special .rcp c = (if neg then 0xFF800000 else 0x7F800000, fOF ||| fNX)) ∧
    (d < n * 2 ^ 128 → let r := special .rcp c; let y := decodeF .f32 r.1; let exact : Int := if neg then -(d : Int) else d
      y.isFin = true ∧ (y.num * n - exact * y.den).natAbs * 2 ^ (-(ulpExp d n)).toNat ≤ 2 ^ (ulpExp d n).toNat * (y.den * n) ∧
        r.2 &&& ~~~(fNX ||| fUF) = 0 ∧ (r.2 &&& fNX ≠ 0 ↔ y.num * n ≠ exact * y.den)) ∧
    (neg = true → special .rsq c = (0x7FC00000, fNV) ∧ special .log2 c = (0x7FC00000, fNV)) ∧
    (neg = false → 128 * d ≤ n → special .exp2 c = (0x7F800000, fOF ||| fNX)) ∧
    (neg = true → 150 * d ≤ n → special .exp2 c = (0, fUF ||| fNX)) ∧
    (∀ k : Nat, n = k * d → (neg = false → k ≤ 127 → special .exp2 c = (0x3F800000 + k * 2 ^ 23, 0)) ∧
      (neg = true → k ≤ 126 → special .exp2 c = (0x3F800000 - k * 2 ^ 23, 0)) ∧
      (neg = true → 126 < k → k ≤ 149 → special .exp2 c = (2 ^ (149 - k), 0))) ∧
    (∀ k : Nat, neg = false → k ≤ 127 → n = 2 ^ k * d → special .log2 c = (rnF32 (.ofInt k), 0)) ∧
    (∀ k : Nat, neg = false → k ≤ 149 → 2 ^ k * n = d → special .log2 c = (rnF32 (.ofInt (-k)), 0)) ∧
    (2 ^ 20 * d < n → special .sin c = (0x7FC00000, fNV) ∧ special .cos c = (0x7FC00000, fNV)) ∧
    (subnormal .f32 c = true → special .cos c = (0x3F800000, fNX)) ∧
    (9 * d ≤ n → special .tanh c = (if neg then 0xBF800000 else 0x3F800000, fNX))) ∧
  FpWordIs .sqrt .sqrt (fun _ => 1) drawsRs (fun s i x l r =>
    let c := codeA s i x l; let dn := denormal .f32 [c]
    (c = 0 ∨ c = 0x80000000 ∨ c = 0x7F800000 → r = ([BitVec.ofNat 32 c], dn)) ∧
    ((decodeF .f32 c).isNan = true → r = ([BitVec.ofNat 32 (quietCode c)], sourceFlags .f32 [c])) ∧
    ((decodeF .f32 c).isNan = false → (decodeF .f32 c).isNeg = true → (decodeF .f32 c).isZero = false → r = ([0x7FC00000], fNV ||| dn)) ∧
    (∀ n d, decodeF .f32 c = .fin false n d → n ≠ 0 → ∃ a b, 0 < b ∧
      (∀ p k, k ≤ 120 + Nat.log2 d → (p * b < a * 2 ^ k ↔ p ^ 2 * d < n * 4 ^ k) ∧ (p * b = a * 2 ^ k ↔ p ^ 2 * d = n * 4 ^ k)) ∧
      let y := roundTo (.fin false a b) .f32 (rmOf x.md) false (drawOf s i (rmOf x.md) l 0)
      r = ([BitVec.ofNat 32 y.1], y.2 ||| dn))) ∧
  FpWord .rng .rng (fun _ => 1) (fun _ => true) (fun s i x l =>
    let y := philox (match descOf s i.v.grid with | some d => d.seed | none => 0) (issuer s i.v l) i.v.rng 0
    ([if x.ty = .f32 then BitVec.ofNat 32 (rnF32 (.scaled false (y.toNat / 2 ^ 8) (-24))) else y], 0))

/-- WUPD, WMRG and WFIN update, merge and finish a running triple, each by the rounded steps of R241 to R243, its flags those
of every step; the triple that D holds is a source under the checks of R51. That an intermediate, too, is a source whose
subnormal sets DN is the model's choice (log 15). -/
def Parts.StatisticsWords : Prop :=
  ∀ s w sl v x, Issues s w sl v →
    let code (o : Option Opd) (j l : Nat) : Nat := (srcEntry s v o j l).toNat
    let gives (i : Instr) (n : Nat) (P : Nat → List Word × BitVec 6 → Prop) : Prop := Room s w sl v x n →
      ∃ r : Nat → List Word × BitVec 6, (∀ l, l < 64 → P l (r l)) ∧ (NoFpTrap v (realIn v sl x) (fun l => (r l).2) →
        Does i x s w sl v ((Change.words v (exIn v sl x) fun l => (r l).1).withFlags (realIn v sl x) fun l => (r l).2))
    (Readable v (needOf (sig .wupd x.ty x.md x.aux).d x.d (exIn v sl x) false ++ needs .wupd x (exIn v sl x)) →
      gives (.wupd x) 3 fun l => UpdatedBy (code x.d 0 l) (code x.d 1 l) (code x.d 2 l) (srcF s v .f32 x.a l 0)) ∧
    (Readable v (needOf (sig .wmrg x.ty x.md x.aux).d x.d (exIn v sl x) false ++ needs .wmrg x (exIn v sl x)) →
      gives (.wmrg x) 3 fun l =>
        MergedBy (code x.d 0 l) (code x.d 1 l) (code x.d 2 l) (code x.a 0 l) (code x.a 1 l) (code x.a 2 l)) ∧
    (SourcesFull .wfin x v sl →
      gives (.wfin x) 2 fun l => FinishedBy (code x.a 0 l) (code x.a 1 l) (code x.a 2 l) (srcF s v .f32 x.b l 0))

/-! ### Class 000: control, and the words of class 111 that move or hold the PC -/

/-- NOP, YIELD, ICINV and PREF only move on; BRA, CALL, RET and JMPX go to their target where the guard holds over the
mask, BRD too, CALL leaving the return offset in D; where the guard holds nowhere they move on (R186 to R190, R193, R256,
R300). -/
def Obligations.UniformControlWords : Prop :=
  ∀ s w sl v x, Issues s w sl v → let ex := exIn v sl x; let lanes := lanesIn v sl; let pc := (v.slot sl).pc
    WaveBecomes (.nop x) s w (moved v sl) ∧ WaveBecomes (.icinv x) s w (moved v sl) ∧
    WaveBecomes (.yield x) s w (moved { v with yielded := true } sl) ∧
    (SourcesFull .pref x v sl → WaveBecomes (.pref x) s w (moved v sl)) ∧
    (ex ≠ lanes → ex = 0 → ∀ i ∈ [Instr.bra x, .brd x, .call x, .ret x, .jmpx x], WaveBecomes i s w (moved v sl)) ∧
    (ex = lanes → Untraced s v.ctx 3 →
      WaveBecomes (.bra x) s w (jumped v sl (pc + x.aux.bTgt.signExtend 32 * 16)) ∧
      WaveBecomes (.brd x) s w (jumped v sl (pc + x.aux.bTgt.signExtend 32 * 16)) ∧
      (∃ v1 : Wave, { v1 with ents := v.ents } = v ∧
        (∀ e l, l < 64 → v1.cell e l = dstCell v x.d lanes (fun _ => [pc + 16]) e l) ∧
        WaveBecomes (.call x) s w (jumped v1 sl (pc + x.aux.bTgt.signExtend 32 * 16))) ∧
      (∀ t : Word, lanes ≠ 0 → (∀ l, l < 64 → lanes.getLsbD l = true → src s v x.a l = t) → t.toNat % 16 = 0 →
        (Readable v (needs .ret x lanes) → WaveBecomes (.ret x) s w (jumped v sl t)) ∧
        (Readable v (needs .jmpx x lanes) → WaveBecomes (.jmpx x) s w (jumped v sl t))))

/-- BRA, CALL, RET and JMPX under a guard that differs over the mask take BRUNI, RET and JMPX also where A differs over it, and
ALIGN where A is no multiple of 16; BRD under such a guard takes DSTKOVF where neither the other slot nor the stack has room
(R187 to R190). -/
def Parts.ControlWordsTrap : Prop :=
  ∀ s w sl v x, Issues s w sl v → let ex := exIn v sl x; let lanes := lanesIn v sl
    (ex ≠ lanes → ex ≠ 0 → ∀ i ∈ [Instr.bra x, .call x, .ret x, .jmpx x], Traps i s w v (wordTrap v sl 0x07 lanes 0 0)) ∧
    (ex = lanes → ∀ y ∈ [(Instr.ret x, Op.ret), (.jmpx x, .jmpx)], Readable v (needs y.2 x lanes) →
      (∀ k l, k < 64 → l < 64 → lanes.getLsbD k = true → lanes.getLsbD l = true → src s v x.a k ≠ src s v x.a l →
        Traps y.1 s w v (wordTrap v sl 0x07 lanes 0 0)) ∧
      ∀ t : Word, lanes ≠ 0 → (∀ l, l < 64 → lanes.getLsbD l = true → src s v x.a l = t) → t.toNat % 16 ≠ 0 →
        Traps y.1 s w v (wordTrap v sl 0x0B lanes 0 0)) ∧
    (ex ≠ lanes → ex ≠ 0 → (v.slot (1 - sl)).live = true → stackLimit s v ≤ v.stack.length →
      Traps (.brd x) s w v (wordTrap v sl 0x08 lanes 0 0))

/-- A BRD under a guard that differs keeps the lanes that fall through in its slot and puts the taken ones into the free
slot, or onto the divergence stack with their join PC, and into its table (R60, R62, R188). -/
def Parts.DivergentBranchSplitsItsLanes : Prop :=
  ∀ s w sl v x, Issues s w sl v → Untraced s v.ctx 3 → let ex := exIn v sl x; let pc := (v.slot sl).pc
    ex ≠ lanesIn v sl → ex ≠ 0 →
    let tgt : Word := pc + x.aux.bTgt.signExtend 32 * 16
    let rest : Slot := { slotAfter (v.slot sl) with mask := (v.slot sl).mask &&& ~~~ex }
    ((v.slot (1 - sl)).live = false →
      WaveBecomes (.brd x) s w { (v.setSlot (1 - sl) (.at_ tgt ex)).setSlot sl rest with lastSlot := sl }) ∧
    ((v.slot (1 - sl)).live = true → v.stack.length < stackLimit s v →
      let e : StkEntry := ⟨ex, tgt, pc + x.aux.bJoin.signExtend 32 * 16⟩
      ∃ f, TableTakes v.frame f v.stack.length e ∧
        WaveBecomes (.brd x) s w { v.setSlot sl rest with stack := e :: v.stack, frame := f, lastSlot := sl })

/-- JOIN meets the other slot held there, pops or swaps the top of the stack, goes on alone, or is held; EXIT takes its
lanes out of the slot, and a slot without lanes takes the next entry of the stack; a wave whose other slot waits at a seam then
is SEATWAIT (R61, R189, R191, R330). -/
def Parts.JoinsAndExitsRegroupLanes : Prop :=
  ∀ s w sl v x, Issues s w sl v → let a := v.slot sl; let o := v.slot (1 - sl)
    let held : Slot := { slotAfter a with pc := a.pc, hold := .join }
    (o.live = true → o.hold = .join → o.pc = a.pc →
      WaveBecomes (.join x) s w { v with
        slot0 := .at_ (a.pc + 16) (a.mask ||| o.mask), lastSlot := sl
        slot1 := match v.stack with | [] => .free | e :: _ => .at_ e.pc e.mask
        stack := v.stack.tail }) ∧
    (o.live = false → v.stack = [] → WaveBecomes (.join x) s w { v.setSlot sl (.at_ (a.pc + 16) a.mask) with lastSlot := sl }) ∧
    (o.live = true → (o.hold ≠ .join ∨ o.pc ≠ a.pc) →
      (v.stack = [] → WaveBecomes (.join x) s w { v.setSlot sl held with lastSlot := sl }) ∧
      (∀ e t, v.stack = e :: t →
        (e.join = a.pc → e.pc = a.pc →
          WaveBecomes (.join x) s w { v.setSlot sl (.at_ (a.pc + 16) (a.mask ||| e.mask)) with stack := t, lastSlot := sl }) ∧
        (e.join = a.pc → e.pc ≠ a.pc →
          ∃ f, TableTakes v.frame f t.length ⟨a.mask, a.pc, a.pc⟩ ∧
            WaveBecomes (.join x) s w { v.setSlot sl (.at_ e.pc e.mask) with
              stack := ⟨a.mask, a.pc, a.pc⟩ :: t, frame := f, lastSlot := sl }) ∧
        (e.join ≠ a.pc → WaveBecomes (.join x) s w { v.setSlot sl held with lastSlot := sl }))) ∧
    (let m := a.mask &&& ~~~(exIn v sl x);
      (m ≠ 0 → a.hold = .none → WaveBecomes (.exit x) s w { v.setSlot sl { slotAfter a with mask := m } with lastSlot := sl }) ∧
      (∀ e t, m = 0 → o.live = true → v.stack = e :: t →
        WaveBecomes (.exit x) s w { v.setSlot sl (.at_ e.pc e.mask) with stack := t, lastSlot := sl }) ∧
      (m = 0 → o.live = true → v.stack = [] →
        (∀ c, o.hold = .seam c → WaveBecomes (.exit x) s w { v.setSlot sl .free with
          lastSlot := sl, st := if v.st = .seated then .seatwait else v.st, waitSince := s.tick.toNat }) ∧
        ((∀ c, o.hold ≠ .seam c) → WaveBecomes (.exit x) s w { (v.setSlot sl .free).setSlot (1 - sl)
          (if o.hold = .join then { slotAfter o with hold := .none } else o) with lastSlot := sl })))

/-- EXIT of a wave's last lanes ends the wave, a HALTED one only once it is released (R191, R330). -/
def Parts.ExitOfTheLastLanesEndsTheWave : Prop :=
  ∀ s w sl v x, Issues s w sl v → (v.slot sl).mask &&& ~~~(exIn v sl x) = 0 → (v.slot (1 - sl)).live = false → v.stack = [] →
    (v.st ≠ .halted → ∃ t v', Machine.exec (.exit x) s = .next t ∧ t.wave? w = some v' ∧ v'.st = .ended ∧ v'.seat = none ∧
      v'.slot0.live = false ∧ v'.slot1.live = false ∧ v'.bufD = [] ∧ v'.bufS = [] ∧ v'.ents = v.ents ∧ t.mem = s.mem) ∧
    (v.st = .halted → WaveBecomes (.exit x) s w { v.setSlot sl .free with lastSlot := sl })

/-- SEAM, WCNT, CPYW and BARW lose the entries that do not survive them, in the lanes of the slot, and go on or wait for
their condition; a SEAM with an executing lane always waits, for an EMPTY source of it that survives too (R52, R192, R269,
R270). -/
def Obligations.SeamsLoseAndWait : Prop :=
  ∀ s w sl v x, Issues s w sl v → let ex := exIn v sl x
    (ex = 0 → ∀ i ∈ [Instr.seam x, .barw x], SeamDone i s w sl v x True .ready) ∧
    (ex ≠ 0 → SourcesFull .seam x v sl → SeamDone (.seam x) s w sl v x False .ready) ∧
    (∀ a e, x.a = some a → opdEnt a = some e → x.eb.getLsbD 2 = false → x.aux.sSub.getLsbD 0 = true →
      (∀ l, l < 64 → ex.getLsbD l = true → (v.cell e l).st ≠ .lost) → (∃ l p, l < 64 ∧ ex.getLsbD l = true ∧ (v.cell e l).st = .empty p) →
      SeamDone (.seam x) s w sl v x (e < 40 ∧ (if e < 8 then x.aux.sSh.getLsbD e else x.aux.sSn.getLsbD (e - 8)) = false) (.source e ex)) ∧
    (SourcesFull .wcnt x v sl → let k := (x.aux.sSub.extractLsb' 0 3).toNat; let n := (src s v x.a (lowLane ex)).toNat
      SeamDone (.wcnt x) s w sl v x (ex = 0 ∨ v.path k ≤ n) (.path k n)) ∧
    (SourcesFull .cpyw x v sl → let n := (src s v x.a (lowLane ex)).toNat
      SeamDone (.cpyw x) s w sl v x (ex = 0 ∨ v.path 2 ≤ n) (.path 2 n)) ∧
    (ex ≠ 0 → ∀ b, s.block? v.blk = some b → let n : Fin 16 := (x.aux.sSub.extractLsb' 0 4).toFin
      SeamDone (.barw x) s w sl v x ((b.bars[n].arrived.getLsbD v.idx || b.bars[n].pending.getLsbD v.idx) = false) (.bar n.val))

/-- TRAP enters the handler with INFO imm and resumes past itself, TRAP.BRK and HALT put the wave into the debug halt, a parked
one once its parking ends, and SLEEPT holds the slot for A ticks; RTT outside a handler takes ILLCTX (R297 to R299, R301). -/
def Parts.TrapHaltAndSleep : Prop :=
  ∀ s w sl v x, Issues s w sl v → let ex := exIn v sl x; let pc := (v.slot sl).pc
    (ex = 0 → ∀ i ∈ [Instr.trap x, .rtt x, .halt x], WaveBecomes i s w (moved v sl)) ∧
    (ex ≠ 0 → x.aux.iBrk = false → Traps (.trap x) s w v ⟨0x12, false, false, sl, x.aux.iImm, pc, pc + 16, ex, 0, [], ex⟩) ∧
    (ex ≠ 0 → v.st = .seated ∨ v.st = .seatwait → Untraced s v.ctx 6 →
      (x.aux.iBrk = true → WaveBecomes (.trap x) s w { v with
        st := .halted, halt := ⟨2, 0, (v.slot sl).mask, x.aux.iImm, s.tick⟩, haltDue := none, gangHalt := none }) ∧
      WaveBecomes (.halt x) s w { moved v sl with
        st := .halted, halt := ⟨1, 0, (v.slot sl).mask, 0, s.tick⟩, haltDue := none, gangHalt := none }) ∧
    (ex ≠ 0 → v.st = .parked → v.haltDue = none →
      (x.aux.iBrk = true → WaveBecomes (.trap x) s w { v with
        haltDue := some ⟨2, 0, (v.slot sl).mask, x.aux.iImm, s.tick⟩, gangHalt := none }) ∧
      WaveBecomes (.halt x) s w { moved v sl with haltDue := some ⟨1, 0, (v.slot sl).mask, 0, s.tick⟩, gangHalt := none }) ∧
    (SourcesFull .sleept x v sl → let n := (src s v x.a (lowLane ex)).toNat
      WaveBecomes (.sleept x) s w (if ex = 0 ∨ n = 0 then moved v sl else
        (moved v sl).setSlot sl { (moved v sl).slot sl with hold := .sleep (s.tick.toNat + n) })) ∧
    (ex ≠ 0 → v.inHandler = false → Traps (.rtt x) s w v (wordTrap v sl 0x04 ex 0 0))

/-- RTT restores from the frame the PCs, masks and holds of the slots, the stack's depth, the bases, predicates, FPFLAGS,
FPEN and every H and N entry with its state, EMPTY only while its producer is attached; the stack's entries are those of its
table, and other state, the frame's bytes among it, is as it is (R57, R62, R298). A frame whose live masks overlap or are empty is a double fault. -/
def Parts.ReturnFromTrapRestoresTheFrame : Prop :=
  ∀ s w sl v x, Issues s w sl v → exIn v sl x ≠ 0 → v.inHandler = true →
    let f := v.frame
    let live (k : Nat) : Prop := frameNat f (0x28 + k) 1 % 2 = 1
    let mask (k : Nat) : Mask := BitVec.ofNat 64 (frameNat f (0x18 + 8 * k) 8)
    let good : Prop := (∀ k, k < 2 → live k → mask k ≠ 0) ∧ (live 0 → live 1 → mask 0 &&& mask 1 = 0)
    (¬ good → Untraced s v.ctx 4 → (s.grid? v.grid).isSome = true →
      Machine.exec (.rtt x) s = .next (gridFault s v.grid 0x02 (issuer s v (lowLane v.liveMask)))) ∧
    (good → ∃ v', WaveBecomes (.rtt x) s w v' ∧ v'.inHandler = false ∧
      (∀ k, k < 2 → (live k → (v'.slot k).live = true ∧ (v'.slot k).pc.toNat = frameNat f (0x10 + 4 * k) 4 ∧ (v'.slot k).mask = mask k ∧
          ((v'.slot k).hold = .join ↔ frameNat f (0x28 + k) 1 / 2 % 2 = 1)) ∧
        (¬ live k → (v'.slot k).live = false)) ∧
      v'.stack.length = frameNat f 3 1 ∧
      (∀ i, i < frameNat f 3 1 → v'.stack.reverse[i]? = some (let a := frameSize + 32 * i
        ⟨BitVec.ofNat 64 (frameNat f a 8), BitVec.ofNat 32 (frameNat f (a + 16) 4), BitVec.ofNat 32 (frameNat f (a + 20) 4)⟩)) ∧
      (∀ i : Fin 8, (v'.base i).toNat = frameNat f (0x40 + 16 * i.val) 9) ∧
      (∀ p, p < 7 → (v'.pred p).toNat = frameNat f (0xC0 + 8 * p) 8) ∧
      (∀ l, l < 64 → v'.flag l = BitVec.ofNat 6 (frameNat f (0x100 + 4 * l) 4)) ∧ v'.fpen = BitVec.ofNat 6 (frameNat f 0x2C 4) ∧
      (∀ e l, e < 40 → l < 64 → let c := frameNat f (0x2C00 + 16 * e + l / 4) 1 / 4 ^ (l % 4) % 4
        ((v'.cell e l).st ≠ .lost → (v'.cell e l).val.toNat = frameNat f (0x400 + 256 * e + 4 * l) 4) ∧
        (c = 0 ↔ (v'.cell e l).st = .full) ∧
        (∀ p, (v'.cell e l).st = .empty p ↔ c = 1 ∧ kget v.frameAtt (64 * e + l) = some p ∧ (kget s.prods p).isSome = true)) ∧
      (∀ e l, 40 ≤ e → l < 64 → v'.cell e l = v.cell e l) ∧
      { v' with
        slot0 := v.slot0, slot1 := v.slot1, stack := v.stack, ents := v.ents, bases := v.bases, preds := v.preds, flags := v.flags
        fpen := v.fpen, frameAtt := v.frameAtt, frameHold0 := v.frameHold0, frameHold1 := v.frameHold1
        frameDenied0 := v.frameDenied0, frameDenied1 := v.frameDenied1, inHandler := v.inHandler } = v)

/-- Before a word has its effect its sources are checked as R51 says: a LOST one is STRANDLOSS, an EMPTY one under a caret
EMPTYTRAP, and another EMPTY one stalls the slot. -/
def Parts.SourcesAreCheckedInOrder : Prop :=
  ChecksSources .iadd .iadd ∧ ChecksSources .imad .imad ∧ ChecksSources .shl .shl ∧ ChecksSources .pset .pset ∧ ChecksSources .mov .mov ∧
  ChecksSources .xlIdx .xlIdx ∧ ChecksSources .red .red ∧ ChecksSources .ffma .ffma ∧ ChecksSources .cvt .cvt ∧ ChecksSources .rcp .rcp ∧
  ChecksSources .ld .ld ∧ ChecksSources .st .st ∧ ChecksSources .lds .lds ∧ ChecksSources .sts .sts ∧ ChecksSources .atomAdd .atomAdd ∧
  ChecksSources .redsAdd .redsAdd ∧ ChecksSources .wcnt .wcnt ∧ ChecksSources .bara .bara ∧ ChecksNeeds .cpy (fun w sl v x => copyNeeds x (issOf .cpy x w sl v)) ∧
  ChecksSources .swr .swr ∧ ChecksSources .sleept .sleept ∧ ChecksSources .hrd .hrd

/-! ### Events of seats and waiting slots -/

/-- SEAT_GRANT seats the wave at its bench's refill pointer, which then takes a halt that has waited for its seat; UNSEAT
takes the seat of the SEATWAIT wave that has waited longest, and a forced unseat of a SEATED wave, or of a PARKED one a slot of
which starves (that a page may then hold other lanes of its load is the model's choice, log 72), or an expired parking limit
leaves the wave FORCED with every entry as it is, counted; no other state changes (R55, R330 to R332, R385). A bench offers
four seats, core 0's B3 three beside the porter's (R36; which one the porter holds is the model's choice, log 66). -/
def Parts.SeatsAreGrantedAndTaken : Prop :=
  ∀ s w v, s.wave? w = some v → Untraced s v.ctx 5 →
    let seats (b : Nat) : Nat := if b % 32 = 3 then 3 else 4
    (∀ k, k < seats (benchOf v.place) → (∀ u y, (u, y) ∈ benchWaves s (benchOf v.place) → y.seat ≠ some k) →
      refillPick s (benchOf v.place) = some w → ctxLive s v.ctx = true → let v1 : Wave := { v with st := .seated, seat := some k, forced := false }
      let seated (v2 : Wave) : State := { s with
        waves := kput s.waves w v2, refill := kput s.refill (benchOf v.place) (16 * v.age + v.place.slot + 1) }
      (v.haltDue = none → exec (.seatGrant w k) s = .next (seated v1)) ∧
      (∀ h, v.haltDue = some h → Untraced s v.ctx 6 → exec (.seatGrant w k) s = .next (seated { v1 with
        st := .halted, halt := { h with tick := s.tick }, haltDue := none, gangHalt := none }))) ∧
    ((w, v) ∈ benchWaves s s.unit → v.st = .seatwait → v.stack = [] → ctxLive s v.ctx = true →
      (∀ u y, (u, y) ∈ benchWaves s s.unit → (u, y) ≠ (w, v) → y.st = .seatwait → y.stack = [] → ctxLive s y.ctx = true →
        v.waitSince < y.waitSince) →
      ((benchWaves s s.unit).filter fun y => y.2.seat.isSome).length = seats s.unit →
      (∃ u y, (u, y) ∈ benchWaves s s.unit ∧ y.st = .ready ∧ ctxLive s y.ctx = true) →
      exec .unseat s = .next { s with waves := kput s.waves w { v with st := .lodged, seat := none } }) ∧
    (s.unit = w → v.seat.isSome = true → let v1 : Wave := { v with
        st := .forced, forced := true, seat := none, slot0 := savedSlot v.slot0, slot1 := savedSlot v.slot1 }
      (ctxLive s v.ctx = true →
        ((v.st = .seated ∨ v.st = .parked) ∧ (∃ sl, sl < 2 ∧ (v.slot sl).live = true ∧ 4096 < (v.slot sl).starveClocks)) ∨
          (v.st = .seated ∧ v.waiting = false ∧ ∀ sl, sl < 2 → (v.slot sl).live = true → 4096 ≤ (v.slot sl).clocks) →
        exec .forcedUnseat s = .next (countEvent { s with waves := kput s.waves w v1 } v.ctx 0)) ∧
      (∀ t, v.parkTime = some t → (v.st = .seated ∨ v.st = .seatwait ∨ v.st = .parked) → ctxHalted s v.ctx = false →
        wavePages s w = true → s.cfg.parklimit < t →
        exec .parklimitExpiry s = .next (countEvent { s with waves := kput s.waves w v1 } v.ctx 0)))

/-- A slot goes on past its seam once its condition holds, one with nothing to wait for only as it next issues, when its
wave, if unseated, is READY for a seat; a wave that an eviction saves here stays; a sleeping slot once its tick has come, and an inspector whose
step has waited 65,536 ticks receives WAITS; a drowsy bank's waking changes nothing (R301, R312, R330, R432). -/
def Parts.WaitingSlotsGoOn : Prop :=
  (∀ s w v sl c, s.wave? w = some v → sl < 2 → (v.slot sl).hold = .seam c → v.alive = true → v.st ≠ .saved → v.st ≠ .halted →
    ctxLive s v.ctx = true → condHolds s v c = true → evictHere s v = false → inspectorsOf s w sl = [] →
    exec (.seamWaitEnd w sl) s = .next { s with
      waves := kput s.waves w (if c = .ready then { v with st := if v.st = .lodged then .ready else v.st } else
        { v.setSlot sl { slotAfter (v.slot sl) with hold := .none } with
          st := if v.st = .seatwait then .seated else if v.st = .lodged then .ready else v.st }) }) ∧
  (∀ s w v sl t, s.wave? w = some v → sl < 2 → (v.slot sl).hold = .sleep t → t ≤ s.tick.toNat →
    exec (.sleeptExpiry w sl) s = .next { s with waves := kput s.waves w (v.setSlot sl { savedSlot (v.slot sl) with hold := .none }) }) ∧
  (∀ s w sl lane u k y d ex since, inspectorsOf s w sl = [(u, k)] → s.wave? u = some y → k < 2 →
    (y.slot k).hold = .inspect w sl lane d ex since → since + 65536 ≤ s.tick.toNat →
    exec (.hstepWaitTimeout w sl) s = .next { s with
      waves := kmod s.waves u fun y => (writeD y d ex fun _ => [7]).v.modSlot k fun a => { a with hold := .none } }) ∧
  ∀ s b k, exec (.drowsyBankWake b k) s = .next s

/-! ### Events of the homes -/

/-- The steps of COMMIT.SYS at a home and at the committer, and what other modules ask, each act at one point: a staged
share changes no byte, APPLY writes it, the last acknowledgement posts the host's bytes and ends the slot's hold; a share of
a commit that failed elsewhere is discarded; a checked commit that no longer checks is withdrawn; an access that reaches a
staged byte waits, and each later one of its agent behind it; without a port that carries flits no message acts (R111, R113 to
R118, R389). That this module holds the domain's order point (log 54), that another module's bytes enter and are read under key 0
(log 11), and that a checked commit takes its one point at the last acknowledgement (log 33) are the model's choices. -/
def Parts.CommitMessagesActAtTheirHomes : Prop :=
  (∀ s src cid share, Linked s → NoneWaits s (.sysStageReceive src cid share) → (∀ x ∈ share, stagedByte s x.1 = false) →
    exec (.sysStageReceive src cid share) s = .next { s with staged := s.staged ++ [⟨src, cid, share.filter fun x => isDevice s x.1⟩] }) ∧
  (∀ s src cid share, Linked s → s.staged.find? (fun x => x.src = src && x.cid = cid) = some ⟨src, cid, share⟩ →
    (∀ x ∈ share, isDevice s x.1 = true) →
    ∃ t, exec (.sysApplyReceive src cid) s = .next t ∧
      DeviceTakes { s with staged := s.staged.filter fun y => !(y.src = src && y.cid = cid) } t 0 none share) ∧
  (∀ s c, kget s.sysCommits s.unit = some c → c.applied = false → (∀ m ∈ c.homes, homeCut s m = false) → c.check = false →
    Unrecorded s c.ctx → (∀ x ∈ c.share, homeOf s x.1 ≠ .wake) → ∃ t, exec .sysStageAck s = .next t ∧
      DeviceTakes { s with sysCommits := kput s.sysCommits s.unit { c with applied := true } } t (keyOf s c.ctx) (some c.wave)
        (c.share.filter fun x => isDevice s x.1)) ∧
  (∀ s c v, kget s.sysCommits s.unit = some c → c.applied = true → c.finished = false → s.wave? c.wave = some v →
    waveLives s c.wave = true → (∀ m ∈ c.homes, homeCut s m = false) → (∀ x ∈ c.host, ∃ a, homeOf s x.1 = .host a) →
    ∃ t v', exec .sysApplyAck s = .next t ∧ t.wave? c.wave = some v' ∧ t.sysCommits = kput s.sysCommits s.unit { c with finished := true } ∧
      (∀ a, memGet t.mem a = (lastByte c.host a).getD (memGet s.mem a)) ∧
      (∀ sl, (v'.slot sl).hold = if (v.slot sl).hold = .sysCommit s.unit then .none else (v.slot sl).hold) ∧
      { v' with slot0 := v.slot0, slot1 := v.slot1, frameHold0 := v.frameHold0, frameHold1 := v.frameHold1 } = v ∧
      t.mods = healed s c.host ∧
      { t with mem := s.mem, memKey := s.memKey, waves := s.waves, sysCommits := s.sysCommits, mods := s.mods } = s) ∧
  (∀ s c v, kget s.sysCommits s.unit = some c → c.applied = false → (∀ m ∈ c.homes, homeCut s m = false) → c.check = true →
    s.wave? c.wave = some v → LoadsRead s c.wave → (∀ y ∈ v.trk.bytes, isDevice s y.2 = true) → reasonOf v.trk 3 ≠ 0 →
    ∃ v', exec .sysStageAck s = .next { s with sysCommits := kdel s.sysCommits s.unit, waves := kmod s.waves c.wave fun _ => v' } ∧
      (∀ sl, (v'.slot sl).hold = if (v.slot sl).hold = .sysCommit s.unit then .none else (v.slot sl).hold) ∧
      { v' with slot0 := v.slot0, slot1 := v.slot1, frameHold0 := v.frameHold0, frameHold1 := v.frameHold1 } = v) ∧
  (∀ s c v b g place, s.sysCommits = [(s.unit, c)] → c.applied = false → (∀ m ∈ c.homes, homeCut s m = false) → c.check = true →
    s.wave? c.wave = some v → (∀ y ∈ v.trk.bytes, isDevice s y.2 = true) → reasonOf v.trk 3 = 0 → let s0 := { s with sysCommits := [] }
    CommitReady s0 c.wave v b g 4 place → c.share = putAll [] ((gangBytes v b g).map fun y => (place y.1, y.2)) →
    ∃ u v1 t d, Committed s0 u c.wave v v1 b g 2 place ∧ d.share = c.share ∧ d.wave = c.wave ∧ d.applied = true ∧ d.check = true ∧
      DeviceTakes { u with
        gangs := kmod s.gangs v.gang fun g => { g with pool := [] }, waves := kmod u.waves c.wave fun v => { v with denied := [] } } t
        (keyOf s c.ctx) (some c.wave) c.share ∧
      exec .sysStageAck s = .next { t with sysCommits := [(s.unit, d)], nextId := s.nextId + 1 }) ∧
  (∀ s src share, Linked s → NoneWaits s (.remoteCarryShare src share) → (∀ r ∈ s.hall, ∀ a n, r.span = some (a, n) → ∀ x ∈ share, x.1 < a ∨ a + n ≤ x.1) →
    (∀ x ∈ share, isDevice s x.1 = true ∧ stagedByte s x.1 = false) →
    ∃ t, exec (.remoteCarryShare src share) s = .next t ∧ DeviceTakes s t 0 none share) ∧
  (∀ s src, Linked s → exec (.apauxRequest src .ticket) s = .next { s with bus := BitVec.ofNat 64 s.tickets, tickets := s.tickets + 1 }) ∧
  (∀ s src pa n, Linked s → NoneWaits s (.apauxRequest src (.load pa n)) → PlainRange s pa n →
    ∃ r : DWord, exec (.apauxRequest src (.load pa n)) s = .next { s with bus := r } ∧
      r = BitVec.ofNat 64 (leNat ((List.range n).map fun i => readKeyed s 0 (pa + i)))) ∧
  (∀ s src pa op ty wide b c, let n := if wide then 8 else 4; let i : Instr := .apauxRequest src (.atom pa op ty wide b c)
    Linked s → NoneWaits s i → PlainRange s pa n → (∀ r ∈ s.hall, ∀ a k, r.span = some (a, k) → pa + n ≤ a ∨ a + k ≤ pa) →
    let old := leNat ((List.range n).map fun i => readKeyed s 0 (pa + i))
    ∃ t, exec i s = .next { t with bus := BitVec.ofNat 64 old } ∧
      (∀ d, atomNew op ty wide old b.toNat c.toNat = some d → DeviceTakes s t 0 none (bytesAt pa n d)) ∧
      (atomNew op ty wide old b.toNat c.toNat = none → t = s)) ∧
  (∀ s src cid, Linked s → exec (.apauxRequest src (.discard cid)) s = .next { s with
    staged := s.staged.filter fun y => !(y.src = src && y.cid = cid)
    waiting := s.waiting.filter fun i => match i with | .sysStageReceive a b _ => !(a = src && b = cid) | _ => true }) ∧
  (∀ s i, ¬ Linked s → s.unit ≠ 1 → ((∃ src cid share, i = .sysStageReceive src cid share) ∨ (∃ src cid, i = .sysApplyReceive src cid) ∨
    (∃ src share, i = .remoteCarryShare src share) ∨ ∃ src r, i = .apauxRequest src r) → exec i s = .next s) ∧
  ∀ s i, Linked s → s.recovery = false → ((∃ src cid share, i = .sysStageReceive src cid share ∧ ∃ x ∈ share, stagedByte s x.1 = true) ∨
      (∃ src share, i = .remoteCarryShare src share ∧ ∃ x ∈ share, stagedByte s x.1 = true) ∨
      (∃ core c pa n, core < 16 ∧ isDevice s pa = true ∧ i = .stewardAccess core c (.load pa n) ∧ ∃ k, k < n ∧ stagedByte s (pa + k) = true) ∨
      ∃ core c pa l, core < 16 ∧ isDevice s pa = true ∧ i = .stewardAccess core c (.store pa l) ∧ ∃ k, k < l.length ∧ stagedByte s (pa + k) = true) →
    exec i s = .next { s with waiting := s.waiting ++ [i] }

/-- A steward core's access acts at its byte's home under its context's key, in the power window a privileged context's alone, and
after its store to CLQREQ only once the tick has ended; the host's writes and reads reach device memory through BAR2 and the
command slots and registers through BAR0, and form wakes through BAR4 (R119, R120, R434, R441, R448, R451). -/
def Parts.StewardAndHostAccessTheirHomes : Prop :=
  (∀ s core c pa n, core < 16 → s.recovery = false → core ∉ s.mods.coreHold → NoneWaits s (.stewardAccess core c (.load pa n)) →
    (∀ i, i < n → stagedByte s (pa + i) = false) → homeOf s pa ≠ .power → homeOf s pa ≠ .mgmt →
    (∀ m, homeOf s pa = .module m → m ∉ s.unreach ∧ homeCut s m = false) →
    exec (.stewardAccess core c (.load pa n)) s = .next { s with bus := BitVec.ofNat 64 (devNat s c pa n), free := s.free + 1 }) ∧
  (∀ s core c pa l, core < 16 → s.recovery = false → core ∉ s.mods.coreHold → NoneWaits s (.stewardAccess core c (.store pa l)) → l ≠ [] → PlainRange s pa l.length →
    ∃ t, exec (.stewardAccess core c (.store pa l)) s = .next t ∧ DeviceTakes s t (keyOf s c) none (bytesFrom pa l)) ∧
  (∀ s core c cl r v, core < 16 → s.recovery = false → core ∉ s.mods.coreHold → isPriv s c = true →
    NoneWaits s (.stewardAccess core c (.load 0 0)) → homeOf s (s.cfg.pwrBase + 0x1000 * cl + r) = .power → cl < 64 → (∀ i, i < 4 → stagedByte s (s.cfg.pwrBase + 0x1000 * cl + r + i) = false) →
    s.cfg.pwrBase % 2 ^ 48 = s.cfg.pwrBase → s.cfg.pwrBase + 2 ^ 36 < 2 ^ 48 →
    r ∈ [0x00, 0x04, 0x08, 0x0C, 0x10, 0x14, 0x18, 0x1C, 0x20, 0x24, 0x28, 0x2C, 0x30] → v < 2 ^ 32 →
    exec (.stewardAccess core c (.load (s.cfg.pwrBase + 0x1000 * cl + r) 4)) s = .next { s with bus := BitVec.ofNat 64 (powerReg s cl r) } ∧
    exec (.stewardAccess core c (.store (s.cfg.pwrBase + 0x1000 * cl + r) (leBytes 4 v))) s =
      (let t := powerWrite s cl r v
       .next (if r = 0 then { t with mods := { t.mods with coreHold := t.mods.coreHold ++ [core] } } else t))) ∧
  (∀ s core c i, core < 16 → s.recovery = false → (∃ pa n, i = Instr.stewardAccess core c (.load pa n) ∧ homeOf s pa = .power) ∨
      (∃ pa l, i = .stewardAccess core c (.store pa l) ∧ homeOf s pa = .power) →
    (isPriv s c = false → exec i s = .next s) ∧
    (isPriv s c = true → core ∈ s.mods.coreHold → exec i s = .next { s with waiting := s.waiting ++ [i] })) ∧
  (∀ s n off l, NoneWaits s (.hostRead 0 0 0) → n < 32 → off < 256 → (l.length = 4 ∨ l.length = 8) → off % l.length = 0 →
    exec (.hostPostedWrite 0 (256 * n + off) l) s = .next { s with
      slots := kput s.slots (32 + n) (slotWriteAll (cmdSlot s (32 + n)) off l) }) ∧
  (∀ s off l, s.recovery = false → NoneWaits s (.hostRead 0 0 0) → s.mods.h2dEn = true → ctxLive s s.mods.h2dCtx = true → l ≠ [] →
    off + l.length ≤ 2 ^ 36 → PlainRange s (bar2Pa s off) l.length →
    (∃ t, exec (.hostPostedWrite 2 off l) s = .next t ∧ DeviceTakes s t (keyOf s s.mods.h2dCtx) none (bytesFrom (bar2Pa s off) l)) ∧
    exec (.hostRead 2 off l.length) s = .next { s with bus := BitVec.ofNat 64 (devNat s s.mods.h2dCtx (bar2Pa s off) l.length) }) ∧
  (∀ s q v, s.recovery = false → NoneWaits s (.hostRead 0 0 0) → s.mods.h2dEn = true → ctxLive s s.mods.h2dCtx = true → q < 2 ^ 20 → s.cfg.wakeBase % 2 ^ 36 = 0 →
    0xC000000000 ≤ s.cfg.wakeBase → s.cfg.wakeBase ≤ 0xFFFFFFFFFF → s.cfg.modid < 256 → s.cfg.vwin ≤ 24 →
    exec (.hostPostedWrite 4 (2 ^ 16 * q) (leBytes 4 v)) s = exec (.wakeStore q s.mods.h2dCtx (BitVec.ofNat 32 v)) s)

/-- A wake from the queue's own context writes WIDX, and the time for which RIDX = WIDX has held runs on only where it still does: an IDLE queue waits for a room, a mapped or draining one goes on, a
transfer keeps the wake pending, a paged-out one is paged in; a wake from another context, and of a FREE queue, changes
nothing of it (R368, R373). -/
def Parts.WakesMoveTheirQueue : Prop :=
  ∀ s q x v, kget s.queues q = some x →
    let gives (y : Queue) : Prop := exec (.wakeStore q x.ctx v) s = .next { s with queues := kmod s.queues q fun _ => y }
    let idle : DWord := if x.widx = x.ridx ∧ v = x.ridx then x.idle else s.tick
    (∀ c, c ≠ x.ctx → exec (.wakeStore q c v) s = .next s) ∧
    (x.st = 0 → gives { x with idle }) ∧
    (x.st = 1 → gives { x with idle, st := 2, widx := v, tick := s.tick }) ∧
    (x.st = 2 ∨ x.st = 8 ∨ x.st = 9 → gives { x with idle, widx := v }) ∧
    (x.st = 3 → (v - x.ridx).toNat ≤ 2 ^ x.logsize → gives { x with idle, widx := v }) ∧
    (x.st = 4 → (v - x.ridx).toNat ≤ 2 ^ x.logsize → gives { x with idle, widx := v, wakePend := true }) ∧
    ((x.st = 3 ∨ x.st = 4) → 2 ^ x.logsize < (v - x.ridx).toNat → ∃ t y, exec (.wakeStore q x.ctx v) s = .next t ∧
      kget t.queues q = some y ∧ y.st = 9 ∧ y.err = 2 ∧ y.widx = v ∧ y.room = none ∧ (∀ r, x.room = some r → kget t.rooms r = none)) ∧
    (x.st = 5 ∨ x.st = 6 → gives { x with idle, widx := v, wakePend := true }) ∧
    (x.st = 7 → gives { x with idle, st := 8, widx := v, tick := s.tick })

/-- XBAR climbs from its gang's slot to the die and the I/O die, and completes in every gang at once; a completed tree
barrier lets a waiting slot go on (R350, R351). -/
def Parts.TreeBarriersReachTheirTop : Prop :=
  (∀ s g r, s.gang? s.unit = some g → s.grid? g.grid = some r → g.xbDie = false → g.xb.gmask ≠ 0 → g.xb.garr = g.xb.gmask → g.st ≠ .retired →
    let all : Prop := ∀ k ∈ r.gangs, ∀ y, s.gang? k = some y → y.die = g.die → k ∈ r.xbArr ∨ k = s.unit
    let r1 : Grid := { r with xbArr := r.xbArr ++ [s.unit] }
    (¬ all → exec .xbarDieArrival s = .next { s with
      gangs := kmod s.gangs s.unit fun g => { g with xbDie := true }, grids := kmod s.grids g.grid fun _ => r1 }) ∧
    (all → g.die ∉ r.xbDies → exec .xbarDieArrival s = .next { s with
      gangs := kmod s.gangs s.unit fun g => { g with xbDie := true }
      grids := kmod s.grids g.grid fun _ => { r1 with xbDies := r.xbDies ++ [g.die] } })) ∧
  (∀ s r, s.grid? s.unit = some r → r.gangs ≠ [] → (∀ k ∈ r.gangs, k ∈ r.xbArr) → r.gangs.Nodup →
    (r.gangs.flatMap fun k => match s.gang? k with | some g => g.blocks | none => []).Nodup →
    ∃ t, exec .xbarIodieComplete s = .next t ∧
      t.grids = kmod s.grids s.unit (fun r => { r with xbArr := [], xbDies := [] }) ∧
      (∀ k, t.gang? k = (s.gang? k).map fun g => if k ∈ r.gangs then { g with xb := ⟨0, 0, g.xb.phase + 1⟩, xbDie := false } else g) ∧
      (∀ k g b x, k ∈ r.gangs → s.gang? k = some g → b ∈ g.blocks → s.block? b = some x →
        t.block? b = some (if g.xb.gmask.getLsbD x.gblk then { x with xbar := ⟨x.xbar.phase + 1, 0, 0⟩ } else x)) ∧
      (∀ b, (∀ k ∈ r.gangs, ∀ g, s.gang? k = some g → b ∉ g.blocks) → t.block? b = s.block? b) ∧
      { t with grids := s.grids, gangs := s.gangs, blocks := s.blocks } = s) ∧
  ∀ s w v sl, s.wave? w = some v → (kfind s.waves fun _ y => y.gang = s.unit) = [w] → sl < 2 →
    ((∃ p, (v.slot sl).hold = .seam (.gbar p) ∧ condHolds s v (.gbar p) = true) ∨
      (∃ p, (v.slot sl).hold = .seam (.xbar p) ∧ condHolds s v (.xbar p) = true)) →
    (v.slot (1 - sl)).hold = .none → v.alive = true → v.st ≠ .saved → v.st ≠ .halted → ctxLive s v.ctx = true →
    evictHere s v = false → inspectorsOf s w sl = [] →
    exec .barrierTreeRelease s = .next { s with
      waves := kput s.waves w { v.setSlot sl { slotAfter (v.slot sl) with hold := .none } with
        st := if v.st = .seatwait then .seated else if v.st = .lodged then .ready else v.st } }

/-- The oldest fault record that the ring does not hold is written at the ring's slot of FWIDX, then FWIDX itself; a record
that is thereby free goes to a miss that waits for one (when a record is free is the model's reading, log 39); a poll takes
FRIDX from the ring's header (R381, R382). That the ring is written and read under key 0 (log 40), and what a byte of another
key then reads as (log 3), is the model's choice. -/
def Parts.FaultRingTakesRecords : Prop :=
  (∀ s r, s.fbuf.find? (fun y => !y.copied) = some r → (s.fwidx - s.fridx).toNat < 2046 →
    let a := s.cfg.faultRing + 64 + 32 * (s.fwidx.toNat % 2046)
    (∀ i, i < 32 → isDevice s (a + i) = true) → (∀ i, i < 4 → isDevice s (s.cfg.faultRing + i) = true) →
    ∃ t, exec .faultRingCopy s = .next t ∧
      DeviceTakes (admitMisses { s with
          fwidx := s.fwidx + 1
          fbuf := (s.fbuf.map fun y => if y.seq = r.seq then { y with copied := true } else y).filter fun y => !(y.copied && y.answered) })
        t 0 none (bytesAt a 8 r.tick.toNat ++ bytesAt (a + 8) 9 r.va ++ bytesAt (a + 17) 1 r.kind ++ bytesAt (a + 18) 2 r.ctx ++
          bytesAt (a + 20) 4 r.place.toNat ++ bytesAt (a + 24) 4 r.issuer.toNat ++ bytesAt (a + 28) 4 r.seq ++
          bytesAt s.cfg.faultRing 4 (s.fwidx + 1).toNat)) ∧
  ∀ s, (∃ r ∈ s.fbuf, r.copied = false) → exec .faultRingPoll s = .next { s with
    fridx := BitVec.ofNat 32 (leNat ((List.range 4).map fun i => readKeyed s 0 (s.cfg.faultRing + 4 + i))) }

/-! ### Queues and packets -/

/-- Each event of the queue table of R373 moves a queue as its row says: unmapping ends in IDLE, or in MAPWAIT where a wake
is pending; paging out frees the body and paging in restores it; an idle queue unmaps, an aged one pages out, a waiting one
takes the lowest free room, a drained one unmaps. -/
def Parts.QueueEventsMoveTheirQueue : Prop :=
  ∀ s q x, kget s.queues q = some x → x.after = 0 →
    let gives (i : Instr) (y : Queue) : Prop := exec i s = .next { s with queues := kmod s.queues q fun _ => { y with tick := s.tick } }
    let freed (i : Instr) (y : Queue) : Prop := exec i s = .next { s with
      queues := kmod s.queues q fun _ => { y with tick := s.tick, room := none }
      rooms := match x.room with | some r => kdel s.rooms r | none => s.rooms }
    (∀ ok, x.st = 6 →
      (x.wakePend = true → freed (.pageoutComplete q ok) { x with st := 2, wakePend := false, pagedOut := false }) ∧
      (x.wakePend = false → freed (.pageoutComplete q ok) { x with st := if ok then 7 else 1, pagedOut := ok })) ∧
    (x.st = 8 → gives (.pageinComplete q true) { x with st := 2, pagedOut := false } ∧
      gives (.pageinComplete q false) { x with st := 9, err := 3 }) ∧
    (s.unit = q →
      (x.st = 5 → x.wakePend = true → freed .unmapComplete { x with st := 2, wakePend := false, pagedOut := false }) ∧
      (x.st = 5 → x.wakePend = false → freed .unmapComplete { x with st := 1, pagedOut := false }) ∧
      (x.st = 3 → x.ridx = x.widx → x.busy = [] → x.cur = none → x.pinned = false → x.idle.toNat + s.cfg.qidle ≤ s.tick.toNat →
        gives .qidleExpiry { x with st := 5 }) ∧
      (x.st = 1 → x.tick.toNat + s.cfg.qpageage ≤ s.tick.toNat → gives .qpageageExpiry { x with st := 6 }) ∧
      (x.st = 4 → x.ridx = x.drain → x.busy = [] → x.cur = none → gives .drainComplete { x with st := 5 }) ∧
      (∀ r, x.st = 2 → r < 4096 → kget s.rooms r = none → (∀ k, k < r → (kget s.rooms k).isSome = true) →
        (x.widx - x.ridx).toNat ≤ 2 ^ x.logsize →
        exec .roomGrant s = .next { s with
          queues := kmod s.queues q fun _ => { x with st := 3, room := some r, idle := s.tick, tick := s.tick }
          rooms := kput s.rooms r q }))

/-- A sweep loads a lane with the next packet of its mapped queue, from the ring at RIDX, and serves it next (R370,
R372). -/
def Parts.SweepLoadsTheNextPacket : Prop :=
  ∀ s q x l pa, (∀ k, k < 64 → kget s.rooms (64 * s.unit + k) = if k = l then some q else none) → l < 64 →
    kget s.queues q = some x → ctxLive s x.ctx = true → x.cur = none → x.denied = none → x.st = 3 → x.ridx ≠ x.widx →
    xlate s x.ctx (x.ring.toNat + 64 * (x.ridx.toNat % 2 ^ x.logsize)) .read = .hit pa → PlainRange s pa 64 →
    let b := (List.range 64).map fun i => devByte s x.ctx (pa + i)
    pktBad b = false → (pktNat b 1 1 % 2 = 0 ∨ x.busy = []) →
    exec .innkeeperSweepGroup s = .next { s with
      queues := kmod s.queues q fun _ => { x with cur := some (x.ridx.toNat, b), denied := none }
      free := s.free + 1
      agenda := .event q (if pktNat b 0 1 = 1 then .queryallPacket else if pktNat b 0 1 = 2 then .signal
        else if pktNat b 0 1 = 3 then .waitval else if pktNat b 0 1 = 4 then .launchPacket else .nopPacket) :: s.agenda }

/-- A served packet is accepted: RIDX moves past it and goes to RIDXADDR where there is one; then it acts. NOP finishes,
SIGNAL writes VALUE as one 8-byte entry, WAITVAL finishes where its word satisfies COND and else waits for it, QUERYALL
writes the summary, and a launch makes a grid with every gang pending (R320, R322, R365, R370, R371). -/
def Obligations.PacketsAct : Prop :=
  (∀ s x idx b c, kget s.queues s.unit = some x → x.cur = some (idx, b) → s.ctx? x.ctx = some c → c.st = .live → x.ridx.toNat = idx →
    x.st = 3 → x.denied = none →
    let taken (y : Queue) : State := { s with queues := kmod s.queues s.unit fun _ => { y with ridx := x.ridx + 1 } }
    let served : Queue := { x with cur := none, denied := none, idle := s.tick }
    let s1 := taken x
    (∀ pa, pktNat b 0 1 = 5 → x.ridxAddr ≠ 0 → xlate s x.ctx x.ridxAddr.toNat .write = .hit pa → PlainRange s pa 4 →
      ∃ t, exec .nopPacket s = .next t ∧ DeviceTakes (taken served) t c.key none (bytesAt pa 4 (x.ridx + 1).toNat)) ∧
    (x.ridxAddr = 0 →
      (pktNat b 0 1 = 5 → exec .nopPacket s = .next (taken served)) ∧
      (∀ pa, pktNat b 0 1 = 2 → xlate s1 x.ctx (pktNat b 16 9) .write = .hit pa → PlainRange s pa 8 →
        ∃ t, exec .signal s = .next t ∧ DeviceTakes (taken served) t c.key none (bytesAt pa 8 (pktNat b 8 8))) ∧
      (∀ pa, pktNat b 0 1 = 3 → xlate s1 x.ctx (pktNat b 16 9) .read = .hit pa → PlainRange s pa 8 →
        let eq := (pktNat b 1 1).testBit 1
        let now := devNat s x.ctx pa 8
        exec .waitval s = .next (if (if eq then now = pktNat b 8 8 else pktNat b 8 8 ≤ now) then { taken served with free := s.free + 1 }
          else { taken { served with busy := x.busy ++ [(idx, .wait (pktNat b 16 9) (BitVec.ofNat 64 (pktNat b 8 8)) eq)] } with
            free := s.free + 1 })) ∧
      (∀ p : Nat → Nat, pktNat b 0 1 = 1 →
        let bytes := qSummary s1 (if c.priv then none else some x.ctx) (pktNat b 8 4)
        (∀ i, 64 * i < bytes.length → xlate s1 x.ctx (pktNat b 16 9 + 64 * i) .write = .hit (p i) ∧ PlainRange s (p i) 64) →
        ∃ t, exec .queryallPacket s = .next t ∧
          DeviceTakes (taken served) t c.key none (bytes.zipIdx.map fun y => (p (y.2 / 64) + y.2 % 64, y.1))) ∧
      (∀ pa (p : Nat → Nat), pktNat b 0 1 = 4 → xlate s1 x.ctx (pktNat b 16 9) .read = .hit pa → PlainRange s pa 64 →
        (∀ i, i < pktNat b 2 1 → xlate s1 x.ctx (pktNat b 32 9 + 4 * i) .read = .hit (p i) ∧ PlainRange s (p i) 4) →
        let n := devNat s x.ctx pa 64
        let r : Grid := {
          ctx := x.ctx, queue := some s.unit, st := .placing, desc := parseDesc n, nx := pktNat b 4 2, ny := pktNat b 6 2, nz := pktNat b 8 2
          sync := (pktNat b 1 1).testBit 1
          params := (List.range (pktNat b 2 1)).map fun i => BitVec.ofNat 32 (devNat s x.ctx (p i) 4)
          cpl := pktNat b 48 9, pending := [], gangs := [], status := 0, fcode := 0, issuer := 0, xbArr := [], xbDies := []
          recNo := c.rec_.grids }
        descBad n = false → r.nx ≠ 0 → r.ny ≠ 0 → r.nz ≠ 0 → gangCount r ≤ 262144 → tooBig s1 c r = false →
        exec .launchPacket s = .next { taken { served with busy := x.busy ++ [(idx, .grid s.nextId)] } with
          grids := kput s.grids s.nextId { r with pending := List.range (gangCount r) }
          nextId := s.nextId + 1, free := s.free + 1
          ctxs := kmod s.ctxs x.ctx fun c => { c with rec_ := { c.rec_ with grids := c.rec_.grids + 1 } } }))) ∧
  ∀ s x c n a v eq pa, kget s.queues s.unit = some x → s.ctx? x.ctx = some c → c.st = .live → x.denied = none →
      x.busy = [(n, .wait a v eq)] → xlate { s with free := s.free + 1 } x.ctx a .read = .hit pa → PlainRange s pa 8 →
      let now := devNat s x.ctx pa 8
      exec .waitvalRecheck s = .next { s with
        free := s.free + 1
        queues := if (if eq then now = v.toNat else v.toNat ≤ now) then
            kmod s.queues s.unit fun _ => { x with busy := [], idle := s.tick, denied := none } else s.queues }

/-! ### Gangs -/

/-- The head gang of a grid is placed: its blocks and their waves appear at the sites of the placement, every wave ready at
ENTRY with the launch's state, and the last gang makes the grid placed (R59, R321 to R325, R328). That a new wave is READY before
it has a seat (log 34), and the values of what the launch gives no value (log 1), are the model's choice. -/
def Parts.GangPlacementMakesBlocksAndWaves : Prop :=
  ∀ s g r idx rest pl, s.grid? g = some r → r.st = .placing → r.pending = idx :: rest → r.sync = false → ctxLive s r.ctx = true →
    earlierKernel s g r = false → savedFirst s r.ctx = false → urgentFirst s r.ctx = false → clusterOpen s (partOf s r.ctx) (16 * pl.die + pl.cl) = true →
    (gangBlocks r idx).length * r.desc.waves ≤ privLeft s r.ctx →
    siteOk s r.desc pl (gangBlocks r idx).length [] = true → privsOk s r.ctx pl = true → SitePrivs s r.ctx pl →
    ∃ t y, exec (.gangPlace g pl) s = .next t ∧ t.gang? s.nextId = some y ∧
      { y with blocks := [] } = { Gang.new r.ctx g idx with
        die := pl.die, cl := pl.cl, tree := pl.tree, st := .resident, firstTick := s.tick, resident := s.tick } ∧
      t.grid? g = some { r with pending := rest, gangs := r.gangs ++ [s.nextId], st := if rest = [] then .placed else .placing } ∧
      (∀ (k : Nat) (b : Nat × Nat × Nat × Nat) (site : BlockSite), (gangBlocks r idx)[k]? = some b → pl.blocks[k]? = some site →
        ∃ bk ws, bk ∈ y.blocks ∧ t.block? bk = some (newBlock r g s.nextId pl.die pl.cl site.core b ws) ∧
          ∀ (j : Nat) (z : Nat × Nat × Nat), site.waves[j]? = some z → ∃ w v, ws[j]? = some w ∧ t.wave? w = some v ∧
            v = { newWave r s.nextId bk j s.nextId ⟨pl.die, pl.cl, site.core, z.1, z.2.1⟩ z.2.2 with
              grid := g, privPa := privAt s r.ctx z.2.2 } ∧
            v.st = .ready ∧ v.slot0.pc = r.desc.entry ∧ v.slot1.live = false ∧
            (∀ l, l < 64 → v.slot0.mask.getLsbD l = decide (l < (min 64 (r.desc.bx * r.desc.byy * r.desc.bz - 64 * j) + 3) / 4 * 4)) ∧
            (∀ i : Nat, i < 128 → v.cell (552 + i) 0 = ⟨(r.params[i]?).getD 0, .full⟩)) ∧
      (∀ w, w < s.nextId → t.wave? w = s.wave? w) ∧ (∀ b, b < s.nextId → t.block? b = s.block? b) ∧
      t.mem = s.mem ∧ t.ctxs = s.ctxs ∧ t.queues = s.queues

/-- A wave of an evicting gang at a save point is saved without its H and N values being lost to the image; a quiescent
block follows its waves; the gang is SAVED with COMPLETE written last. Each writes what its part of the image always takes, and
of the rest the units that are dirty (R54, R330, R334, R335, R340, R343, R344). A unit is dirty where it is not as the latest
restore left it, the open part of a block header is free, and a wave's private slot goes into the memory as the wave is saved: the
model's choice (log 9, log 55). -/
def Parts.EvictionSavesAGang : Prop :=
  (∀ s v g d a, s.wave? s.unit = some v → s.gang? v.gang = some g → g.st = .evicting → v.alive = true → emergencySave s v.gang g = false →
    s.mods.railsOff = false → ctxLive s v.ctx = true → v.stack = [] → v.forced = false → ((v.st = .seatwait ∧ v.waiting = true) ∨ v.st = .lodged ∨ v.st = .ready) → Untraced s v.ctx 5 →
    descOf s g.grid = some d → blockAt s g v.blk = some a → DeviceRange s (a + waveSecAt d v.idx) (waveSecSize d) →
    let v1 : Wave := { v with st := .saved, seat := none, whole := false, forced := false, slot0 := savedSlot v.slot0, slot1 := savedSlot v.slot1 }
    (∀ p, v.privPa = some p → DeviceRange s p privSize) →
    ∃ t t1, exec .waveSave s = .next t ∧ SectionSaved { s with waves := kput s.waves s.unit v1 } t1 (keyOf s g.ctx)
      (a + waveSecAt d v.idx) (waveSecSize d) 4096 (fun i => i < 28672) v.kept (waveSecByte s v1) ∧
      (v.privPa = none → t = t1) ∧
      ∀ p, v.privPa = some p → SectionSaved t1 t (keyOf s v.ctx) p privSize 1 (fun _ => True) none fun i => kgetD v.frame i 0) ∧
  (∀ s b g d a, s.block? s.unit = some b → s.gang? b.gang = some g → g.st = .evicting → b.st = .resident → s.mods.railsOff = false →
    (∀ w ∈ b.waves, ∀ v, s.wave? w = some v → v.st = .saved ∨ v.st = .ended) → ctxLive s b.ctx = true → b.seq.st ≠ .run →
    tilesSettled s s.unit b = true → descOf s g.grid = some d → blockAt s g s.unit = some a → DeviceRange s a (waveSecAt d 0) →
    ∃ t, exec .blockSave s = .next t ∧
      SectionSaved { s with blocks := kmod s.blocks s.unit fun b => { b with st := .saved }, free := s.free + 512 } t (keyOf s g.ctx)
        a (waveSecAt d 0) 256 (fun i => i < 4096 ∨ (233472 ≤ i ∧ i < 233472 + 4096 * d.tiles + 16384 * d.obk)) b.kept (blockSecByte s d b)) ∧
  (∀ s g a, s.gang? s.unit = some g → g.st = .evicting → s.mods.railsOff = false → ctxLive s g.ctx = true → gridSync s g.grid = false → blocksSaved s g = true → liveBlocks s g ≠ [] →
    g.castle = none → (∀ y ∈ s.ctxs, y.2.st ≠ .emergency) → g.image = some a → DeviceRange s a 6295552 →
    ∃ t, exec .gangSaveComplete s = .next t ∧
      t.gangs = kmod s.gangs s.unit (fun g => { g with st := .saved, savedOrder := s.nextId }) ∧ t.nextId = s.nextId + 1 ∧
      memGet t.mem (a + 4095) = 1 ∧
      (∀ i, i < 4095 → memGet t.mem (a + i) = gangHeadByte g s.tick i) ∧
      (let f (i : Nat) : Byte := if i < 4194304 then lineData g.pool (i / 64) (i % 64) else lineTag g.pool ((i - 4194304) / 32) (i % 32)
        ∀ i, i < 6291456 → (UnitDirty g.kept 256 f i → memGet t.mem (a + 4096 + i) = f i) ∧
          (¬ UnitDirty g.kept 256 f i → memGet t.mem (a + 4096 + i) = memGet s.mem (a + 4096 + i))) ∧
      (∀ x, (x < a ∨ a + 6295552 ≤ x) → memGet t.mem x = memGet s.mem x) ∧ t.blocks = s.blocks ∧ t.ctxs = s.ctxs)

/-- A SAVED gang is restored from its image at its new sites, with every tracked set EVICTED; an eviction that has run 10,000,000
ticks is withdrawn, and what was saved goes on from its image; castling reserves a cooler place and begins the save (R84, R335,
R338, R339, R341). That a withdrawn eviction restores what was saved in its place, where that is still free, is the model's choice
(log 35). -/
def Parts.GangsAreRestoredAndMoved : Prop :=
  (∀ s gk g d pl, s.gang? gk = some g → descOf s g.grid = some d → g.st = .saved → g.castle = none → savedTurn s g = true →
    ctxLive s g.ctx = true → gridSync s g.grid = false → imageWhole s g = true → clusterOpen s (partOf s g.ctx) (16 * pl.die + pl.cl) = true →
    siteOk s d pl (liveBlocks s g).length [] = true →
    (∀ b x w v, b ∈ liveBlocks s g → s.block? b = some x → w ∈ x.waves → s.wave? w = some v → v.alive = true →
      Untraced s v.ctx 5) → privGone s gk = false →
    ((liveBlocks s g).flatMap fun b => match s.block? b with | some x => x.waves | none => []).Nodup → (liveBlocks s g).Nodup →
    ∃ t, exec (.gangRestore gk pl) s = .next t ∧
      t.gang? gk = some { gangImage s g with st := .resident, die := pl.die, cl := pl.cl, tree := pl.tree, resident := s.tick, castle := none } ∧
      (∀ (k b : Nat) (x : Block) (site : BlockSite), (liveBlocks s g)[k]? = some b → s.block? b = some x → pl.blocks[k]? = some site →
        (x.st = .saved → t.block? b = some { blockImage s b x with st := .resident, die := pl.die, cl := pl.cl, core := site.core }) ∧
        (x.st = .resident → t.block? b = some x) ∧
        ∀ (j w : Nat) (z : Nat × Nat × Nat) (v : Wave), x.waves[j]? = some w → site.waves[j]? = some z → s.wave? w = some v → v.st = .saved →
          ∃ v', t.wave? w = some v' ∧ (v'.st = .halted ∨ v'.st = .forced ∨ v'.st = .ready ∨ v'.st = .lodged) ∧
            v'.forced = decide (v'.st = .forced) ∧ { v' with st := .saved, forced := false } = { waveImage s v with
              st := .saved, forced := false, seat := none, place := ⟨pl.die, pl.cl, site.core, z.1, z.2.1⟩, age := s.nextId, trk := Wave.noTrack true, whole := false }) ∧
      t.mem = s.mem) ∧
  (∀ s g, s.gang? s.unit = some g → g.st = .evicting → gridSync s g.grid = false → 10000000 ≤ g.evictTicks → ctxLive s g.ctx = true →
    blocksSaved s g = false → sitesFree s g = true → privGone s s.unit = false → (∀ w v, s.wave? w = some v → Untraced s v.ctx 5) →
    ∃ t, exec .evictionWithdraw s = .next t ∧
      t.gangs = kmod s.gangs s.unit (fun g => { g with st := .resident, castle := none, withdrawn := true }) ∧
      (∀ b x, b ∈ g.blocks → s.block? b = some x →
        (x.st = .saved → t.block? b = some { blockImage s b x with st := .resident, die := x.die, cl := x.cl, core := x.core }) ∧
        (x.st = .resident ∨ x.st = .saving ∨ x.st = .retired → t.block? b = some x) ∧
        ∀ w v, w ∈ x.waves → s.wave? w = some v → v.st = .saved → ∃ v', t.wave? w = some v' ∧
          (v'.st = .halted ∨ v'.st = .forced ∨ v'.st = .ready ∨ v'.st = .lodged) ∧
          v'.forced = decide (v'.st = .forced) ∧ { v' with st := .saved, forced := false } = { waveImage s v with
            st := .saved, forced := false, seat := none, place := v.place, age := v.age, trk := Wave.noTrack true, whole := false }) ∧
      t.mem = s.mem ∧ ∀ w v, s.wave? w = some v → v.st ≠ .saved → t.wave? w = some v) ∧
  (∀ s gk g d pl hot cool, s.gang? gk = some g → descOf s g.grid = some d → (s.cluster (16 * g.die + g.cl)).temp = some hot →
    (s.cluster (16 * pl.die + pl.cl)).temp = some cool → g.st = .resident → ctxLive s g.ctx = true →
    g.resident.toNat + 2000000 ≤ s.tick.toNat → gridSync s g.grid = false → (s.cfg.castleTemp : Int) < hot.toInt →
    cool.toInt + s.cfg.castleMargin ≤ hot.toInt → 16 * pl.die + pl.cl ≠ 16 * g.die + g.cl →
    clusterOpen s (partOf s g.ctx) (16 * pl.die + pl.cl) = true → imagesRoom s gk g = true → siteOk s d pl (liveBlocks s g).length [] = true →
    ∃ t a, exec (.castling gk pl) s = .next t ∧
      t.gang? gk = some { g with st := .evicting, castle := some pl, saveStart := s.tick, evictTicks := 0, image := some a } ∧
      (∀ k, g.image = some k → a = k) ∧ (∀ w v, s.wave? w = some v → ∃ v', t.wave? w = some v' ∧ v'.ents = v.ents ∧ v'.st = v.st) ∧
      t.blocks = s.blocks ∧ (isDevice s (a + 4095) = true → memGet t.mem (a + 4095) = 0))

/-- A flushed kernel completes: its completion status is written as one 8-byte entry where CPL is not zero, its packet
finishes, and its records leave the module (R137, R328, R329, R370). -/
def Parts.KernelsComplete : Prop :=
  ∀ s r c, s.grid? s.unit = some r → r.st = .flushing → s.ctx? r.ctx = some c → c.st = .live → c.rec_.mode = 0 → gridFlushed s s.unit = true →
    let done (t : State) : Prop :=
      t.grids = kdel s.grids s.unit ∧ (∀ y ∈ t.gangs, y.2.grid ≠ s.unit) ∧ (∀ y ∈ t.blocks, y.2.grid ≠ s.unit) ∧ (∀ y ∈ t.waves, y.2.grid ≠ s.unit) ∧
      (∀ q x, kget s.queues q = some x → ∃ y, kget t.queues q = some y ∧
        y.busy = x.busy.filter (fun z => z.2 ≠ .grid s.unit) ∧ { y with busy := x.busy, idle := x.idle } = x) ∧ t.ctxs = s.ctxs
    (r.cpl = 0 → ∃ t, exec .kernelComplete s = .next t ∧ done t ∧ t.mem = s.mem) ∧
    (∀ pa, r.cpl ≠ 0 → xlate s r.ctx r.cpl .write = .hit pa → PlainRange s pa 8 →
      ∃ t, exec .kernelComplete s = .next t ∧ done t ∧ ∀ a, memGet t.mem a =
        (lastByte (bytesAt pa 8 (r.status + 256 * r.fcode + 2 ^ 32 * (if r.status = 1 then r.issuer.toNat else 0))) a).getD (memGet s.mem a))

/-! ### Power and heat -/

/-- The handshake of a cluster goes through its states in the order of R436: QREQ, quiesce, retention save, clock gate, rail
off, wake, settle, retention load; a write out of order sets ORDER, a target outside its range REFUSED in every state, and a write
during a save waits for its end; a rail that is at its target when it is woken lets the load start at once (R424, R425, R433 to
R436, R439, R440). -/
def Parts.PowerHandshakeRunsInOrder : Prop :=
  ∀ s c, s.unit = c → let x := s.cluster c
    let gives (i : Instr) (y : Cluster) : Prop := exec i s = .next { s with clusters := kput s.clusters c y }
    let near (mv now : Nat) : Bool := decide (mv ≤ now + 10) && decide (now ≤ mv + 10)
    let moves : Cluster := { x with slewAt := if x.mvNow = (if x.off then 0 else x.mv) then s.tick else x.slewAt }
    let run (u : Cluster) : Cluster := { u with st := 0, qreq := false, qack := false, retValid := false, rsDone := false, gate := false, rlBusy := false }
    let arrives (i : Instr) (u : Cluster) : Prop :=
      (u.retValid = true → gives i { u with rlBusy := true, rlDone := false, settled := true, busyAt := s.tick }) ∧
      (u.retValid = false → exec i s = .next { s with
        watch := s.watch.filter fun u => u.1 / 128 ≠ c
        clusters := kput s.clusters c { run u with cold := true, rlDone := false, settled := true, wasRun := false } })
    let savedNow : Cluster := { x with
      saving := false, st := 3, retValid := true, rsDone := true, heldOps := [], saveWatch := s.watch.filter fun u => u.1 / 128 = c }
    (x.saving = true →
      exec .retsaveComplete s =
        .next (x.heldOps.foldl (fun t y => handshake t c y.1 y.2) { s with clusters := kput s.clusters c savedNow }) ∧
      (∀ y ∈ [(Instr.clqreqSet, 0x00, 1), (.clqreqClear, 0x00, 0), (.retsaveGo, 0x0C, 1), (.clkgateSet, 0x14, 1), (.clkgateClear, 0x14, 0),
          (.clwakeWake, 0x20, 1)], gives y.1 { x with heldOps := x.heldOps ++ [(y.2.1, y.2.2)] } ∧
        ∀ u : State, u.unit = c → exec y.1 u = .next (handshake u c y.2.1 y.2.2)) ∧
      ∀ mv, mv < 1024 → gives (.lrailOff c mv) { x with heldOps := x.heldOps ++ [(0x18, 2 ^ 16 + mv)] } ∧
        ∀ u : State, exec (.lrailOff c mv) u = .next (handshake u c 0x18 (2 ^ 16 + mv))) ∧
    (x.saving = false →
      (x.st = 0 → (s.cluster (buddyOf c)).st = 0 → gangOn s c = [] →
        (∀ y ∈ s.gangs, ∀ pl, y.2.castle = some pl → 16 * pl.die + pl.cl ≠ c) → gives .clqreqSet { x with st := 1, qreq := true }) ∧
      (x.st = 0 → (s.cluster (buddyOf c)).st ≠ 0 → gives .clqreqSet { x with buddy := true }) ∧
      (x.st ≠ 0 → gives .clqreqSet { x with order := true }) ∧
      (x.st = 1 ∨ x.st = 2 ∨ x.st = 3 → gives .clqreqClear (run x)) ∧
      (x.st ≠ 1 → x.st ≠ 2 → x.st ≠ 3 → gives .clqreqClear { x with order := true }) ∧
      (x.st = 2 → gives .retsaveGo { x with saving := true, busyAt := s.tick }) ∧ (x.st ≠ 2 → gives .retsaveGo { x with order := true }) ∧
      (x.st = 3 → gives .clkgateSet { x with st := 4, gate := true }) ∧ (x.st ≠ 3 → gives .clkgateSet { x with order := true }) ∧
      (x.st = 4 → gives .clkgateClear { x with st := 3, gate := false }) ∧ (x.st ≠ 4 → gives .clkgateClear { x with order := true }) ∧
      (∀ mv, (mvOk mv = false → gives (.lrailOff c mv) { x with refused := true }) ∧
        (mvOk mv = true → x.st ≠ 4 → gives (.lrailOff c mv) { x with order := true }) ∧
        (mvOk mv = true → x.st = 4 → gives (.lrailOff c mv) { moves with st := 5, off := true, mv, settled := decide (x.mvNow < 100) })) ∧
      (x.st = 5 →
        let woken : Cluster := { moves with st := 6, off := false, offNow := false, settled := near x.mv x.mvNow }
        (near x.mv x.mvNow = false ∨ x.rlBusy = true → gives .clwakeWake woken) ∧
        (near x.mv x.mvNow = true → x.rlBusy = false → arrives .clwakeWake woken)) ∧
      (x.st ≠ 5 → gives .clwakeWake { x with order := true })) ∧
    (∀ mv, (mvOk mv = false → gives (.lrailMv c mv) { x with refused := true }) ∧
      (mvOk mv = true → gives (.lrailMv c mv) { moves with mv, settled := if x.off then decide (x.mvNow < 100) else near mv x.mvNow })) ∧
    (x.st = 1 → clusterIdle s c = true → gives .quiesceComplete { x with st := 2, qack := true }) ∧
    (x.off = true → x.mvNow < 100 → gives .railOffReached { x with offNow := true, settled := true }) ∧
    (x.st = 6 → near x.mv x.mvNow = true → x.rlBusy = false → arrives .railSettled x) ∧
    (x.st = 6 → x.rlBusy = true → exec .retloadComplete s = .next { s with
      watch := x.saveWatch.foldl (fun m u => kput m u.1 u.2) (s.watch.filter fun u => u.1 / 128 ≠ c)
      clusters := kput s.clusters c { run x with rlDone := true, saveWatch := [], wasRun := false } }) ∧
    (c < 64 → s.mods.railsOff = false → s.mods.stopped = false →
      let goal := if x.off then 0 else x.mv
      let now := if x.mvNow < goal then min goal (x.mvNow + 10) else max goal (x.mvNow - 10)
      (s.tick.toNat < x.slewAt.toNat + 1000 → exec .railSlew s = .next s) ∧
      (x.mvNow ≠ goal → x.slewAt.toNat + 1000 ≤ s.tick.toNat → exec .railSlew s = .next { s with
        clusters := kput s.clusters c { x with mvNow := now, slewAt := s.tick, settled := x.offNow || (!x.off && near x.mv now) }
        agenda := (if x.off = true ∧ now < 100 then [.event c .railOffReached]
          else if x.st = 6 ∧ near x.mv now = true then [.event c .railSettled] else []) ++ s.agenda }))

/-- RAIL_TARGET_PASS, once it is due, gives every cluster in RUN with a valid temperature the highest target whose power fits
its allocation, or 500 mV, and that target's budget, and leaves the others; while some junction is above 105 °C the module's
allocation is lowered first (R426, R429). That a pass lowers it by at least 1 mW (log 65), and leaves a cluster without a sensor's
reading as it is (log 47), is the model's choice. -/
def Parts.RailTargetsAreTheHighestThatFit : Prop :=
  ∀ s, (passDue s = false → exec .railTargetPass s = .next s) ∧ (passDue s = true →
    ∃ t, exec .railTargetPass s = .next t ∧ { t with clusters := s.clusters, mods := s.mods, free := s.free } = s ∧
    t.mods = { s.mods with alloc := t.mods.alloc, passAt := some s.tick } ∧
    ((∀ y ∈ s.clusters, ∀ τ, y.2.temp = some τ → τ.toInt ≤ 105 * 64) → t.mods.alloc = s.mods.alloc ∧ t.free = s.free) ∧
    ((∃ y ∈ s.clusters, ∃ τ, y.2.temp = some τ ∧ 105 * 64 < τ.toInt) → t.mods.alloc ≤ s.mods.alloc - 1) ∧
    ∀ c, c < 64 →
      (∀ τ, (s.cluster c).st = 0 → (s.cluster c).temp = some τ → ∃ v,
        t.cluster c = { s.cluster c with
          mv := v, budget := Config.budget c v, settled := railSettled (s.cluster c).off v (s.cluster c).mvNow
          slewAt := if (s.cluster c).mvNow = (if (s.cluster c).off then 0 else (s.cluster c).mv) then s.tick else (s.cluster c).slewAt } ∧
        500 ≤ v ∧ v ≤ 900 ∧ v % 10 = 0 ∧ (targetFits t.mods.alloc c v τ.toInt = true ∨ v = 500) ∧
        ∀ u, v < u → u ≤ 900 → u % 10 = 0 → targetFits t.mods.alloc c u τ.toInt = false) ∧
      ((s.cluster c).st ≠ 0 ∨ (s.cluster c).temp = none → t.cluster c = s.cluster c))

/-- A sensor's sample is taken, its cluster reads its hottest valid sensor and holds its clock from 108 °C down to 104 °C;
at 112 °C every context that is in use goes to EMERGENCY with THERMTRIP (R357, R362, R427, R428). When the sensors are sampled is
left to the environment, and the coolant and energy registers read free values: the model's choice (log 47). -/
def Parts.SensorSamplesActOnHeat : Prop :=
  ∀ s die sensor reading, die < 4 → sensor < 64 → s.mods.stopped = false →
    let c := 16 * die + sensor / 4
    ∃ t y, exec (.sensorSample die sensor reading) s = .next t ∧ t.sensors = kput s.sensors (64 * die + sensor) reading ∧
      t.mods.sampled = kput s.mods.sampled (64 * die + sensor) s.tick.toNat ∧
      (t.cluster c).temp = some y ∧ (∃ i, i < 4 ∧ kget t.sensors (64 * die + sensor / 4 * 4 + i) = some y) ∧
      (∀ i z, i < 4 → kget t.sensors (64 * die + sensor / 4 * 4 + i) = some z → z.toInt ≤ y.toInt) ∧
      ((t.cluster c).hold = if 108 * 64 ≤ y.toInt then true else if y.toInt ≤ 104 * 64 then false else (s.cluster c).hold) ∧
      (y.toInt < 112 * 64 ∨ s.mods.railsOff = true →
        { t with
          sensors := s.sensors, clusters := s.clusters, mods := s.mods, free := s.free } = s ∧ (∀ k, k ≠ c → t.cluster k = s.cluster k)) ∧
      (112 * 64 ≤ y.toInt → s.mods.railsOff = false → ∀ k x, s.ctx? k = some x → k ≠ firmwareCtx → x.st ≠ .free → x.st ≠ .emergency →
        ∃ z, t.ctx? k = some z ∧ z.st = .emergency ∧ z.cause = 0x24 ∧ z.faults = [0x24])

/-- The compute rails go at once at a hard trip, or once every context of an emergency has been saved: every cluster is OFF
with nothing retained. Ten seconds of cool sensors later they are restored, and a context whose save is complete, with no torn
image, is HALTED with THERMTRIP, any other LOST (R344, R357, R362, R428, R436). What the vaults have lost reads as it does under
another key (log 3), and no byte of DRAM is lost with the L2 (log 37): the model's choice. -/
def Parts.RailsGoAndComeBack : Prop :=
  (∀ s die sensor, s.mods.railsOff = false → ∃ t, exec (.hardTrip die sensor) s = .next t ∧ t.mods.railsOff = true ∧
    t.matrix = [] ∧ t.watch = [] ∧ (∀ c, c < 64 → t.cluster c = Cluster.trip { s.cluster c with
      held := (t.cluster c).held, ovf := (t.cluster c).ovf, ovfAddrs := (t.cluster c).ovfAddrs }) ∧
    ∀ k x, s.ctx? k = some x → k ≠ firmwareCtx → x.st ≠ .free → ∃ z, t.ctx? k = some z ∧ z.st = .emergency) ∧
  (∀ s, s.mods.railsOff = false → (∃ y ∈ s.ctxs, y.2.st = .emergency) → (∀ y ∈ s.ctxs, y.2.st = .emergency → 2 ≤ y.2.saved) →
    ∃ t, exec .emergencyRailRemoval s = .next t ∧ t.mods = { s.mods with railsOff := true } ∧ t.ctxs = s.ctxs ∧ t.mem = s.mem ∧
      t.matrix = [] ∧ t.watch = [] ∧ ∀ c, c < 64 → (t.cluster c).st = 5 ∧ (t.cluster c).off = true ∧ (t.cluster c).mvNow = 0 ∧
        (t.cluster c).retValid = false ∧ ((t.cluster c).wasRun = true ↔ (s.cluster c).st = 0)) ∧
  (∀ s k, s.mods.coolSince = some k → s.mods.railsOff = true → 4 ≤ s.stage → s.recovery = false → k + 1000000000 ≤ s.tick.toNat →
    (∀ c, (s.cluster c).saving = false) → (s.clusters.map Prod.fst).Nodup →
    ∃ t, exec .railsRestore s = .next t ∧ t.mods = { s.mods with railsOff := false } ∧ t.mem = s.mem ∧
      (∀ c x, s.ctx? c = some x →
        let whole : Prop := x.saved = 2 ∧ devByte s c (x.poolBase + 327679) ≠ 0 ∧
          ∀ y ∈ s.gangs, y.2.ctx = c → y.2.st ≠ .retired → y.2.image.isSome = true → imageWhole s y.2 = true
        (x.st ≠ .emergency → t.ctx? c = some x) ∧
        (x.st = .emergency → (whole → t.ctx? c = some { x with st := .halted, cause := 0x24, faults := [0x24] }) ∧
          (¬ whole → t.ctx? c = some { x with st := .lost }))) ∧
      ∀ c x, kget s.clusters c = some x → t.cluster c =
        let near := railSettled false x.mv x.mvNow
        let u : Cluster := { x with
          st := 6, off := false, offNow := false, settled := near
          slewAt := if x.mvNow = (if x.off then 0 else x.mv) then s.tick else x.slewAt }
        if x.wasRun = false ∨ x.st ≠ 5 then x
        else if near = false ∨ x.rlBusy = true then u
        else if x.retValid = true then { u with rlBusy := true, rlDone := false, settled := true, busyAt := s.tick }
        else { u with
          st := 0, qreq := false, qack := false, retValid := false, rsDone := false, gate := false, rlBusy := false
          cold := true, rlDone := false, settled := true, wasRun := false })

/-! ### Ports, the domain, the module's registers and boot -/

/-- A port trains, goes UP with 8 lanes and DEGRADED with 4 to 7, loses lanes, replays flits, and leaves UP or DEGRADED for
DOWN or FENCED, as its table says: after 100,000,000 ticks of training, or 1,001 replays in 1,000,000. The paths in use follow
the ports, and TSYNC is clear without a path to the tick master; a read of LINKST clears REPLAYS; in RECOVERY none of the registers
acts (R389, R391 to R393, R395, R442). How many flits a failed lane leaves to replay is a free value: the model's choice (log 6). -/
def Parts.PortsFollowTheirTable : Prop :=
  ∀ (s : State) (p : Fin 16), s.unit = p.val → s.recovery = false → let x := s.ports[p]
    let gives (i : Instr) (y : Port) : Prop := exec i s = .next { s with ports := s.ports.set p y }
    let up : Prop := x.st = 2 ∨ x.st = 3
    let leaves (i : Instr) (st : Nat) : Prop := ∃ t, exec i s = .next t ∧ { t with ports := s.ports, routes := s.routes, mods := s.mods } = s ∧
      RoutesFollow s t ∧ t.ports = s.ports.set p { x with st, lanes := 0, lostAt := s.tick, replayed := [] } ∧
      t.mods = if tickMaster s = s.cfg.modid ∨ hasPath t (tickMaster s) = true then s.mods else { s.mods with tsync := false }
    (x.st = 0 ∨ x.st = 4 → gives .porten { x with st := 1, lanes := 0, since := s.tick }) ∧
    (x.st = 1 → s.tick.toNat < x.since.toNat + 100000000 → exec .portTrainingTimeout s = .next s) ∧
    (x.st = 1 → x.since.toNat + 100000000 ≤ s.tick.toNat → gives .portTrainingTimeout { x with st := 0, trainFail := min (x.trainFail + 1) (2 ^ 32 - 1) }) ∧
    (∀ lanes peer, x.st = 1 → 4 ≤ lanes → lanes ≤ 8 →
      let ps := s.ports.set p { x with st := if lanes = 8 then 2 else 3, lanes, peer }
      ∃ t, RoutesFollow s t ∧ t.ports = ps ∧ exec (.portTrainingDone p lanes peer) s = .next { s with
        ports := ps, routes := t.routes
        unreach := s.unreach.filter fun m => !(((kget s.cfg.paths m).getD []).any fun k => if h : k < 16 then ps[k].st = 2 || ps[k].st = 3 else false) }) ∧
    let recent : List DWord := x.replayed.filter fun k => decide (s.tick.toNat < k.toNat + 1000000)
    (up → leaves .portfence 4 ∧ leaves .portIdleTimeout 0 ∧
      (1000 < recent.length → leaves .portReplayLimit 4) ∧ (recent.length ≤ 1000 → exec .portReplayLimit s = .next s) ∧
      (x.lanes < 5 → leaves .portLaneFail 0) ∧ 
      (5 ≤ x.lanes → ∀ n, n = (Config.freeValue s.free).toNat % 1002 → exec .portLaneFail s = .next { s with
        free := s.free + 1
        ports := s.ports.set p { x with
          st := 3, lanes := x.lanes - 1, replays := min (x.replays + n) 255
          replayed := List.replicate n s.tick ++ recent.take (1001 - n) } }) ∧
      gives .flitCrcError { x with replays := min (x.replays + 1) 255, replayed := s.tick :: recent.take 1000 }) ∧
    exec .linkstRead s = .next { s with
      ports := s.ports.set p { x with replays := 0 }
      bus := BitVec.ofNat 64 ((if x.st = 2 ∨ x.st = 3 then x.peer % 256 else 0) * 2 ^ 24 + min x.replays 255 * 2 ^ 16 + x.lanes % 16 * 2 ^ 12 +
        (if s.mods.tsync then 16 else 0) + x.st % 8) } ∧
    ∀ i ∈ [Instr.porten, .portfence], exec i { s with recovery := true } = .next { s with recovery := true }

/-- A module without a path for LINKWAIT becomes unreachable, its staged shares are dropped, those that still wait to be staged
with them, and where nothing waits for it no context is halted; the tick counter goes on to the master's, but not past the tick at
whose end the module stops, and one that is ahead stands until the master has come up with it (R115, R393, R394, R402). -/
def Parts.DomainEventsActOnTheModule : Prop :=
  let waited (s : State) : Prop := s.cfg.linkwait ≤ s.tick.toNat ∧
    ∀ p ∈ (kget s.cfg.paths s.unit).getD [], (port s p).lostAt.toNat + s.cfg.linkwait ≤ s.tick.toNat
  (∀ s, hasPath s s.unit = false → (kget s.cfg.paths s.unit).isSome = true → s.unit ≠ s.cfg.modid → s.unit ∉ s.unreach → waited s →
    ctxsWaiting s s.unit = [] → (∀ y ∈ s.sysCommits, s.unit ∈ y.2.homes → y.2.applied = true) →
    exec .linkwaitExpiry s = .next { s with
      unreach := s.unreach ++ [s.unit]
      staged := s.staged.filter fun x => x.src ≠ s.unit
      waiting := s.waiting.filter fun i => match i with | .sysStageReceive src _ _ => decide (src ≠ s.unit) | _ => true }) ∧
  (∀ s c x e, hasPath s s.unit = false → (kget s.cfg.paths s.unit).isSome = true → s.unit ≠ s.cfg.modid → s.unit ∉ s.unreach → waited s →
    (c, e) ∈ ctxsWaiting s s.unit → s.ctx? c = some x → x.st = .live →
    ∃ t y, exec .linkwaitExpiry s = .next t ∧ s.unit ∈ t.unreach ∧ t.ctx? c = some y ∧ y.st = .halted ∧ y.cause = 0x23 ∧ 0x23 ∈ y.faults) ∧
  ∀ s v, tickMaster s ≠ s.cfg.modid → hasPath s (tickMaster s) = true → s.mods.stopped = false →
    let stops : Prop := s.mods.arm = true ∧ s.tick.toNat ≤ s.mods.stopTick.toNat ∧ s.mods.stopTick.toNat < v.toNat
    (v.toNat ≤ s.tick.toNat →
      exec (.tickSync v) s = .next { s with mods := { s.mods with ahead := s.tick.toNat - v.toNat, tsync := true } }) ∧
    (s.tick.toNat < v.toNat → ∃ t, exec (.tickSync v) s = .next t ∧ t.mods.tsync = true ∧ t.mods.ahead = 0 ∧
      (¬ stops → t.tick = v) ∧ (stops → t.tick = s.mods.stopTick))

/-- ARM stands or is MISSED, the module stops at the end of its tick and goes on from the next one, the counters are captured
and cleared, and a register's write stores what its fields take (R6, R401, R402, R408, R431, R434, R451, R452). -/
def Parts.ModuleRegistersAct : Prop :=
  ∀ s : State, s.recovery = false → let gives (i : Instr) (m : ModRegs) : Prop := exec i s = .next { s with mods := m }
    (s.tick.toNat < s.mods.stopTick.toNat → gives (.stopctlArm true) { s.mods with arm := true }) ∧
    (s.mods.stopTick.toNat ≤ s.tick.toNat → gives (.stopctlArm true) { s.mods with arm := false, missed := true }) ∧
    gives (.stopctlArm false) { s.mods with arm := false } ∧
    (s.mods.arm = true → s.tick = s.mods.stopTick → s.mods.stopped = false → gives .stopTickReached { s.mods with stopped := true, arm := false }) ∧
    (s.mods.stopped = true → ∃ t, exec .stopctlResume s = .next t ∧ t.tick = s.tick + 1 ∧ t.mods.stopped = false ∧ t.mods.tsync = false ∧
      (s.mods.snapDue = false → s.mods.clrDue = false → (∀ y ∈ s.clusters, y.2.pend = [] ∧ y.2.saving = false ∧ y.2.rlBusy = false) →
        t = { s with tick := s.tick + 1, mods := { s.mods with stopped := false, tsync := false, coreHold := [] } })) ∧
    (s.mods.stopped = false → exec .stopctlResume s = .next s) ∧
    gives .cntsnap { s.mods with snap := s.counters, snapClocks := s.clocks, snapTick := s.tick } ∧
    exec .cntclr s = .next { s with counters := [], clocks := [] } ∧
    (∀ v : DWord, gives (.registerWrite (.module 0x80) v) { s.mods with stopTick := v } ∧
      gives (.registerWrite (.endpoint 0) v) { s.mods with h2dBase := v.extractLsb' 36 12 } ∧
      gives (.registerWrite (.endpoint 8) v) { s.mods with h2dEn := v.getLsbD 15, h2dCtx := v.toNat % 4096 }) ∧
    (∀ c (v : DWord), c < 64 → let x := s.cluster c
      let power (off : Nat) (y : Cluster) : Prop := exec (.registerWrite (.power c off) v) s = .next { s with clusters := kput s.clusters c y }
      power 0x00 { x with pend := x.pend ++ [v.getLsbD 0] } ∧
      power 0x08 { x with cold := x.cold && !v.getLsbD 6, buddy := x.buddy && !v.getLsbD 5, order := x.order && !v.getLsbD 4 } ∧
      power 0x1C { x with refused := x.refused && !v.getLsbD 18 } ∧
      power 0x24 { x with budget := v.extractLsb' 0 32 })

/-- While the module is stopped no wave, sequencer or event of its own acts: its turn passes with no other change (R402). -/
def Parts.StoppedModuleStandsStill : Prop :=
  ∀ s t rest, s.mods.stopped = true → s.agenda = t :: rest →
    (match t with
      | .event _ i => i ∉ [.stopctlResume, .cntsnap, .cntclr, .linkstRead, .moduleReset, .portIdleTimeout] ∧
          (∀ v, i ≠ .stopctlArm v) ∧ (∀ d k, i ≠ .hardTrip d k) ∧ (∀ r v, i ≠ .registerWrite r v) ∧ (∀ off l, i ≠ .hostPostedWrite 0 off l) ∧ (∀ off n, i ≠ .hostRead 0 off n)
      | .elapse n => n < 2
      | .wave _ _ => True
      | .seq _ => True
      | _ => False) →
    step s = .next { s with agenda := rest }

/-- The boot stages follow one another: a failed check stops the boot in RECOVERY, the compute rails rise only with every
sensor valid, an innkeeper image is accepted where it verifies and its VERSION is at least the minimum, its firmware context stands
from its stage on, and the module is ready once its firmware's first pass has run (R426, R437, R442, R443). That a region which
nothing has written holds an accepted image is the model's choice (log 4). -/
def Parts.BootStagesFollowInOrder : Prop :=
  ∀ s : State, s.recovery = false →
    (s.stage = 1 → exec (.stewardBringup true) s = .next { s with stage := 2 } ∧
      exec (.stewardBringup false) s = .next { s with stage := 2, recovery := true, mods := { s.mods with railsOff := true } }) ∧
    (s.stage = 2 → kget s.flash 2 = none → exec .innkeeperVerify s = .next { s with
      stage := 3, ctxs := kput s.ctxs firmwareCtx { newCtx 0 0 with priv := true } }) ∧
    (∀ img, s.stage = 2 → kget s.flash 2 = some img →
      let ok : Prop := Config.imageVerifies 2 img = true ∧ s.minver.toNat ≤ (Config.imageVersion 2 img).toNat
      (ok → exec .innkeeperVerify s = .next { s with
        stage := 3, booted := kput s.booted 2 img, ctxs := kput s.ctxs firmwareCtx { newCtx 0 0 with priv := true } }) ∧
      (¬ ok → exec .innkeeperVerify s = .next { s with stage := 3, recovery := true, mods := { s.mods with railsOff := true } })) ∧
    (s.stage = 3 → (∀ k, k < 256 → (kget s.sensors k).isSome = true) → s.cfg.porten = 0 →
      exec .computeRailRaise s = .next { s with stage := 4, mods := { s.mods with railsOff := false } }) ∧
    (∀ k, s.stage = 3 → k < 256 → kget s.sensors k = none →
      exec .computeRailRaise s = .next { s with stage := 4, recovery := true, mods := { s.mods with railsOff := true } }) ∧
    (s.stage = 4 → s.mods.passAt ≠ none → exec .mgmtReady s = .next { s with stage := 5 }) ∧
    (s.stage = 4 → s.mods.passAt = none → s.mods.railsOff = false → exec .mgmtReady s = exec .railTargetPass { s with stage := 5 }) ∧
    (∀ n, s.stage ≠ n → ∀ i ∈ (if n = 1 then [Instr.stewardBringup true, .stewardBringup false] else if n = 2 then [.innkeeperVerify]
      else if n = 3 then [.computeRailRaise] else if n = 4 then [.mgmtReady] else []), exec i s = .next s)

/-- Module reset ends every context and all work, zeroes the key slots, loses the vaults and restarts the boot from its first
stage; DRAM keeps its bytes but for the counts in the fault ring's header, which are 0 (R382, R428, R442, R447). That what the
vaults have lost reads as it does under another key (log 3), and the values of what the rules give no reset value (log 1), are the
model's choice. -/
def Parts.ModuleResetKeepsOnlyDram : Prop :=
  ∀ s : State, s.flash = [] → ∃ t, exec .moduleReset s = .next t ∧ DeviceTakes { State.reset with
    mem := s.mem
    memKey := (s.mem.filter fun y => decide (y.1 / 2 ^ 48 % 256 = s.cfg.modid) && decide (0xA000000000 ≤ y.1 % 2 ^ 48) &&
      decide (y.1 % 2 ^ 48 < 0xA000000000 + s.cfg.vwin * 2 ^ 20 * 64)).foldl (fun m y => kput m y.1 (s.keyGen + 1)) s.memKey
    keyGen := s.keyGen + 1, flash := s.flash, minver := s.minver, cfg := s.cfg, free := s.free
    agenda := s.agenda, unit := s.unit } t 0 none
    ((bytesAt s.cfg.faultRing 64 0).filter fun y => match homeOf s y.1 with | .here _ => true | .host _ => true | _ => false)

/-! ### Management commands -/

/-- STATUS, FLASHWRITE, ATTEST, the partition commands, TRACESET, RECSET, REPLAY, DENY, and the driver of every command: an
opcode of no command is BADCMD, a bad argument BADARG, an unready module BADSTATE (R358, R384, R403, R409, R442, R443, R446,
R449, R450). The order of the checks and which bytes of ARG are bad (log 44), what RECSET and TRACESET do to their ring (log
45), and key 0 for the bytes of ATTEST and FLASHWRITE (log 40), are the model's choice. -/
def Obligations.ModuleCommandsAnswer : Prop :=
  (∀ s n x, s.unit = n → n < 64 → kget s.slots n = some x → x.st = 1 → x.opcode ∉ knownOps →
    Answers .unknownOpcodeCommand s x (if s.stage < 5 ∨ s.recovery = true then 1 else 4) [] s) ∧
  (∀ s n x, s.unit = n → n < 64 → kget s.slots n = some x → x.opcode = 0x10 → (x.st = 1 ∨ x.st = 2) →
    (s.stage < 5 ∨ s.recovery = true → Answers .ctxcreate s x 1 [] s) ∧
    (s.stage = 5 → s.recovery = false → argsBad x = true → Answers .ctxcreate s x 2 [] s)) ∧
  (∀ s n x, Posted s n x 0x01 → Answers .status s x 0
    [(16, [BitVec.ofNat 8 s.stage, 0, BitVec.ofNat 8 s.cfg.modid, 0]),
      (20, leBytes 4 s.cfg.version.toNat ++ leBytes 4 s.cfg.minver.toNat ++ [0, 0, 0, 0]), (32, digest32 Config.moduleId)] s) ∧
  (∀ s n x, Posted s n x 0x02 → argNat x 16 1 ≤ 2 → Answers .flashwrite s x 0 [] { s with
    flash := kput s.flash (argNat x 16 1) (plainRead s (argNat x 24 8) (argNat x 32 4)), free := s.free + 1 }) ∧
  (∀ s n x, Posted s n x 0x03 → argNat x 48 8 % 64 = 0 → DeviceRange s (argNat x 48 8) 4096 →
    ∃ t, exec .attest s = .next t ∧ DeviceTakes { s with slots := kput s.slots n (doneSlot s x 0 []) } t 0 none
      (bytesFrom (argNat x 48 8) (attestReport s ((List.range 32).map fun i => kgetD x.arg (16 + i) 0)))) ∧
  (∀ s n x, Posted s n x 0x18 → argNat x 16 1 < 16 → kget s.parts (argNat x 16 1) = none →
    (∀ c, c < 64 → (argNat x 24 8).testBit c = true → (s.cluster c).part = none ∧ (s.cluster c).st = 0) →
    ∃ t, Answers .partassign s x 0 [] t ∧ t.parts = kput s.parts (argNat x 16 1) () ∧
      (∀ c, t.cluster c = if c < 64 ∧ (argNat x 24 8).testBit c = true then
        { s.cluster c with part := some (argNat x 16 1), leaving := false } else s.cluster c) ∧
      { t with parts := s.parts, clusters := s.clusters } = s) ∧
  (∀ s n x c, Posted s n x 0x19 → argNat x 16 1 < 16 → argNat x 17 1 = c → c < 64 → (kget s.parts (argNat x 16 1)).isSome = true →
    (s.cluster c).part = none → (s.cluster c).st = 0 → Answers .partadd s x 0 [] { s with
      clusters := kput s.clusters c { s.cluster c with part := some (argNat x 16 1), leaving := false } }) ∧
  (∀ s n x c, Posted s n x 0x1A → argNat x 16 1 < 16 → argNat x 17 1 = c → c < 64 → (kget s.parts (argNat x 16 1)).isSome = true →
    (∀ y ∈ s.clusters, y.2.leaving = false) → (s.cluster c).part = some (argNat x 16 1) → partNamed s (argNat x 16 1) = false →
    c ∈ s.clusters.map Prod.fst → gangOn s c = [] → (∀ y ∈ s.gangs, ∀ pl, y.2.castle = some pl → 16 * pl.die + pl.cl ≠ c) →
    ∃ t, Answers .partremove s x 0 [] t ∧ (∀ k, t.cluster k = if k = c then { s.cluster c with part := none, leaving := false } else s.cluster k) ∧
      { t with clusters := s.clusters } = s) ∧
  (∀ s n x, Posted s n x 0x1B → argNat x 16 1 < 16 → (kget s.parts (argNat x 16 1)).isSome = true → partNamed s (argNat x 16 1) = false →
    Answers .partrelease s x 0 [] { s with
      parts := kdel s.parts (argNat x 16 1)
      clusters := kmap s.clusters fun _ y => if y.part = some (argNat x 16 1) then { y with part := none, leaving := false } else y }) ∧
  (∀ s n x c y, Posted s n x 0x30 → argNat x 16 2 = c → c < 4096 → s.ctx? c = some y → argNat x 24 8 % 4096 = 0 →
    argNat x 24 8 < 2 ^ 56 → DeviceRange s (argNat x 24 8) 64 → 12 ≤ argNat x 18 1 → argNat x 18 1 ≤ 30 → argNat x 19 1 < 64 →
    argNat x 20 1 ≤ 1 →
    let t0 : State := { s with
      slots := kput s.slots n (doneSlot s x 0 [])
      ctxs := kmod s.ctxs c fun z => { z with
        trace := ⟨argNat x 24 8, argNat x 18 1, BitVec.ofNat 6 (argNat x 19 1), decide (argNat x 20 1 = 1), 0, 0⟩ } }
    (argNat x 19 1 = 0 → exec .traceset s = .next t0) ∧
    (argNat x 19 1 ≠ 0 → ∃ t, exec .traceset s = .next t ∧ DeviceTakes t0 t y.key none (bytesAt (argNat x 24 8) 64 0))) ∧
  (∀ s n x c y, Posted s n x 0x30 → argNat x 16 2 = c → c < 4096 → s.ctx? c = some y → 2 ^ 56 ≤ argNat x 24 8 → Answers .traceset s x 2 [] s) ∧
  (∀ s n x c y, Posted s n x 0x31 → argNat x 16 2 = c → c < 4096 → s.ctx? c = some y → argNat x 18 1 ≤ 2 → argNat x 19 1 ≤ 1 →
    argNat x 24 8 % 4096 = 0 → (∀ g ∈ s.grids, g.2.ctx = c → g.2.st = .done) → DeviceRange s (argNat x 24 8) 64 →
    let quiet : Prop := y.rec_.mode = 1 → y.rec_.due = [] ∧ ∀ z ∈ y.rec_.streams, z.recs = []
    let set (f : RecMode → RecMode) : State := { s with
      slots := kput s.slots n (doneSlot s x 0 []), ctxs := kmod s.ctxs c fun z => { z with rec_ := f z.rec_ } }
    (argNat x 18 1 = 0 → quiet → exec .recset s = .next (set fun r => { r with mode := 0, streams := [] })) ∧
    (∀ z, argNat x 18 1 = 0 → y.rec_.mode = 1 → y.rec_.due = [] → y.rec_.streams = [z] → z.recs ≠ [] → y.rec_.full = false →
      let size := 24 + 8 * z.recs.length; let a := y.rec_.base + 128 + y.rec_.bytes
      ∃ t, exec .recset s = .next t ∧ kget t.slots n = some (doneSlot s x 0 []) ∧
        (y.rec_.len * 4096 < 128 + y.rec_.bytes + size →
          t.ctxs = kmod s.ctxs c fun w => { w with rec_ := { y.rec_ with mode := 0, streams := [], full := true } }) ∧
        (128 + y.rec_.bytes + size ≤ y.rec_.len * 4096 → DeviceRange s y.rec_.base (y.rec_.len * 4096) →
          t.ctxs = kmod s.ctxs c (fun w => { w with
            rec_ := { y.rec_ with mode := 0, streams := [], bytes := y.rec_.bytes + size, chunks := y.rec_.chunks + 1 } }) ∧
          ∀ i, i < size → memGet t.mem (a + i) = (lastByte (chunkBytes a z) (a + i)).getD 0)) ∧
    (argNat x 18 1 ≠ 0 → quiet → ∃ t, exec .recset s = .next t ∧
      DeviceTakes (set fun _ => ⟨argNat x 18 1, argNat x 24 8, argNat x 20 4, decide (argNat x 19 1 = 1),
          (if argNat x 32 8 = 0 then 1000000 else argNat x 32 8), s.tick, 0, 0, false, false, 0, [], []⟩) t y.key none
        (bytesAt (argNat x 24 8) 64 0))) ∧
  (∀ (s : State) (n : Nat) (x : CmdSlot) (r : FaultRec) (c : Ctx) (deny : Bool), Posted s n x (if deny then 0x23 else 0x22) → s.fbuf = [r] → s.fmiss = [] → r.seq = argNat x 16 4 → r.answered = false → r.pend = 0 →
    s.ctx? r.ctx = some c →
    (c.st ≠ .live → Answers (if deny then .deny else .replay) s x 0 [] { s with fbuf := [{ r with pend := if deny then 2 else 1 }] }) ∧
    (∀ w sl v, c.st = .live → r.holders = [.slot w sl] → s.wave? w = some v → sl < 2 → (v.slot sl).hold = .parked → v.st = .parked →
      v.frameHold0 ≠ .parked → v.frameHold1 ≠ .parked →
      Answers (if deny then .deny else .replay) s x 0 [] { s with
        fbuf := if r.copied then [] else [{ r with answered := true, holders := [] }]
        waves := kmod s.waves w fun _ => { v.setSlot sl { v.slot sl with
            hold := .none, stalled := false, starved := false, again := true
            denied := if deny then (v.slot sl).denied ++ [r.page] else (v.slot sl).denied } with st := .seated } }))

/-- CTXCREATE to EVREAD: a context is made LIVE with a fresh key, halted with HALTREQ, released only when no other fault is
outstanding, resumed after an emergency, reset and destroyed with all its work gone; its root and translations change, and its
stop and event counts are read (R355 to R364, R380, R387, R408, R449). What a reset leaves (log 43), and the order of the
checks (log 44), are the model's choice. -/
def Obligations.ContextCommandsAct : Prop :=
  (∀ s n x, Posted s n x 0x10 → let d := argNat x 16 32; let c := d % 2 ^ 12
    ctxDescBad s d = false →
    (s.ctx? c = none → Answers .ctxcreate s x 0 [] { s with
      ctxs := kput s.ctxs c { newCtx d 0 with key := s.keyGen + 1 }, keyGen := s.keyGen + 1 }) ∧
    (∀ y, s.ctx? c = some y → Answers .ctxcreate s x 1 [] s)) ∧
  (∀ s n x y c, argNat x 16 2 = c → c < 4096 → s.ctx? c = some y →
    let gone (t : State) : Prop := (∀ z ∈ t.waves, z.2.ctx ≠ c) ∧ (∀ z ∈ t.blocks, z.2.ctx ≠ c) ∧ (∀ z ∈ t.gangs, z.2.ctx ≠ c) ∧
      (∀ z ∈ t.grids, z.2.ctx ≠ c) ∧ (∀ z ∈ t.copies, z.2.ctx ≠ c) ∧ (∀ r ∈ t.hall, r.ctx ≠ c) ∧ (∀ r ∈ t.fbuf, r.ctx ≠ c) ∧
      ∀ a, (a < y.poolBase ∨ y.poolBase + 262144 ≤ a) → memGet t.mem a = memGet s.mem a
    let quiet : Prop := (∀ q ∈ s.queues, q.2.ctx ≠ c) ∧ (∀ g ∈ s.grids, g.2.ctx = c → g.2.cpl = 0)
    (Posted s n x 0x11 → y.st = .live ∨ y.st = .halted ∨ y.st = .lost → quiet →
      ∃ t z, Answers .ctxreset s x 0 [] t ∧ t.ctx? c = some z ∧ gone t ∧
        z = { y with
          st := .live, cause := 0, faults := [], key := s.keyGen + 1, vsOpen := Vector.replicate 16 0, vsShut := Vector.replicate 16 0
          mailbox := Vector.replicate 16 0, phase := false, dropped := 0, stops := 0, stopsPrev := 0, stopsDropped := 0, poolUsed := []
          stopped := [], saved := 0 }) ∧
    (Posted s n x 0x11 → y.st = .emergency → Waits .ctxreset s x x.phase s) ∧
    (Posted s n x 0x12 → y.st = .live ∨ y.st = .halted ∨ y.st = .lost → quiet →
      ∃ t, Answers .ctxdestroy s x 0 [] t ∧ t.ctx? c = none ∧ gone t ∧ ∀ z ∈ t.tlb, z.ctx ≠ c) ∧
    (Posted s n x 0x13 → y.st = .live → y.stops < y.stopsPrev + 4096 →
      ∃ t z, Answers .ctxhalt s x 0 [] t ∧ t.ctx? c = some z ∧ { z with stops := y.stops } = { y with
        st := .halted, cause := 0x25, causeRank := 2 ^ 32, causeAt := some y.stops, faults := [], haltTick := s.tick, stopped := [] } ∧
        z.stops = y.stops + 1) ∧
    (Posted s n x 0x14 → y.st = .halted →
      (y.cause = 0x25 → y.faults = [] → (∀ r ∈ s.fbuf, r.ctx = c → r.pend = 0) →
        ∃ t, Answers .ctxrelease s x 0 [] t ∧ t.ctx? c = some { y with st := .live, cause := 0, stopped := [] } ∧ t.mem = s.mem) ∧
      (y.cause ≠ 0x25 ∨ y.faults ≠ [] → Answers .ctxrelease s x 5 [] s)) ∧
    (Posted s n x 0x14 → y.st ≠ .halted → Answers .ctxrelease s x 1 [] s) ∧
    (Posted s n x 0x15 → y.st = .halted → y.cause = 0x24 → (∀ r ∈ s.fbuf, r.ctx = c → r.pend = 0) →
      ∃ t, Answers .ctxresume s x 0 [] t ∧ t.ctx? c = some { y with st := .live, cause := 0, faults := [], saved := 0, stopped := [] } ∧
        t.mem = s.mem) ∧
    (Posted s n x 0x16 → Answers .stopread s x 0 [(20, leBytes 4 y.stops ++ leBytes 4 y.stopsPrev ++ leBytes 4 y.stopsDropped)]
      { s with ctxs := kmod s.ctxs c fun z => { z with stopsPrev := z.stops, stopsDropped := 0 } }) ∧
    (Posted s n x 0x17 → Answers .evread s x 0 [(20, y.events.toList.flatMap (leBytes 4))]
      { s with ctxs := kmod s.ctxs c fun z => { z with events := Vector.replicate 10 0 } }) ∧
    (transInUse s c = false → x.phase = 0 →
      (Posted s n x 0x20 → argNat x 24 8 % 128 = 0 → isDevice s (argNat x 24 8) = true → argNat x 18 2 < 4096 → y.st = .live ∨ y.st = .halted →
        Answers .setroot s x 0 [] { s with
          ctxs := kmod s.ctxs c fun z => { z with root := some (argNat x 24 8, argNat x 18 2) }
          tlb := s.tlb.filter fun t => t.ctx ≠ c }) ∧
      (Posted s n x 0x21 → argNat x 24 9 % 65536 = 0 → let va := argNat x 24 9; let len := 65536 * argNat x 20 4
        Answers .inval s x 0 [] { s with tlb := s.tlb.filter fun t =>
          t.ctx ≠ c || (len ≠ 0 && !(decide (t.va < va + len) && decide (va < t.va + 2 ^ t.bits))) })) ∧
    (transInUse s c = true → x.phase = 1 → Posted s n x 0x21 → argNat x 24 9 % 65536 = 0 → Waits .inval s x 1 s))

/-- CREATEQ to QUERYALL and CLGATE and CLUNGATE: each moves its queue or cluster as R373 and the firmware routines say, and is
refused with NOQUEUE or BADSTATE elsewhere (R365, R373, R374, R437 to R441, R450). That the firmware routines run as phases of
their command (log 38), when MAPQ and UNMAPQ are DONE (log 43), and key 0 for the summary (log 40), are the model's choice. -/
def Obligations.QueueAndClusterCommandsAct : Prop :=
  (∀ s n x q, argNat x 16 4 = q → (1048576 ≤ q →
      (Posted s n x 0x40 → Answers .createq s x 3 [] s) ∧ (Posted s n x 0x41 → Answers .mapq s x 3 [] s) ∧
      (Posted s n x 0x42 → Answers .unmapq s x 3 [] s) ∧ (Posted s n x 0x43 → Answers .drainq s x 3 [] s) ∧
      (Posted s n x 0x44 → Answers .resetq s x 3 [] s) ∧ (Posted s n x 0x45 → Answers .destroyq s x 3 [] s)) ∧
    (q < 1048576 → Posted s n x 0x40 → kget s.queues q = none → argNat x 20 2 < 4096 → ctxLive s (argNat x 20 2) = true →
      4 ≤ argNat x 22 1 → argNat x 22 1 ≤ 20 → argNat x 24 9 % 4096 = 0 → argNat x 33 9 % 4 = 0 →
      Answers .createq s x 0 [] { s with queues := kput s.queues q {
        st := 1, wakePend := false, pinned := false, pagedOut := false, room := none, ctx := argNat x 20 2, widx := 0, ridx := 0
        ring := BitVec.ofNat 72 (argNat x 24 9), logsize := argNat x 22 1, ridxAddr := BitVec.ofNat 72 (argNat x 33 9), err := 0
        tick := s.tick, drain := 0, busy := [], cur := none, idle := s.tick, after := 0, denied := none } }) ∧
    (∀ y, q < 1048576 → kget s.queues q = some y →
      let set (z : Queue) : State := { s with queues := kmod s.queues q fun _ => { z with tick := s.tick } }
      (Posted s n x 0x41 → x.phase = 0 → y.st = 1 → Waits .mapq s x 1 (set { y with st := 2, pinned := true })) ∧
      (Posted s n x 0x41 → x.phase = 0 → y.st = 7 → Waits .mapq s x 1 (set { y with st := 8, pinned := true })) ∧
      (Posted s n x 0x41 → x.phase = 1 → y.st ≠ 2 → y.st ≠ 8 → Answers .mapq s x 0 [] s) ∧
      (Posted s n x 0x42 → x.phase = 0 → y.st = 3 → Waits .unmapq s x 1 (set { y with st := 5, pinned := false })) ∧
      (Posted s n x 0x42 → x.phase = 1 → y.st ≠ 5 → Answers .unmapq s x 0 [] s) ∧
      (Posted s n x 0x43 → y.st = 3 → Answers .drainq s x 0 [] (set { y with st := 4, drain := y.widx })) ∧
      (Posted s n x 0x43 → y.st ≠ 3 → Answers .drainq s x 1 [] s) ∧
      (Posted s n x 0x44 → y.st = 9 → y.ridxAddr = 0 →
        Answers .resetq s x 0 [] (set { y with
          st := 1, ridx := y.widx, err := 0, denied := none
          cur := match y.cur with | some (i, b) => if y.ridx.toNat ≠ i then some (2 ^ 32, b) else none | none => none })) ∧
      (Posted s n x 0x44 → y.st ≠ 9 → Answers .resetq s x 1 [] s) ∧
      (Posted s n x 0x45 → y.st = 1 ∨ y.st = 7 ∨ y.st = 9 → Answers .destroyq s x 0 [] { s with queues := kdel s.queues q }))) ∧
  (∀ s n x, Posted s n x 0x46 → DeviceRange s (argNat x 24 8) (argNat x 16 4) →
    ∃ t, exec .queryallCmd s = .next t ∧ DeviceTakes { s with slots := kput s.slots n (doneSlot s x 0 []) } t 0 none
      (bytesFrom (argNat x 24 8) (qSummary s none (argNat x 16 4)))) ∧
  (∀ s n x c, argNat x 16 1 = c → c < 64 → let k := s.cluster c
    let clear : Cluster := { k with cold := false, buddy := false, order := false }
    let set (y : Cluster) : State := { s with clusters := kput s.clusters c y }
    (Posted s n x 0x50 → x.phase = 0 → k.part = none → Waits .clgate s x 1 (set { clear with pend := k.pend ++ [true] })) ∧
    (Posted s n x 0x50 → x.phase = 0 → k.part ≠ none → Answers .clgate s x 1 [] s) ∧
    (Posted s n x 0x50 → x.phase = 1 → k.pend = [] → (k.buddy = true ∨ k.order = true) →
      Answers .clgate s x 0 [(20, leBytes 4 (powerReg s c 0x08))] s) ∧
    (Posted s n x 0x50 → x.phase = 1 → k.pend = [] → k.buddy = false → k.order = false → Waits .clgate s x 2 s) ∧
    (Posted s n x 0x50 → x.phase = 2 → k.qack = true → k.saving = false → k.st = 2 → Waits .clgate s x 3 (set { k with saving := true, busyAt := s.tick })) ∧
    (Posted s n x 0x50 → x.phase = 3 → k.rsDone = true → k.saving = false → k.st = 3 → k.gate = false → k.off = false → mvOk k.mv = true →
      Waits .clgate s x 4 (set { k with
        st := 5, gate := true, off := true, settled := decide (k.mvNow < 100), slewAt := if k.mvNow = k.mv then s.tick else k.slewAt })) ∧
    (Posted s n x 0x50 → x.phase = 4 → k.offNow = true → Answers .clgate s x 0
      [(20, leBytes 4 (if powerReg s c 0x08 = 0x105 then 0 else powerReg s c 0x08))] s) ∧
    (Posted s n x 0x51 → x.phase = 0 → k.st = 5 → k.saving = false →
      let near : Bool := decide (k.mv ≤ k.mvNow + 10) && decide (k.mvNow ≤ k.mv + 10)
      let woken : Cluster := { clear with
        st := 6, off := false, offNow := false, settled := near
        slewAt := if k.mvNow = (if k.off then 0 else k.mv) then s.tick else k.slewAt }
      (near = false ∨ k.rlBusy = true → Waits .clungate s x 1 (set woken)) ∧
      (near = true → k.rlBusy = false → k.retValid = true →
        Waits .clungate s x 1 (set { woken with rlBusy := true, rlDone := false, busyAt := s.tick })) ∧
      (near = true → k.rlBusy = false → k.retValid = false → Waits .clungate s x 1 { s with
        watch := s.watch.filter fun u => u.1 / 128 ≠ c
        clusters := kput s.clusters c { woken with
          st := 0, qreq := false, qack := false, retValid := false, rsDone := false, gate := false, cold := true, rlDone := false
          wasRun := false } })) ∧
    (Posted s n x 0x51 → x.phase = 1 → k.st % 16 = 0 → Answers .clungate s x 0
      [(20, leBytes 4 ((if k.cold then 64 else 0) + if k.rlDone = true ∧ k.rlBusy = false then 0 else 1))] s))

/-! ### Contexts, record and replay, benches -/

/-- ECCFATAL, KEYFAULT and a stopping engine halt and record as R357 and R360 say: the context is HALTED with its cause and
one stop record, and each engine under the halt line writes one more (R68, R357 to R361, R308). -/
def Parts.ContextFaultsHaltAndRecord : Prop :=
  (∀ s c a, HaltsContext (.eccUncorrectable c a) s { s with mods := eccNoted s a } c 0x20 a) ∧
  (∀ s, HaltsContext .keySlotFault s s s.unit 0x21 0) ∧
  ∀ s c w x v, s.ctx? c = some x → (x.st = .halted ∨ x.st = .emergency ∨ x.st = .resetting) → .wave w ∉ x.stopped →
    s.wave? w = some v → v.ctx = c → v.alive = true → v.st ≠ .saved → x.cause < 256 → x.stops < x.stopsPrev + 4096 →
    DeviceRange s (x.poolBase + 64 * (x.stops % 4096)) 64 →
    ∃ t u r, exec (.engineStop c (.wave w)) s = .next t ∧ StopRecordIs r s.tick.toNat x.cause 0 0 0 ∧
      DeviceTakes { s with ctxs := kmod s.ctxs c fun x => { x with stopped := x.stopped ++ [.wave w], stops := x.stops + 1 } }
        u x.key none (bytesAt (x.poolBase + 64 * (x.stops % 4096)) 64 r) ∧
      t = { u with waves := kmod u.waves w fun v => if v.st = .halted then v else { v with halt := ⟨6, 0, v.liveMask, 0, s.tick⟩ } }

/-- In REPLAY the head issuer's waiting entry is admitted and its run falls; a head issuer that has been missing for
GATEWAIT is a divergence, under which the policy halts the context with DIVERGE or turns replay off; in RECORD an old chunk
is closed, to enter the log at the end of the tick; the first entry of a record's run adds its HASH to the chunk's, which that of
the last record compares (R412, R415, R416, R422, R423). -/
def Parts.GatesAdmitDivergeAndClose : Prop :=
  (∀ s c x k y h, s.ctx? c = some x → x.rec_.streams[k]? = some y → x.st = .live → x.rec_.mode = 2 → x.rec_.diverged = false →
    y.admitted = none → y.left ≠ 0 → 1 < y.headRun → y.waiting.find? (fun z => z.1 = y.headIss) = some (y.headIss, h) →
    ∃ t z y', exec (.gateAdmit c k) s = .next t ∧ t.ctx? c = some z ∧ y' ∈ z.rec_.streams ∧
      { y' with crc := y.crc, verdict := y.verdict } = { y with headRun := y.headRun - 1, admitted := some y.headIss, missing := 0 } ∧
      (let first : Prop := logRun (BitVec.ofNat 64 (devNat s c y.at_ 8)) = y.headRun;
        (first → y'.crc = crcList y.crc (leBytes 8 h.toNat)) ∧ (¬ first → y'.crc = y.crc) ∧
        y'.verdict = if first ∧ y.left = 1 ∧ y'.crc ≠ y.logHash then some (y.chunk, y.recs.length, y.logHash, y'.crc) else none) ∧
      (∀ w v, s.wave? w = some v → ∃ v', t.wave? w = some v' ∧ v'.slot0.stalled = (v.slot0.stalled && decide (v.ctx ≠ c)) ∧ v'.ents = v.ents) ∧
      t.mem = s.mem) ∧
  (∀ s c x k y z, s.ctx? c = some x → x.rec_.streams[k]? = some y → x.st = .live → x.rec_.mode = 2 → x.rec_.diverged = false →
    x.rec_.gateWait ≤ y.missing → y.waiting.head? = some z →
    ∃ t u, exec (.replayIssuerTimeout c k) s = .next t ∧ t.ctx? c = some u ∧ u.rec_.diverged = true ∧
      (x.rec_.free = true → u.st = .live ∧ u.rec_.mode = 0) ∧ (x.rec_.free = false → u.st = .halted ∧ u.cause = 0x26)) ∧
  ∀ s c x k y, s.ctx? c = some x → x.rec_.streams[k]? = some y → findStream x.rec_ y.key y.grid = some y → y.recs ≠ [] →
    y.firstTick.toNat + 1000000 ≤ s.tick.toNat → x.rec_.full = false →
    ∃ t z, exec (.chunkCloseTimeout c k) s = .next t ∧ { t with ctxs := s.ctxs } = s ∧ t.ctx? c = some z ∧
      z.rec_.due = x.rec_.due ++ [y] ∧ { y with chunk := y.chunk + 1, recs := [], crc := 0 } ∈ z.rec_.streams ∧
      { z with rec_ := x.rec_ } = x ∧ z.rec_.bytes = x.rec_.bytes ∧ z.rec_.chunks = x.rec_.chunks

/-- A bench clock issues the wave that R89 chooses and counts its slot in one leaf: a wave passed over 64 times goes first,
then the most urgent class that fits the cluster's budget, the longest lodged before the others; an empty bench counts its
clock in the last leaf (R89, R406, R407). -/
def Parts.BenchClockIssuesOneWave : Prop :=
  (∀ s x, clockRuns s (s.unit / 32) = true → s.unit % 32 ≠ 3 → benchChoice s (s.unit / 32) (readyWaves s s.unit) = some x →
    ∃ t, exec .benchClock s = .next t ∧ t.agenda = .wave x.w x.sl :: s.agenda ∧
      (∃ k, k < 2 ∧ t.counters = kput s.counters (16 * s.unit + k) (kgetD s.counters (16 * s.unit + k) 0 + 1)) ∧
      { t with agenda := s.agenda, counters := s.counters, waves := s.waves } = s ∧
      ∀ w v, s.wave? w = some v → ∃ v', t.wave? w = some v' ∧ v'.ents = v.ents ∧ v'.st = v.st ∧ (w = x.w → v.alive = true → benchOf v.place = s.unit → v'.passed = 0)) ∧
  (∀ s, clockRuns s (s.unit / 32) = true → s.unit % 32 ≠ 3 → benchWaves s s.unit = [] → exec .benchClock s = .next { s with
    counters := kput s.counters (16 * s.unit + 13) (kgetD s.counters (16 * s.unit + 13) 0 + 1) }) ∧
  ∀ s c l x, chooseWave s c l = some x → x ∈ l ∧
    ((∃ y ∈ l, 64 ≤ y.v.passed) → 64 ≤ x.v.passed ∧ ∀ y ∈ l, y.v.passed ≤ x.v.passed) ∧
    ((∀ y ∈ l, y.v.passed < 64) → (s.cluster c).recAt + x.charge ≤ (s.cluster c).budget.toNat ∧
      ∀ y ∈ l, min (classOf s x.v.ctx) 3 ≤ classOf s y.v.ctx)

/-! ### Barriers -/

/-- BARA and BARS take BARMASK for a mask that R86 refuses; else they arrive at their block's barrier, BARA goes on and BARS
loses what does not survive and waits while its arrival stands; without an executing lane they only move on (R85 to R88,
R270, R345, R346, R348). -/
def Parts.BlockBarriersTakeArrivals : Prop :=
  ∀ s w sl v x, Issues s w sl v → let ex := exIn v sl x
    (ex = 0 → WaveBecomes (.bara x) s w (moved v sl) ∧ SeamDone (.bars x) s w sl v x True .ready) ∧
    (∀ b, ex ≠ 0 → OtherIdle v sl → Unrecorded s v.ctx → SourcesFull .bara x v sl → s.block? v.blk = some b →
      let n : Fin 16 := (x.aux.sSub.extractLsb' 0 4).toFin
      let m : BitVec 17 := (src s v x.a (lowLane ex)).extractLsb' 0 17
      (ArrivalBad b n v.idx m → Traps (.bara x) s w v (wordTrap v sl 0x09 ex 0 0) ∧ Traps (.bars x) s w v (wordTrap v sl 0x09 ex 0 0)) ∧
      (¬ ArrivalBad b n v.idx m → ∃ y, TakesArrival b y n v.idx m ∧
        let u : State := { s with blocks := kmod s.blocks v.blk fun _ => y }
        BecomesFrom (.bara x) s u w (moved v sl) ∧
        ∃ v1, SeamCells v v1 x sl ∧
          (Completes b.bars[n] v.idx m → BecomesFrom (.bars x) s u w (moved v1 sl)) ∧
          (¬ Completes b.bars[n] v.idx m → BecomesFrom (.bars x) s u w (waitsAt s v1 sl (.bar n.val)))))

/-- GBAR and XBAR check their block mask, put the wave's bit into its block's word, and wait for their phase, which the last
GBAR arrival completes (R271, R347, R349 to R351). -/
def Parts.GangAndGridBarriersClimbTheTree : Prop := TreeBarrier .gbar .gbar false ∧ TreeBarrier .xbar .xbar true

/-! ### Loads, stores and what they wait for -/

/-- LD, LD.TRK and LDS take their address faults, or leave a producer for their elements: the destination's entries are
EMPTY with their bits kept, the path counter rises, and each element stands at its lane's address (R48, R50, R66, R248 to
R253). -/
def Parts.LaneLoadsLeaveAProducer : Prop :=
  LoadWord .ld .ld false false ∧ LoadWord .ldTrk .ldTrk false true ∧ LoadWord .lds .lds true false

/-- LDT loads one element into each executing lane, by the tile group's rows and columns from its lane-0 address and pitch, in
device memory or on scratchpad (R255). -/
def Parts.TileGroupLoadsReadRowsAndColumns : Prop :=
  ∀ s w sl v x, Issues s w sl v → SourcesFull .ldt x v sl → MemoryFree s w sl v →
    let ex := exIn v sl x; let real := realIn v sl x; let scratch := x.aux.mSub.getLsbD 0
    v.path (if scratch then 1 else 0) < 4095 →
    let width := fmtBits x.ty; let unit := if width < 16 then 1 else width / 8
    let ea := laneEa s v x false 0; let pitch := (src s v x.b (lowLane ex)).toNat
    let bit (l : Nat) : Nat := 8 * (ea + l % 16 * pitch) + l / 16 * width
    let ext (l : Nat) : LoadExt := if width < 8 then .bits (bit l % 8) width else .zext (width / 8)
    (ex = 0 → WaveBecomes (.ldt x) s w (moved v sl)) ∧
    (real ≠ 0 → (ea % unit ≠ 0 ∨ pitch % unit ≠ 0) → Traps (.ldt x) s w v (wordTrap v sl 0x0B real ea 0)) ∧
    (ex ≠ 0 → (real = 0 ∨ (ea % unit = 0 ∧ pitch % unit = 0)) →
      (∀ m : Mask, m ≠ 0 → scratch = true → LanesAre m real (fun l => scratchSize s v.grid < bit l / 8 + (ext l).size) →
        Traps (.ldt x) s w v (wordTrap v sl 0x0C m (bit (lowLane m) / 8) 0)) ∧
      (∀ d b, x.d = some d → opdEnt d = some b → b < 552 →
        (∀ l, l < 64 → real.getLsbD l = true → scratch = true → bit l / 8 + (ext l).size ≤ scratchSize s v.grid) →
        LoadIssues (.ldt x) s w sl v x ex ex (if width = 64 then 2 else 1) scratch false ((lanesOf ex).map fun l =>
          (l, b, if scratch then bit l / 8 else bit l / 8 % 2 ^ 72, ext l))))

/-- ST and STS put their lanes' bytes into the wave's buffer, the highest lane's standing, or take ALIGN, XLATE or WBCAP with no
effect (R66, R71, R76, R248 to R251, R257). -/
def Parts.StoresEnterTheWaveBuffer : Prop := StoreWord .st .st false ∧ StoreWord .sts .sts true

/-- A load's data arrives as its bytes stand at their level: every entry that the producer is still attached to becomes FULL,
LD.TRK tracks its bytes, and the path counter falls; old values and scalars arrive in the lanes that have been served; what
arrives for a wave that has ended is discarded (R48, R50, R66, R78, R92, R252, R254). The last, that data for a wave which has
exited is discarded, is the model's choice (log 51). -/
def Obligations.ProducersBringTheirData : Prop :=
  (∀ s q v items trk, kget s.prods s.unit = some q → q.kind = .load items trk → s.wave? q.wave = some v → v.alive = true →
    Unwatched s v → v.inHandler = false → v.parkTime = none → v.haltDue = none → v.st ≠ .parked → s.fbuf = [] → s.fmiss = [] →
    s.unreach = [] → items ≠ [] → (∀ g, s.gang? v.gang = some g → g.st ≠ .saved ∧ g.st ≠ .restoring) →
    (∀ y ∈ s.prods, y.1 < s.unit → y.2.wave = q.wave → ∀ its t, y.2.kind = .load its t → ∀ it ∈ its, it.data ≠ none ∨ it.dead = true) → (∀ it ∈ items, ItemReads s v it) →
    ∃ v', exec .producerDataArrival s = .next { s with prods := kdel s.prods s.unit, waves := kput s.waves q.wave v', free := s.free + 1 } ∧
      (∀ e l, l < 64 → v'.cell e l = match broughtWord s v items e l with
        | some d => if (v.cell e l).st = .empty s.unit then ⟨d, .full⟩ else v.cell e l
        | none => v.cell e l) ∧
      (∀ k, v'.path k = v.path k - if k = q.path then 1 else 0) ∧
      (trk = false → v'.trk = v.trk) ∧
      (∀ it ∈ items, trk = true → v.helper.getLsbD it.lane = false → ∀ i, i < it.ext.size →
        v'.trk.overflow = true ∨ ∃ y ∈ v'.trk.bytes, y.1 = (it.ea + i) % 2 ^ 72) ∧
      { v' with ents := v.ents, paths := v.paths, trk := v.trk } = tried v) ∧
  (∀ s q v vals wide ent, kget s.prods s.unit = some q → q.kind = .value vals wide ent → s.wave? q.wave = some v → v.alive = true →
    Unwatched s v → v.inHandler = false → vals ≠ [] → (∀ y ∈ vals, y.1 < 64) → ∀ done : Mask, (∀ l, l < 64 → (done.getLsbD l = true ↔ (kget vals l).isSome = true)) →
    ∃ v', (∀ e l, l < 64 → v'.cell e l =
        match (vals.find? fun y => decide (552 ≤ e ∨ y.1 = l)) with
        | some y => if (v.cell e l).st = .empty s.unit ∧ ent ≤ e ∧ e < ent + (if wide then 2 else 1)
          then ⟨if e = ent then y.2.setWidth 32 else y.2.extractLsb' 32 32, .full⟩ else v.cell e l
        | none => v.cell e l) ∧
      { v' with ents := v.ents, paths := v.paths } = tried v ∧
      (q.lanes &&& ~~~done = 0 → (∀ k, v'.path k = v.path k - if k = q.path then 1 else 0) ∧
        exec .producerDataArrival s = .next { s with prods := kdel s.prods s.unit, waves := kput s.waves q.wave v' }) ∧
      (q.lanes &&& ~~~done ≠ 0 → v'.paths = v.paths ∧ exec .producerDataArrival s = .next { s with
        prods := kput s.prods s.unit { q with lanes := q.lanes &&& ~~~done, kind := .value [] wide ent }
        waves := kput s.waves q.wave v' })) ∧
  ∀ s q, kget s.prods s.unit = some q → s.fbuf = [] → s.fmiss = [] → (∀ v, s.wave? q.wave = some v → v.alive = false) →
    exec .producerDataArrival s = .next { s with prods := kdel s.prods s.unit }

/-! ### Commits, checked commits, aborts and fences -/

/-- COMMIT.BLK, COMMIT.GANG and COMMIT.DEV carry the wave's bytes to their level, each as one entry; COMMIT.SYS stages them and
goes on once its last acknowledgement has come; with no executing lane each only moves on (R72, R80, R93, R95, R97, R114,
R258). -/
def Parts.CommitsCarryTheWavesBytes : Prop :=
  ∀ s w sl v x, Issues s w sl v →
    (exIn v sl x = 0 → ∀ i ∈ [Instr.commitBlk x, .commitGang x, .commitDev x, .commitSys x], WaveBecomes i s w (moved v sl)) ∧
    (exIn v sl x ≠ 0 →
      CommitsAt (.commitBlk x) s w sl v 1 false ∧ CommitsAt (.commitGang x) s w sl v 2 false ∧ CommitsAt (.commitDev x) s w sl v 3 false ∧
      StagesSys (.commitSys x) s w sl v ∧
      ∀ cid, SysFinished s w sl v cid → BecomesFrom (.commitSys x) s { s with sysCommits := kdel s.sysCommits cid } w (moved v sl))

/-- COMMIT.CHK writes the reason that forbids its commit, or performs it and writes 0; at SYS a byte tracked outside the
module has met an entry at its home or not, which a free value says: the model's choice (R79, R97, R116, R259; log 6). -/
def Obligations.CheckedCommitsWriteTheirReason : Prop :=
  ∀ s w sl v x, Issues s w sl v → let ex := exIn v sl x; let code := reasonOf v.trk 3
    (ex = 0 → ∀ i ∈ [Instr.commitChkBlk x, .commitChkGangDev x, .commitChkSys x], WaveBecomes i s w (moved v sl)) ∧
    (ex ≠ 0 → ChecksAndCommits (.commitChkBlk x) s w sl v x 1 ∧
      (scopeOf x.md = 2 ∨ scopeOf x.md = 3 → ChecksAndCommits (.commitChkGangDev x) s w sl v x (scopeOf x.md)) ∧
      (s.sysCommits = [] → (∀ y ∈ v.trk.bytes, isDevice s y.2 = true) →
        (code ≠ 0 → LoadsRead s w → ∃ v1, WithD v v1 x ex (BitVec.ofNat 32 code) ∧ WaveBecomes (.commitChkSys x) s w (moved v1 sl)) ∧
        (code = 0 → StagesCheck (.commitChkSys x) s s w sl v)) ∧
      (s.sysCommits = [] → (∃ y ∈ v.trk.bytes, (∃ m, homeOf s y.2 = .module m) ∨ ∃ a, homeOf s y.2 = .host a) →
        let met : Bool := (Config.freeValue s.free).getLsbD 0
        let y : Wave := { v with trk := { v.trk with confDev := v.trk.confDev || met } }
        let u : State := { s with free := s.free + 1 }
        (reasonOf y.trk 3 ≠ 0 → LoadsRead s w → ∃ v1, WithD y v1 x ex (BitVec.ofNat 32 (reasonOf y.trk 3)) ∧
          BecomesFrom (.commitChkSys x) s u w (moved v1 sl)) ∧
        (reasonOf y.trk 3 = 0 → StagesCheck (.commitChkSys x) s u w sl v)) ∧
      ∀ cid, SysFinished s w sl v cid → ∃ v1, WithD v v1 x ex 0 ∧
        BecomesFrom (.commitChkSys x) s { s with sysCommits := kdel s.sysCommits cid } w (moved v1 sl))

/-- ABORT.WAVE empties the wave's buffers and its tracked set; ABORT.BLK and ABORT.GANG empty their pool, count one event, and
mark the waves there that track anything (R81, R82, R98, R260, R408). That only a wave which tracks a byte, or has overflowed,
is marked is the model's choice (log 51). -/
def Obligations.AbortsDiscardTheirLevel : Prop :=
  ∀ s w sl v x, Issues s w sl v →
    let tracking (y : Wave) : Bool := decide (y.trk.bytes ≠ []) || y.trk.overflow
    let counted (i : Fin 10) : KMap Ctx := kmod s.ctxs v.ctx fun c => { c with events := c.events.set i (min (c.events[i] + 1) (2 ^ 32 - 1)) }
    (exIn v sl x = 0 → ∀ i ∈ [Instr.abortWave x, .abortBlk x, .abortGang x], WaveBecomes i s w (moved v sl)) ∧
    (exIn v sl x ≠ 0 →
      WaveBecomes (.abortWave x) s w { moved v sl with bufD := [], bufS := [], trk := Wave.noTrack false } ∧
      (Unrecorded s v.ctx →
        (∃ t, exec (.abortBlk x) s = .next t ∧
          (∀ k, t.wave? k = (s.wave? k).map fun y =>
            let y1 : Wave := if y.blk = v.blk ∧ tracking y = true then { y with trk := { y.trk with abortedBlk := true } } else y
            if k = w then moved y1 sl else y1) ∧
          { t with waves := s.waves } = { s with blocks := kmod s.blocks v.blk fun b => { b with pool := [] }, ctxs := counted 4 }) ∧
        ∃ t, exec (.abortGang x) s = .next t ∧
          (∀ k, t.wave? k = (s.wave? k).map fun y =>
            let y1 : Wave := if y.gang = v.gang ∧ tracking y = true then { y with trk := { y.trk with abortedGang := true } } else y
            if k = w then moved y1 sl else y1) ∧
          { t with waves := s.waves } = { s with gangs := kmod s.gangs v.gang fun g => { g with pool := [] }, ctxs := counted 5 }))

/-- FENCE that releases performs the commit of its scope; an acquiring one orders the wave's earlier loads before its later accesses; an SC one
at SYS also takes a ticket (R75, R100, R117, R261). -/
def Parts.FencesReleaseAndAcquire : Prop :=
  ∀ s w sl v x, Issues s w sl v → let o := x.aux.mOrder; let scope := scopeOf x.md; let acq : Bool := decide (o ∈ [1, 3, 4])
    (exIn v sl x = 0 → WaveBecomes (.fence x) s w (moved v sl)) ∧
    (exIn v sl x ≠ 0 →
      (o ∉ [2, 3, 4] ∨ scope = 0 → pendingLoads s w = [] → BecomesFrom (.fence x) s (Ordered s w acq) w (moved v sl)) ∧
      (o ∈ [2, 3, 4] → scope ∈ [1, 2, 3] → CommitsAt (.fence x) s w sl v scope acq) ∧
      (o ∈ [2, 3, 4] → scope = 4 → StagesSys (.fence x) s w sl v ∧
        ∀ cid, SysFinished s w sl v cid → pendingLoads s w = [] → BecomesFrom (.fence x) s { Ordered s w acq with
          sysCommits := kdel s.sysCommits cid, tickets := if o = 4 then s.tickets + 1 else s.tickets } w (moved v sl)))

/-! ### Atomics, requests, phases and scalars -/

/-- Every ATOM and ATOMD takes its address faults, or releases and then acts: at the block level lane by lane, else as one
request per lane to the gang's or the byte's porter; a returning one awaits its old values on path 3 (R74, R103, R104, R118,
R251, R262 to R264). -/
def Parts.AtomicsActOrSendRequests : Prop :=
  AtomicWord .atomAdd .atomAdd .add false ∧ AtomicWord .atomFadd .atomFadd .fadd false ∧ AtomicWord .atomMin .atomMin .min false ∧
  AtomicWord .atomMax .atomMax .max false ∧ AtomicWord .atomAnd .atomAnd .and false ∧ AtomicWord .atomOr .atomOr .or false ∧
  AtomicWord .atomXor .atomXor .xor false ∧ AtomicWord .atomXchg .atomXchg .xchg false ∧ AtomicWord .atomCas .atomCas .cas false ∧
  AtomicWord .atomIncw .atomIncw .incw false ∧
  AtomicWord .atomdAdd .atomdAdd .add true ∧ AtomicWord .atomdFadd .atomdFadd .fadd true ∧ AtomicWord .atomdMin .atomdMin .min true ∧
  AtomicWord .atomdMax .atomdMax .max true ∧ AtomicWord .atomdAnd .atomdAnd .and true ∧ AtomicWord .atomdOr .atomdOr .or true ∧
  AtomicWord .atomdXor .atomdXor .xor true ∧ AtomicWord .atomdXchg .atomdXchg .xchg true ∧ AtomicWord .atomdCas .atomdCas .cas true ∧
  AtomicWord .atomdIncw .atomdIncw .incw true

/-- Every REDS sends one request without return per lane (R134, R266). -/
def Parts.ReductionsSendRequests : Prop :=
  ReductionWord .redsAdd .redsAdd .add ∧ ReductionWord .redsFadd .redsFadd .fadd ∧ ReductionWord .redsMin .redsMin .min ∧
  ReductionWord .redsMax .redsMax .max ∧ ReductionWord .redsAnd .redsAnd .and ∧ ReductionWord .redsOr .redsOr .or ∧
  ReductionWord .redsXor .redsXor .xor

/-- What an atomic writes over the old value (R263): ADD modulo 2^w, MIN and MAX by TYPE, the bitwise ones, XCHG, CAS only on
equality, INCW back to 0 at the bound. -/
def Parts.AtomicOperationsGiveTheirValue : Prop :=
  ∀ (ty : Fmt) (wide : Bool) (old b c : Nat), let w := if wide then 64 else 32
    atomNew .add ty wide old b c = some ((old + b) % 2 ^ w) ∧
    (∃ r, atomNew .min ty wide old b c = some r ∧ (r = old ∨ r = b) ∧ decodeI ty r = min (decodeI ty old) (decodeI ty b)) ∧
    (∃ r, atomNew .max ty wide old b c = some r ∧ (r = old ∨ r = b) ∧ decodeI ty r = max (decodeI ty old) (decodeI ty b)) ∧
    (∃ p q r, atomNew .and ty wide old b c = some p ∧ atomNew .or ty wide old b c = some q ∧ atomNew .xor ty wide old b c = some r ∧
      ∀ k, p.testBit k = (old.testBit k && b.testBit k) ∧ q.testBit k = (old.testBit k || b.testBit k) ∧ r.testBit k = (old.testBit k ^^ b.testBit k)) ∧
    atomNew .xchg ty wide old b c = some b ∧ (old = b → atomNew .cas ty wide old b c = some c) ∧
    (old ≠ b → atomNew .cas ty wide old b c = none) ∧
    (b ≤ old → atomNew .incw ty wide old b c = some 0) ∧ (old < b → atomNew .incw ty wide old b c = some (old + 1)) ∧
    (wide = false → atomNew .fadd ty wide old b c = some (one32F old b)) ∧
    (wide = true → atomNew .fadd ty wide old b c = some (one32F (old % 2 ^ 32) (b % 2 ^ 32) + 2 ^ 32 * one32F (old / 2 ^ 32) (b / 2 ^ 32)))

/-- A porter serves the oldest request at an address: it acts there under its context's key as one entry of its wave, its old
value goes to its lane, and it leaves the hall; while its phase is open a held-class request is kept instead (R104 to R107,
R123). -/
def Parts.PortersServeAndHold : Prop :=
  ∀ s r v pa, s.hall.find? (fun y => decide (y.id = s.unit)) = some r → ctxSettles s r.ctx = true → reqBehind s r = false →
    reqStaged s r = false → reqHeld s r = false → s.unreach = [] → r.acq = false → Unrecorded s r.ctx → s.wave? r.wave = some v →
    let hall := s.hall.filter fun y => decide (y.id ≠ r.id)
    let n := if r.wide then 8 else 4
    (r.at_ = .dev pa → (∀ j, j < n → isDevice s (pa + j) = true) → (r.holds = false ∨ ∀ c, s.ctx? r.ctx = some c → c.phase = false) →
      let old := leNat ((List.range n).map fun j => devByte s r.ctx (pa + j))
      let prods := match r.ret with
        | none => s.prods
        | some p => kmod s.prods p fun q => match q.kind with
          | .value vals wide ent => { q with kind := .value (kput vals r.lane (BitVec.ofNat 64 old)) wide ent }
          | _ => q
      match atomNew r.op r.ty r.wide old r.b.toNat r.c.toNat with
      | none => exec .porterServe s = .next { s with hall, prods, free := s.free + 1, waves := kmod s.waves r.wave tried }
      | some d => ∃ t, DeviceTakes s t (keyOf s r.ctx) (some r.wave) (bytesAt pa n d) ∧
          exec .porterServe s = .next { t with hall, prods, free := s.free + 2, waves := kmod t.waves r.wave tried }) ∧
    (∀ c k, r.holds = true → (∀ g a p, r.at_ ≠ .gang g a p) → s.ctx? r.ctx = some c → c.phase = true → k = s.cluster r.home →
      let mine := k.held.filter fun y => decide (y.ctx = r.ctx) && decide (y.at_ = r.at_)
      (mine = [] → (r.ctx, r.at_) ∉ k.ovfAddrs → (heldAddrs k).length < 256) → mine.length < 16 →
      exec .porterServe s = .next { s with
        hall, clusters := kput s.clusters r.home { k with held := k.held ++ [r] }, waves := kmod s.waves r.wave tried })

/-- DPHASE.OPEN opens the context's phase; DPHASE.CLOSE shuts it, after every porter has applied what it holds and then what has
overflowed, each in ascending rank, under the context's key, and writes the dropped count; each is ignored where it finds the phase
so, and an ignored CLOSE writes 0 (R106, R107, R267). -/
def Parts.PhasesOpenAndClose : Prop :=
  ∀ s w sl v x c, Issues s w sl v → Unwatched s v → s.ctx? v.ctx = some c → let ex := exIn v sl x
    (ex = 0 → WaveBecomes (.dphaseOpen x) s w (moved v sl) ∧ WaveBecomes (.dphaseClose x) s w (moved v sl)) ∧
    (ex ≠ 0 →
      (c.phase = true → WaveBecomes (.dphaseOpen x) s w (moved v sl)) ∧
      (c.phase = false → BecomesFrom (.dphaseOpen x) s
        { s with ctxs := kmod s.ctxs v.ctx fun c => { c with phase := true, dropped := 0 } } w (moved v sl)) ∧
      (s.staged = [] → s.sysCommits = [] → (∀ r ∈ s.hall, r.wave = w → r.holds = false) → c.rec_.mode ≠ 2 →
        (c.phase = false → ∃ v1, WithD v v1 x ex 0 ∧ WaveBecomes (.dphaseClose x) s w (moved v1 sl)) ∧
        (c.phase = true → (s.clusters.map Prod.fst).Nodup →
          let mine (l : List Req) : List Req := l.filter fun r => decide (r.ctx = v.ctx)
          (∀ y ∈ s.clusters, ∀ r ∈ mine y.2.held ++ mine y.2.ovf,
            (∃ pa, r.at_ = .dev pa ∧ ∀ j, j < r.size → isDevice s (pa + j) = true) ∨ ∃ n, n < 16 ∧ r.at_ = .scalar n) →
          ∃ (order : List Req → List Req) (v1 v2 : Wave) (t : State) (z : Ctx),
            (∀ l, (order l).Perm l ∧ (order l).Pairwise fun a b => rankLt b a = false) ∧
            let rs := s.clusters.flatMap fun y => order (mine y.2.held) ++ order (mine y.2.ovf)
            let bytes := rs.foldl (fun (m : (Nat → Byte) × List Nat) r =>
              match r.at_ with
              | .dev pa => let q := runLanes r.op r.ty r.wide [⟨r.lane, pa, r.b.toNat, r.c.toNat⟩] m.1; (q.1, m.2 ++ q.2.2)
              | _ => m) (fun a => devByte s v.ctx a, [])
            let scalars := rs.foldl (fun (m : Nat → Word) r =>
              match r.at_ with
              | .scalar n => fun k => if k = n then
                  ((atomNew r.op r.ty r.wide (m n).toNat r.b.toNat r.c.toNat).map (BitVec.ofNat 32)).getD (m n) else m k
              | _ => m) fun n => (c.vsOpen.toList[n]?).getD 0
            exec (.dphaseClose x) s = .next t ∧ t.wave? w = some (moved v2 sl) ∧
            WithD v1 v2 x ex (BitVec.ofNat 32 c.dropped) ∧ { v1 with trk := v.trk } = v ∧
            t.ctx? v.ctx = some z ∧ (∀ n : Fin 16, z.vsOpen[n] = scalars n) ∧
            { z with vsOpen := c.vsOpen } = { c with phase := false, dropped := 0 } ∧ (∀ k, k ≠ v.ctx → t.ctx? k = s.ctx? k) ∧
            (∀ k l, kget s.clusters k = some l → kget t.clusters k = some { l with
              held := l.held.filter fun r => decide (r.ctx ≠ v.ctx), ovf := l.ovf.filter fun r => decide (r.ctx ≠ v.ctx)
              ovfAddrs := l.ovfAddrs.filter fun y => decide (y.1 ≠ v.ctx) }) ∧
            (∀ a, memGet t.mem a = if a ∈ bytes.2 then bytes.1 a else memGet s.mem a) ∧
            ∀ a, kget t.memKey a = if a ∈ bytes.2 then (if c.key = 0 then none else some c.key) else kget s.memKey a)))

/-- VSRED sends one held-class request per lane to its scalar's OPEN half, VSRD awaits SHUT on path 3, and VSCL moves OPEN to
SHUT and clears it (R135, R275). -/
def Parts.VersionedScalarsReduceReadAndClose : Prop :=
  ∀ s w sl v x, Issues s w sl v → let ex := exIn v sl x; let real := realIn v sl x; let n := x.aux.vIdx
    (ex = 0 → WaveBecomes (.vsrd x) s w (moved v sl) ∧ WaveBecomes (.vscl x) s w (moved v sl)) ∧
    (SourcesFull .vsred x v sl → ∃ rs : List Req, rs.length = (lanesOf real).length ∧
      (∀ k l r, (lanesOf real)[k]? = some l → rs[k]? = some r →
        r.id = s.nextId + k ∧ r.seqNo = s.nextId + k ∧ r.ctx = v.ctx ∧ r.wave = w ∧ r.lane = l ∧ r.issuer = issuer s v l ∧
        r.first = issuer s v (lowLane ex) ∧ r.hash = v.hash ∧ r.slot = sl ∧ r.pc = (v.slot sl).pc ∧ r.home = n ∧ r.at_ = .scalar n ∧ r.op = (if x.ty = .f32 then .fadd else .add) ∧ r.b = BitVec.ofNat 64 (atomSrc s v r.op false x.b l) ∧
        r.ret = none ∧ r.holds = true ∧ r.wide = false) ∧
      BecomesFrom (.vsred x) s { s with hall := s.hall ++ rs, nextId := s.nextId + (lanesOf real).length } w (moved v sl)) ∧
    (∀ c d e, ex ≠ 0 → v.path 3 < 4095 → s.ctx? v.ctx = some c → x.d = some d → opdEnt d = some e →
      (∀ p ∈ s.prods, p.1 < s.nextId) →
      let m := match d with | .w _ => laneBit (lowLane ex) | _ => ex
      let shut : DWord := ((c.vsShut.toList[n]?).getD 0).setWidth 64
      ∃ t v' q, exec (.vsrd x) s = .next t ∧ NewProducer s t w v' q ∧ AwaitsData v v' sl m e 1 s.nextId 3 ∧
        { q with shown := .none } = ⟨w, sl, 3, (v.slot sl).pc, m, v.helper, .value ((lanesOf m).map fun l => (l, shut)) false e, .none, false⟩) ∧
    (ex ≠ 0 → (∀ r ∈ s.hall, r.wave = w → ∀ k, r.at_ ≠ .scalar k) → (hn : n < 16) →
      BecomesFrom (.vscl x) s { s with ctxs := kmod s.ctxs v.ctx fun c => { c with
        vsShut := c.vsShut.set n c.vsOpen[n], vsOpen := c.vsOpen.set n 0 } } w (moved v sl))

/-! ### Copies and carried arrivals -/

/-- CPY starts one copy for its lowest executing lane, CPYQ one for each executing lane that is no helper lane (R124 to R126,
R251, R272 to R274). -/
def Parts.CopyWordsStartTheirCopies : Prop :=
  ∀ s w sl v x, Issues s w sl v → let ex := exIn v sl x
    (ex = 0 → WaveBecomes (.cpy x) s w (moved v sl) ∧ WaveBecomes (.cpyq x) s w (moved v sl)) ∧
    (ex ≠ 0 → Readable v (copyNeeds x (issOf .cpy x w sl v)) →
      StartsCopies (.cpy x) s w sl v x [lowLane ex] fun _ => (v.base x.aux.mBase + x.aux.mImm.signExtend 72).toNat) ∧
    (ex ≠ 0 → Readable v (copyNeeds x (issOf .cpyq x w sl v)) →
      StartsCopies (.cpyq x) s w sl v x (lanesOf (realIn v sl x)) (laneEa s v x (o64c x.md)))

/-- A courier carries its copy's next bytes, up to the end of a 64-byte line of the destination, from their level into theirs;
a refused line ends the copy with XLATE for its wave (R123, R124, R127, R130, R273, R274). How far one line of the courier goes
is the model's choice (log 26). -/
def Parts.CouriersCarryLines : Prop :=
  ∀ s c, CopyGoes s c → let n := min (64 - (c.dst + c.done) % 64) (c.len - c.done)
    (∀ b pa, c.dir = 1 → s.block? c.blk = some b → SideReads s c.ctx (c.dst + c.done) n .write pa →
      ∃ t u, DeviceTakes s u (keyOf s c.ctx) none ((List.range n).map fun i => (pa i, kgetD b.scratch (c.src + c.done + i) 0)) ∧
        CopyMoved u t c n ∧ exec .courierLine s = .next t) ∧
    (∀ b pa, c.dir = 0 → s.block? c.blk = some b → b.window = false → b.saved.length ≤ 256 → Unrecorded s c.ctx →
      SideReads s c.ctx (c.src + c.done) n .read pa →
      ∃ t y, (∀ a, kgetD y.scratch a 0 = if c.dst + c.done ≤ a ∧ a < c.dst + c.done + n then devByte s c.ctx (pa (a - (c.dst + c.done)))
          else kgetD b.scratch a 0) ∧ { y with scratch := b.scratch, stamp := b.stamp } = b ∧
        CopyMoved { s with free := s.free + 1, blocks := kmod s.blocks c.blk fun _ => y } t c n ∧ exec .courierLine s = .next t) ∧
    (∀ pa pb, c.dir = 2 → SideReads s c.ctx (c.src + c.done) n .read pa → SideReads s c.ctx (c.dst + c.done) n .write pb →
      ∃ t u, DeviceTakes { s with free := s.free + 1 } u (keyOf s c.ctx) none ((List.range n).map fun i => (pb i, devByte s c.ctx (pa i))) ∧
        CopyMoved u t c n ∧ exec .courierLine s = .next t) ∧
    (∀ v, c.dir = 1 → s.wave? c.wave = some v → v.alive = true → xlate s c.ctx ((c.dst + c.done) % 2 ^ 72) .write = .xlate →
      ∃ v', exec .courierLine s = .next { s with
          copies := if c.arrive = none then kdel s.copies s.unit else kput s.copies s.unit { c with done := c.len }
          waves := kmod s.waves c.wave fun _ => v' } ∧
        v'.late = v.late ++ [⟨0x0C, c.pc, 0, c.dst + c.done, 0, false, true, some c.slot, 0⟩] ∧ { v' with late := v.late, paths := v.paths } = v)

/-- A carried arrival is applied once every copy of its word is done: its PENDING bit falls and it arrives as any other, or is
BARMASK for its wave where the stored mask differs (R126, R348). -/
def Parts.CarriedArrivalsAreApplied : Prop :=
  ∀ s c (n : Fin 16) m b v y, kget s.copies s.unit = some c → c.arrive = some (n.val, m) → c.len ≤ c.done →
    (∀ z ∈ s.copies, z.2.group = c.group → z.1 = s.unit) → s.ctx? c.ctx = some y → y.st = .live → y.rec_.mode = 0 →
    s.block? c.blk = some b → b.st ≠ .restoring → s.wave? c.wave = some v → v.alive = true →
    let b1 : Block := { b with bars := b.bars.set n { b.bars[n] with pending := b.bars[n].pending &&& ~~~(BitVec.ofNat 17 (2 ^ v.idx)) } }
    (b.bars[n].mask = 0 ∨ b.bars[n].mask = m → ∃ z, TakesArrival b1 z n v.idx m ∧ exec .carriedArrival s = .next { s with
      copies := kdel s.copies s.unit, blocks := kmod s.blocks c.blk fun _ => z }) ∧
    (b.bars[n].mask ≠ 0 → b.bars[n].mask ≠ m → exec .carriedArrival s = .next { s with
      copies := kdel s.copies s.unit, blocks := kmod s.blocks c.blk fun _ => b1
      waves := kmod s.waves c.wave fun v => { v with late := v.late ++ [⟨0x09, c.pc, 0, 0, 0, false, true, some c.slot, 0⟩] } })

/-! ### The matrix sequencer's words, the unit, OBST and ACRD -/

/-- MRES makes a handle of a free range of the operand buffer, or takes OBRANGE; MREL frees it once no queued MMA reads it
(R279, R281 to R283). -/
def Parts.ReservationsAreMadeAndReleased : Prop :=
  ∀ s bk b x (h : Fin 32), SeqIssues s bk b → x.d = some (.o h) →
    let r := newRange b x; let old := b.handles[h]; let bad : Prop := RangeBad s b h r; let read : Prop := RangeRead s bk b h
    (bad → SeqFaults (.mres x) s bk b 0x0F 0) ∧
    (¬ bad → SeqBecomes (.mres x) s bk (seqPast { b with handles := b.handles.set h r })) ∧
    (old.live = true → read → SeqWaits (.mrel x) s bk b) ∧
    (old.live = false ∨ ¬ read → SeqBecomes (.mrel x) s bk (seqPast { b with handles := b.handles.set h { old with live := false } }))

/-- MLD takes 32 × 32 elements, or 32 scale records, from the scratchpad as of the snapshot point into its handle's range, or
takes OBRANGE, ALIGN or XLATE, or waits for the MMAs that read the range (R129, R130, R143, R145 to R147, R279, R284). -/
def Parts.MatrixLoadsFillTheirRange : Prop :=
  ∀ s bk b x (h : Fin 32), SeqIssues s bk b → x.d = some (.o h) →
    let r := b.handles[h]; let w := fmtBits r.fmt; let tr := x.aux.qSub.getLsbD 0; let sc := x.aux.qSub.getLsbD 1
    let a := (seqSrc b x.a).toNat; let p := (seqSrc b x.b).toNat; let c := (seqSrc b x.c).toNat
    let inRange : Prop := LoadInRange s b x r; let read : Prop := RangeRead s bk b h; let none_ : Prop := LoadNone b x r
    let odd : Prop := LoadOdd b x
    (none_ → SeqFaults (.mld x) s bk b 0x0F 0) ∧ (¬ none_ → odd → SeqFaults (.mld x) s bk b 0x0B a) ∧
    (¬ none_ → ¬ odd → ¬ inRange → SeqFaults (.mld x) s bk b 0x0C a) ∧
    (¬ none_ → ¬ odd → inRange → read → SeqWaits (.mld x) s bk b) ∧
    (¬ none_ → ¬ odd → inRange → ¬ read →
      ∃ y, SeqBecomes (.mld x) s bk (seqPast y) ∧ { y with obuf := b.obuf } = b ∧
        (sc = false → ∃ code : Nat → Nat → Nat, PlanesHold b y r c code ∧ ∀ row k j, row < 32 → k < 32 → j < w →
          let bit := (if tr then 8 * (a + k * p) + row * w else 8 * (a + row * p) + k * w) + j
          (code row k).testBit j = (snapByte b (bit / 8)).getLsbD (bit % 8)) ∧
        (sc = true → (∀ row j, row < 32 → j < 8 → kgetD y.obuf (8 * r.soff + 8 * (32 * c + row) + j) 0 =
            if j < 5 then snapByte b (a + 8 * row + j) else 0) ∧
          ObufOutside b y.obuf (8 * r.soff + 256 * c) 256))

/-- MMA and MZA queue their step on a tile, EMPTY until it completes; MMA of no K-step only moves on; a handle that is free or
short, a LOST tile and a tile that an ACRD still reads are OBRANGE, STRANDLOSS and ACCBUSY (R132, R278, R285, R286). -/
def Parts.MatrixStepsAreQueued : Prop :=
  ∀ s bk b x (t : Fin 64), SeqIssues s bk b → x.d = some (.t t) →
    let q := b.seq; let tl := kgetD b.tiles t.val .lost
    (∀ oa ob : Fin 32, x.a = some (.o oa) → x.b = some (.o ob) →
      let n := (seqSrc b x.c).toNat; let ra := b.handles[oa]; let rb := b.handles[ob]
      let bad : Prop := ra.live = false ∨ rb.live = false ∨ ra.ks < n ∨ rb.ks < n
      (n = 0 → SeqBecomes (.mma x) s bk (seqPast b)) ∧
      (n ≠ 0 → bad → SeqFaults (.mma x) s bk b 0x0F 0) ∧
      (n ≠ 0 → ¬ bad → tl.st = .lost → SeqFaults (.mma x) s bk b 0x05 0) ∧
      (n ≠ 0 → ¬ bad → tl.st ≠ .lost → tl.holds ≠ 0 → SeqFaults (.mma x) s bk b 0x0E 0) ∧
      (n ≠ 0 → ¬ bad → tl.st ≠ .lost → tl.holds = 0 →
        QueuesStep (.mma x) s bk b t.val ⟨bk, t.val, false, oa.val, ob.val, n, q.rowP, q.colP, q.kP, false, q.pc, 0⟩)) ∧
    (tl.holds ≠ 0 → SeqFaults (.mza x) s bk b 0x0E 0) ∧
    (tl.holds = 0 → QueuesStep (.mza x) s bk b t.val ⟨bk, t.val, true, 0, 0, 0, q.rowP, q.colP, q.kP, decide (tl.st = .lost), q.pc, 0⟩)

/-- The next step of a core's queue completes, an MMA once it has executed for its clocks: MZA clears the kept elements, MMA folds
each K-step into them as R156 says, and the tile is FULL once no step waits on it (R132, R156, R285, R286). -/
def Parts.MatrixStepsComplete : Prop :=
  ∀ s m rest b c, kgetD s.matrix s.unit [] = m :: rest → s.block? m.blk = some b → s.ctx? b.ctx = some c → c.st = .live →
    (∀ n, n < 16 → (watchUnit s (blockCore b) n).arm = false ∨ (watchUnit s (blockCore b) n).ctx ≠ b.ctx) →
    let clocks := if m.zero then 0 else fmtBits (handle b m.oa).fmt * (if fmtBits (handle b m.ob).fmt ≤ 8 then 1 else 2) * m.n
    (m.ran < clocks → exec .matrixComplete s = .next s) ∧
    (clocks ≤ m.ran → ∃ t y z, exec .matrixComplete s = .next t ∧ t.blocks = kmod s.blocks m.blk (fun _ => y) ∧
      t.matrix = kput s.matrix s.unit rest ∧ { t with blocks := s.blocks, matrix := s.matrix } = s ∧
      { y with tiles := b.tiles } = b ∧ y.tiles = kput b.tiles m.tile z ∧
      let old := kgetD b.tiles m.tile .lost
      z.queued = old.queued - 1 ∧ z.holds = old.holds ∧ z.st = (if old.queued ≤ 1 then .full else .empty) ∧
      (m.zero = true → TileIs z fun i j => if m.lostStart = true ∨ (m.rowP.getLsbD i = true ∧ m.colP.getLsbD j = true) then 0 else old.elem i j) ∧
      (m.zero = false → TileIs z fun i j => if m.rowP.getLsbD i = true ∧ m.colP.getLsbD j = true then
        (List.range m.n).foldl (fun acc st => matrixStep b (handle b m.oa) (handle b m.ob) m.kP st i j acc) (old.elem i j) else old.elem i j))

/-- MPRED sets the sequencer's predicates, the MLOOP words its Q registers and its PC, and NOP nothing (R186, R287, R289). -/
def Parts.SequencerRegisterWords : Prop :=
  ∀ s bk b x, SeqIssues s bk b →
    SeqBecomes (.nop x) s bk (seqPast b) ∧
    SeqBecomes (.mpred x) s bk (seqPast { b with seq := { b.seq with rowP := seqSrc b x.a, colP := seqSrc b x.b, kP := seqSrc b x.c } }) ∧
    SeqBecomes (.mloopJmp x) s bk (seqAt b (b.seq.pc + x.aux.qTgt.signExtend 32 * 16)) ∧
    ∀ k : Fin 8, x.d = some (.q k) →
      let set (v : Word) : Block := { b with seq := { b.seq with q := b.seq.q.set k v } }
      let v := b.seq.q[k] - 1
      SeqBecomes (.mloopSet x) s bk (seqPast (set (seqSrc b x.a))) ∧
      SeqBecomes (.mloopAdd x) s bk (seqPast (set (b.seq.q[k] + seqSrc b x.a))) ∧
      (v = 0 → SeqBecomes (.mloopDec x) s bk (seqPast (set v))) ∧
      (v ≠ 0 → SeqBecomes (.mloopDec x) s bk (seqAt (set v) (b.seq.pc + x.aux.qTgt.signExtend 32 * 16)))

/-- MSIG arrives for party 16 or is BARMASK; MWAIT waits while party 16 stands at its barrier, its window over, and else goes on
with its snapshot at the barrier's last completion; MEND stops the sequencer (R86, R129, R130, R288, R291, R348). -/
def Parts.SequencerBarrierWords : Prop :=
  ∀ s bk b x, SeqIssues s bk b → HasWave s b → let n : Fin 16 := (x.aux.qSub.extractLsb' 0 4).toFin
    let m : BitVec 17 := (seqSrc b x.a).extractLsb' 0 17
    let waits : Prop := b.bars[n].arrived.getLsbD 16 = true ∨ b.bars[n].pending.getLsbD 16 = true
    (Unrecorded s b.ctx → (ArrivalBad b n 16 m → SeqFaults (.msig x) s bk b 0x09 0) ∧
      (¬ ArrivalBad b n 16 m → ∃ y, TakesArrival b y n 16 m ∧ SeqBecomes (.msig x) s bk (seqPast y))) ∧
    (waits → SeqBecomes (.mwait x) s bk { b with seq := { b.seq with st := .waitBar n.val }, window := false, pre := [], saved := [] }) ∧
    (¬ waits → ∃ y, SeqBecomes (.mwait x) s bk (seqPast y) ∧ y.snapAt = max b.snapAt b.doneAt[n] ∧
      { y with snapAt := b.snapAt, pre := b.pre } = b ∧
      (b.doneAt[n] ≤ b.snapAt → y.pre = b.pre) ∧
      (b.snapAt < b.doneAt[n] → ∀ z ∈ y.pre, ∀ u ∈ z.2, b.doneAt[n] < u.1)) ∧
    SeqBecomes (.mend x) s bk { b with seq := { b.seq with st := .ended }, window := false, pre := [], saved := [] }

/-- MST writes the kept elements of a FULL tile, rounded to TYPE, into the scratchpad as one entry of the block, waits for an
EMPTY tile, and takes ALIGN, XLATE or STRANDLOSS (R130, R149, R290). That ALIGN and the range come before the tile's state is
the model's choice (log 25). -/
def Parts.MatrixStoresWriteTheirTile : Prop :=
  ∀ s bk b x (n : Fin 64), SeqIssues s bk b → x.a = some (.t n) →
    let t := kgetD b.tiles n.val .lost; let w := fmtBits x.ty / 8
    let off := (seqSrc b x.b).toNat; let pitch := (seqSrc b x.c).toNat
    let kept (i j : Nat) : Prop := i < 32 ∧ j < 32 ∧ b.seq.rowP.getLsbD i = true ∧ b.seq.colP.getLsbD j = true
    let at_ (i j : Nat) : Nat := if x.aux.qSub.getLsbD 0 then off + j * pitch + i * w else off + i * pitch + j * w
    let bad : Prop := off % w ≠ 0 ∨ pitch % w ≠ 0
    let inRange : Prop := ∀ i j, kept i j → at_ i j + w ≤ scratchSize s b.grid
    (bad → SeqFaults (.mst x) s bk b 0x0B off) ∧ (¬ bad → ¬ inRange → SeqFaults (.mst x) s bk b 0x0C off) ∧
    (¬ bad → inRange → t.st = .lost → SeqFaults (.mst x) s bk b 0x05 0) ∧
    (¬ bad → inRange → t.st = .empty → SeqWaits (.mst x) s bk b) ∧
    (¬ bad → inRange → t.st = .full → b.window = false → b.saved.length ≤ 256 → Unrecorded s b.ctx →
      (∀ i j k l, kept i j → kept k l → (i ≠ k ∨ j ≠ l) → at_ i j + w ≤ at_ k l ∨ at_ k l + w ≤ at_ i j) →
      ∃ y, SeqBecomes (.mst x) s bk (seqPast y) ∧ { y with scratch := b.scratch, stamp := b.stamp } = b ∧ y.stamp = b.stamp + 1 ∧
        (∀ i j k, kept i j → k < w → kgetD y.scratch (at_ i j + k) 0 =
          BitVec.ofNat 8 ((roundTo (decodeF .f32 (t.elem i j).toNat) x.ty (rmOf x.md) (satOf x.md) 0).1 / 256 ^ k)) ∧
        ∀ a, (∀ i j, kept i j → a < at_ i j ∨ at_ i j + w ≤ a) → kgetD y.scratch a 0 = kgetD b.scratch a 0)

/-- OBST writes the codes, or the scale records, that its lanes hold into a handle's range, and takes OBRANGE outside it; ACRD
awaits slices of a FULL tile on path 4, with a read hold, and takes OBRANGE, STRANDLOSS or EMPTYTRAP, or stalls; what a source
waits for or faults on comes before OBRANGE (R51, R132, R143, R146, R147, R164, R293, R294). Which entries OBST checks where OBRANGE
follows, and that a tile the kernel does not have is OBRANGE at once, is the model's choice (log 25). -/
def Obligations.WavesReachTheMatrixUnit : Prop :=
  (∀ s w sl v x a e b, Issues s w sl v → s.block? v.blk = some b → x.a = some a → opdEnt a = some e →
    let ex := exIn v sl x; let sc := x.aux.xBits.getLsbD 5; let r := handle b (x.aux.xBits.extractLsb' 0 5).toNat
    let c := (src s v x.b (lowLane ex)).toNat; let wd := fmtBits r.fmt; let per := perEntry r.fmt
    let span := if sc then 2 else 16 / per
    let bad : Prop := r.live = false ∨ (if sc then r.kblocks ≤ c else r.ks ≤ c) ∨ levelSize s v.grid a < opdIdx a + span
    let m : Mask := if sc then ex &&& 0xFFFFFFFF else ex
    let nd : List Need := ⟨e, min (if r.live then span else 1) (levelSize s v.grid a - opdIdx a), m, x.eb.getLsbD 2⟩ ::
      needOf uni1 x.b ex (x.eb.getLsbD 1)
    (ex = 0 → WaveBecomes (.obst x) s w (moved v sl)) ∧
    (ex ≠ 0 → bad → Readable v nd → Traps (.obst x) s w v (wordTrap v sl 0x0F ex 0 0)) ∧
    (ex ≠ 0 → ¬ bad → Readable v nd →
      ∃ y, { y with obuf := b.obuf } = b ∧ BecomesFrom (.obst x) s { s with blocks := kmod s.blocks v.blk fun _ => y } w (moved v sl) ∧
        (sc = false → PlanesHold b y r c fun row k => let l := row + 32 * (k / 16)
          if m.getLsbD l = true then (v.cell (e + k % 16 / per) l).val.toNat / 2 ^ (wd * (k % 16 % per)) % 2 ^ wd else planeCode b r c row k) ∧
        (sc = true → (∀ row j, row < 32 → j < 8 → kgetD y.obuf (8 * r.soff + 8 * (32 * c + row) + j) 0 =
            if m.getLsbD row = true then
              (if j < 5 then BitVec.ofNat 8 (((v.cell e row).val.toNat + 2 ^ 32 * (v.cell (e + 1) row).val.toNat) / 256 ^ j) else 0)
            else kgetD b.obuf (8 * r.soff + 8 * (32 * c + row) + j) 0) ∧
          ObufOutside b y.obuf (8 * r.soff + 256 * c) 256))) ∧
  (∀ s w sl v x d e b g, Issues s w sl v → SourcesFull .acrd x v sl → s.block? v.blk = some b → descOf s v.grid = some g →
    x.d = some d → opdEnt d = some e →
    let ex := exIn v sl x; let t := (x.aux.xBits.extractLsb' 0 6).toNat; let n := 4 ^ (x.aux.xBits.extractLsb' 6 2).toNat
    let first := (src s v x.b (lowLane ex)).toNat; let tl := kgetD b.tiles t .lost
    (ex = 0 → WaveBecomes (.acrd x) s w (moved v sl)) ∧
    (ex ≠ 0 → g.tiles ≤ t → Traps (.acrd x) s w v (wordTrap v sl 0x0F ex 0 0)) ∧
    (ex ≠ 0 → t < g.tiles → tl.st = .lost → Traps (.acrd x) s w v (wordTrap v sl 0x05 ex 0 0)) ∧
    (ex ≠ 0 → t < g.tiles → tl.st = .empty →
      (x.eb.getLsbD 2 = true → Traps (.acrd x) s w v (wordTrap v sl 0x06 ex 0 0)) ∧
      (x.eb.getLsbD 2 = false → WaveBecomes (.acrd x) s w (v.setSlot sl { v.slot sl with stalled := true, starved := true, capped := false }))) ∧
    (ex ≠ 0 → t < g.tiles → tl.st = .full → 16 < first + n → Traps (.acrd x) s w v (wordTrap v sl 0x0F ex 0 0)) ∧
    (ex ≠ 0 → t < g.tiles → tl.st = .full → first + n ≤ 16 → v.path 4 < 4095 → ∃ u v' q, exec (.acrd x) s = .next u ∧
      NewProducer { s with blocks := kmod s.blocks v.blk fun b => { b with tiles := kput b.tiles t { tl with holds := tl.holds + 1 } } } u w v' q ∧
      AwaitsData v v' sl ex e n s.nextId 4 ∧
      { q with shown := .none } = ⟨w, sl, 4, (v.slot sl).pc, ex, v.helper, .acrd t first n e, .none, false⟩)) ∧
  ∀ s q v b t first n e, kget s.prods s.unit = some q → q.kind = .acrd t first n e → s.wave? q.wave = some v → v.alive = true →
    v.inHandler = false → Unwatched s v → s.block? v.blk = some b → e + n ≤ 552 → let tl := kgetD b.tiles t .lost
    ∃ v', exec .acrdDelivery s = .next { s with
        prods := kdel s.prods s.unit, waves := kput s.waves q.wave v'
        blocks := kmod s.blocks v.blk fun b => { b with tiles := kput b.tiles t { tl with holds := tl.holds - 1 } } } ∧
      (∀ k l, l < 64 → v'.cell k l = if q.lanes.getLsbD l = true ∧ e ≤ k ∧ k < e + n ∧ (v.cell k l).st = .empty s.unit
        then ⟨tl.elem (2 * (first + (k - e)) + l / 32) (l % 32), .full⟩ else v.cell k l) ∧
      (∀ k, v'.path k = v.path k - if k = q.path then 1 else 0) ∧
      { v' with ents := v.ents, paths := v.paths } = tried v

/-! ### Watch units, mailbox, markers and inspection -/

/-- WPSET loads a unit of the cores that its C1 selects, reserved bits zero, count and status clear, or takes ILLFLD; WPCLR
clears it; WPRD reads one word of it, 0 with ALL or where another context's unit is asked for without privilege (R302, R305). -/
def Parts.WatchUnitWords : Prop :=
  ∀ s w sl v x, Issues s w sl v → let ex := exIn v sl x; let n := (x.aux.xBits.extractLsb' 0 4).toNat
    (ex = 0 → WaveBecomes (.wpset x) s w (moved v sl) ∧ WaveBecomes (.wpclr x) s w (moved v sl) ∧ WaveBecomes (.wprd x) s w (moved v sl)) ∧
    (ex ≠ 0 → SourcesFull .wpset x v sl →
      let raw (j : Nat) : Word := srcEntry s v x.a j 0
      let kept (j : Nat) : Word := raw j &&& (match j with | 0 => 0x0FFFFFC0 | 1 => 0x801FFFFF | 4 => 0xFF | 7 => 0xFF | _ => 0xFFFFFFFF)
      let bad : Prop := WatchBad n (raw 0)
      (bad → Traps (.wpset x) s w v (wordTrap v sl 0x02 ex 0 0)) ∧
      (¬ bad → ∃ t, exec (.wpset x) s = .next t ∧ OnlyWave { s with watch := t.watch } t w (moved v sl) ∧
        ∀ core k, k < 16 →
          (k = n ∧ Picks (kept 1) core → (watchUnit t core k).count = 0 ∧ (watchUnit t core k).matched = false ∧
            ∀ j, j < 8 → (watchUnit t core k).w j = kept j) ∧
          (¬ (k = n ∧ Picks (kept 1) core) → watchUnit t core k = watchUnit s core k))) ∧
    (ex ≠ 0 → SourcesFull .wpclr x v sl → ∃ t, exec (.wpclr x) s = .next t ∧ OnlyWave { s with watch := t.watch } t w (moved v sl) ∧
      ∀ core k, k < 16 → let there : Prop := k = n ∧ Picks (src s v x.a (lowLane ex)) core
        (there → watchUnit t core k = .zero) ∧ (¬ there → watchUnit t core k = watchUnit s core k)) ∧
    (SourcesFull .wprd x v sl → let sel := src s v x.a (lowLane ex); let u := watchUnit s (sel.extractLsb' 12 9).toNat n
      let j := (x.aux.xBits.extractLsb' 4 4).toNat
      let r : Word := if sel.msb = true ∨ (isPriv s v.ctx = false ∧ u.ctx ≠ v.ctx) then 0
        else if j < 8 then u.w j else if j = 8 then u.count else (if u.matched then 2 else 0) + if u.arm then 1 else 0
      ∃ v1, WithD v v1 x ex r ∧ WaveBecomes (.wprd x) s w (moved v1 sl))

/-- DBMW puts its pair into a mailbox word of its context, DBMR reads one, and RMARK writes a marker into the context's trace
ring where it is on (R315, R316, R403 to R405). -/
def Parts.MailboxAndMarkers : Prop :=
  ∀ s w sl v x c, Issues s w sl v → s.ctx? v.ctx = some c → let ex := exIn v sl x
    let k : Fin 16 := (x.aux.xBits.extractLsb' 0 4).toFin
    (ex = 0 → WaveBecomes (.dbmw x) s w (moved v sl) ∧ WaveBecomes (.rmark x) s w (moved v sl)) ∧
    (ex ≠ 0 → Readable v (needs .dbmw x (laneBit (lowLane ex))) → BecomesFrom (.dbmw x) s
      { s with ctxs := kmod s.ctxs v.ctx fun c => { c with mailbox := c.mailbox.set k (src64 s v x.a (lowLane ex)) } } w (moved v sl)) ∧
    (Room s w sl v x 2 → Does (.dbmr x) x s w sl v (Change.words v ex fun _ => [c.mailbox[k].setWidth 32, c.mailbox[k].extractLsb' 32 32])) ∧
    (ex ≠ 0 → Unrecorded s v.ctx → Untraced s v.ctx 2 → WaveBecomes (.rmark x) s w (moved v sl)) ∧
    (ex ≠ 0 → Unrecorded s v.ctx → c.trace.kinds.getLsbD 1 = true → let n := (2 ^ c.trace.log2len - 64) / 32
      (c.trace.wrap = true ∨ c.trace.written < n) → let a := c.trace.base + 64 + 32 * (c.trace.written % n)
      DeviceRange s a 32 → DeviceRange s c.trace.base 8 →
      ∃ u r v1, r % 2 ^ 64 = s.tick.toNat ∧ r / 2 ^ 64 % 2 ^ 16 = 2 ∧ (v.ctx < 2 ^ 16 → r / 2 ^ 80 % 2 ^ 16 = v.ctx) ∧
        (v.ctx < 2 ^ 16 → r / 2 ^ 96 % 2 ^ 32 = (placeId v.place).toNat) ∧
        (v.ctx < 2 ^ 16 → r / 2 ^ 128 = (issuer s v (lowLane ex)).toNat + 2 ^ 32 * (v.slot sl).pc.toNat + 2 ^ 64 * x.aux.iImm.toNat) ∧
        DeviceTakes { s with ctxs := kmod s.ctxs v.ctx fun c => { c with trace := { c.trace with written := c.trace.written + 1 } } } u
          (keyOf s v.ctx) none (bytesAt a 32 r ++ bytesAt c.trace.base 8 (c.trace.written + 1)) ∧
        u.wave? w = some v1 ∧ BecomesFrom (.rmark x) s u w (moved v1 sl))

/-- HRD reads, HWR writes and HSTAT describes the halted wave that a WAVEREF names; an absent or running one reads 0 and
refuses the write, as a bad selector does (R306 to R311). That HSTAT gives the PC at the seam for a slot that waits there is
the model's choice (log 31). -/
def Parts.HaltedWavesAreReadAndWritten : Prop :=
  ∀ s w sl v x, Issues s w sl v → let ex := exIn v sl x
    let ref := src s v x.a (lowLane ex); let b := src s v x.b (lowLane ex); let c := src s v x.c
    (SourcesFull .hrd x v sl → Room s w sl v x 1 →
      (NamesNone s v.ctx ref → Does (.hrd x) x s w sl v (Change.words v ex fun _ => [0])) ∧
      (∀ k u, Names s v.ctx ref k → s.wave? k = some u →
        (isHalted s u = false ∨ ¬ GoodSelector s u b → Does (.hrd x) x s w sl v (Change.words v ex fun _ => [0])) ∧
        (isHalted s u = true → GoodSelector s u b → ∃ f : Nat → Word, (∀ l, l < 64 → ItemIs u b l (f l)) ∧
          Does (.hrd x) x s w sl v (Change.words v ex fun l => [f l])))) ∧
    (SourcesFull .hwr x v sl → ex ≠ 0 → let sp := (b.extractLsb' 28 4).toNat; let j := (b.extractLsb' 0 12).toNat
      let once : Prop := sp = 3 ∨ sp = 5 ∨ sp = 7
      (once → uniformSrc x.c = false → Traps (.hwr x) s w v (wordTrap v sl 0x03 ex 0 0)) ∧
      ((once → uniformSrc x.c = true) → (NamesNone s v.ctx ref → StatusOnly (.hwr x) s w sl v x 3) ∧
        (∀ k u, Names s v.ctx ref k → s.wave? k = some u →
          let args : Prop := WriteArgs s u b ex c
          let free : Prop := GoodSelector s u b ∧ sp = 7 ∧ j < 2 ∧ (u.slot j).live = false
          (isHalted s u = false → StatusOnly (.hwr x) s w sl v x 2) ∧
          (isHalted s u = true → free → StatusOnly (.hwr x) s w sl v x 4) ∧
          (isHalted s u = true → ¬ args → StatusOnly (.hwr x) s w sl v x 10) ∧
          (isHalted s u = true → args → ¬ free → k ≠ w → (sp = 2 → j < 512) → ∃ v1 u', WithD v v1 x ex 0 ∧ Wrote u u' b ex c ∧
            BecomesFrom (.hwr x) s { s with waves := kmod s.waves k fun _ => u' } w (moved v1 sl))))) ∧
    (SourcesFull .hstat x v sl → Room s w sl v x 16 →
      (NamesNone s v.ctx ref → Does (.hstat x) x s w sl v (Change.words v ex fun _ => List.replicate 16 0)) ∧
      (∀ k u, Names s v.ctx ref k → s.wave? k = some u → ∃ ws : List Word, ws.length = 16 ∧
        Does (.hstat x) x s w sl v (Change.words v ex fun _ => ws) ∧
        let word (i : Nat) : Nat := ((ws[i]?).getD 0).toNat
        word 0 % 16 = (if isHalted s u then 2 else 1) ∧ (u.halt.reason < 256 → word 0 / 2 ^ 24 = u.stack.length % 256) ∧
        (isHalted s u = false → ∀ i, 1 ≤ i → i < 16 → word i = 0) ∧
        (isHalted s u = true → (u.halt.reason < 256 → word 0 / 256 % 256 = if u.st = .halted ∨ u.halt.reason = 8 then u.halt.reason else 6) ∧
          (∀ i, i < 2 → let a := u.slot i
            word (1 + 5 * i) = a.pc.toNat ∧ word (2 + 5 * i) + 2 ^ 32 * word (3 + 5 * i) = a.mask.toNat ∧
            word (4 + 5 * i) + 2 ^ 32 * word (5 + 5 * i) = a.stepped.toNat ∧
            word 11 / 16 ^ i % 16 = (if a.live then 1 else 0) + (if a.hold = .join then 2 else 0) +
              (match a.hold with | .seam _ => 4 | _ => 0)) ∧
          word 12 + 2 ^ 32 * word 13 = u.halt.mat.toNat ∧ word 14 = u.halt.info.toNat ∧ word 15 = u.halt.tick.toNat % 2 ^ 32)))

/-- HSTEP and HRUN return the first status that forbids them, or hold their slot while the target steps or is released: a
stepped NOP moves its slot on and leaves the wave halted with STEP, a released wave runs again (R307, R312 to R314, R330). That
a mode above 2 is BADARG before the target is looked at (log 31), and that the target's step is the next turn (log 22), is the
model's choice. -/
def Parts.HaltedWavesAreSteppedAndReleased : Prop :=
  (∀ s w sl v x, Issues s w sl v → let ex := exIn v sl x
    let ref := src s v x.a (lowLane ex); let b := src s v x.b (lowLane ex); let sl' := if b.getLsbD 0 then 1 else 0
    let lane := (b.extractLsb' 2 7).toNat
    (SourcesFull .hstep x v sl → ex ≠ 0 →
      (NamesNone s v.ctx ref → StatusOnly (.hstep x) s w sl v x 3) ∧
      (∀ k u, Names s v.ctx ref k → s.wave? k = some u → let a := u.slot sl'
        let noLane : Prop := b.getLsbD 1 = true ∧ (64 ≤ lane ∨ a.mask.getLsbD lane = false ∨ a.stepped.getLsbD lane = true)
        (isHalted s u = false → StatusOnly (.hstep x) s w sl v x 2) ∧
        (isHalted s u = true →
          (b.extractLsb' 9 23 ≠ 0 → StatusOnly (.hstep x) s w sl v x 10) ∧
          (b.extractLsb' 9 23 = 0 →
            (a.live = false → StatusOnly (.hstep x) s w sl v x 4) ∧
            (a.live = true → a.hold = .join → StatusOnly (.hstep x) s w sl v x 5) ∧
            (a.live = true → a.hold ≠ .join → noLane → StatusOnly (.hstep x) s w sl v x 6) ∧
            (a.live = true → a.hold ≠ .join → ¬ noLane →
              InspectorHolds (.hstep x) s w sl v x k sl' (if b.getLsbD 1 then some lane else none)
                (.hstep k sl' (if b.getLsbD 1 then some lane else none) w sl)))))) ∧
    (SourcesFull .hrun x v sl → ex ≠ 0 → (2 < b.toNat → StatusOnly (.hrun x) s w sl v x 10) ∧
      (b.toNat = 0 → NamesNone s v.ctx ref → StatusOnly (.hrun x) s w sl v x 3) ∧
      (∀ k u, b.toNat = 0 → Names s v.ctx ref k → s.wave? k = some u →
        (isHalted s u = false → StatusOnly (.hrun x) s w sl v x 2) ∧
        (isHalted s u = true → InspectorHolds (.hrun x) s w sl v x k 0 none
          (.hrun ([0, 1].filterMap fun n => if (u.slot n).live = true ∧ (u.slot n).stepped ≠ 0 then some (2 * k + n) else none)
            (ref.extractLsb' 20 12).toNat (some k) 0 w sl)))) ∧
    (ex = 0 → ∀ i ∈ [Instr.hwr x, .hstep x, .hrun x], WaveBecomes i s w (moved v sl))) ∧
  (∀ s k sl u w isl v d ex since rest code y e, s.agenda = .hstep k sl none w isl :: rest → s.mods.stopped = false →
    s.wave? k = some u → u.st = .halted → sl < 2 → u.alive = true → (u.slot sl).live = true → (u.slot sl).hold = .none → u.late = [] →
    Unwatched s u → u.gangHalt = none → gridEnds s u.grid = false → isl < 2 → k ≠ w → s.wave? w = some v →
    (v.slot isl).hold = .inspect k sl none d ex since →
    fetch s u.ctx (codeVa s u.grid (u.slot sl).pc) (u.slot sl).denied = .word code → issueWord e code = .ok (.nop y) →
    e = envOf s u.ctx u.grid false →
    step s = .next (syncImages s (finishInspect { s with
      agenda := rest
      cur := .none
      waves := kput s.waves k { moved u sl with halt := ⟨8, 0, (u.slot sl).mask, 0, s.tick⟩ } } w isl 0))) ∧
  ∀ s c k u w isl v n d ex since rest b, s.agenda = .hrun [] c (some k) 0 w isl :: rest → s.mods.stopped = false →
    s.wave? k = some u → u.ctx = c → u.st = .halted → (u.slot0.live = true ∨ u.slot1.live = true) →
    (∀ x, s.ctx? c = some x → x.st ≠ .halted) → k ≠ w →
    isl < 2 → s.wave? w = some v → (v.slot isl).hold = .inspect k 0 n d ex since → b = finishInspect s w isl 0 →
    ∃ u', step s = .next (syncImages s { b with agenda := rest, waves := kmod b.waves k fun _ => u' }) ∧ u'.st ≠ .halted ∧ u'.halt = ⟨0, 0, 0, 0, 0⟩ ∧
      u'.gangHalt = none ∧ { u' with st := u.st, halt := u.halt, gangHalt := u.gangHalt } = u

/-! ### Words, steps and the whole machine -/

/-- FCLASS gives a word with one bit, that of A's class; IDOT4 sums its four products and C exactly, and narrows as SAT says
(R225, R230). -/
def Obligations.FclassAndIdot4GiveTheirValues : Prop :=
  LaneWord .fclass .fclass (fun _ => 1) (fun _ => True) (fun s v x _ l ws =>
    let c := srcF s v .f32 x.a l 0
    ∃ k, ws = [BitVec.ofNat 32 (2 ^ k)] ∧ k ≤ 9 ∧
      match decodeF .f32 c with
      | .nan _ quiet _ => k = if quiet then 9 else 8
      | .inf neg => k = if neg then 0 else 7
      | .fin neg n _ => if n = 0 then k = (if neg then 3 else 4) else if c / 2 ^ 23 % 2 ^ 8 = 0 then k = (if neg then 2 else 5)
        else k = (if neg then 1 else 6)) ∧
  LaneWord .idot4 .idot4 (fun _ => 1) (fun x => x.ty = .i8 ∨ x.ty = .u8) (fun s v x _ l ws =>
    let acc : Fmt := if x.ty = .i8 then .i32 else .u32
    let a (j : Nat) : Int := decodeI x.ty ((src s v x.a l).extractLsb' (8 * j) 8).toNat
    let b (j : Nat) : Int := decodeI x.ty ((src s v x.b l).extractLsb' (8 * j) 8).toNat
    let r : Int := decodeI acc (src s v x.c l).toNat + a 0 * b 0 + a 1 * b 1 + a 2 * b 2 + a 3 * b 3
    ∃ y : Word, ws = [y] ∧ if satOf x.md then decodeI acc y.toNat = max (intRange acc).1 (min (intRange acc).2 r)
      else (y.toNat : Int) % 2 ^ 32 = r % 2 ^ 32)

/-- ABORT.WAVE empties the wave's buffers and its tracked set and changes nothing else: an element of a load that the wave
issues from then on reads its block's level (R70, R81). -/
def Obligations.AbortWaveDiscardsTheWaveBuffer : Prop :=
  ∀ s w sl v x, Issues s w sl v → exIn v sl x ≠ 0 →
    ∃ t v', exec (.abortWave x) s = .next t ∧ OnlyWave s t w v' ∧
      v' = { moved v sl with bufD := [], bufS := [], trk := Wave.noTrack false } ∧
      ∀ (u : State) (i : Iss) mis acc e b, i.v.bufD = v'.bufD → i.v.bufS = v'.bufS → u.block? i.v.blk = some b →
        let read (m : KMap Byte) : Option Nat := some (leNat ((List.range e.ext.size).map fun j => kgetD m ((e.ea + j) % 2 ^ 72) 0))
        (e.ea + e.ext.size ≤ 2 ^ 72 → sampleItem u i.v (issueElem u i true mis acc e) = read b.scratch) ∧
        ((∀ j, j < e.ext.size → inFrame u i.v (e.ea + j) = none ∧ (kget b.pool ((e.ea + j) % 2 ^ 72)).isSome = true ∧
            ∃ pa, xlate u i.v.ctx ((e.ea + j) % 2 ^ 72) .read = .hit pa) →
          sampleItem u i.v (issueElem u i false mis acc e) = read b.pool)

/-- An arrival by BARA, by BARS or by MSIG enters the block's order after every entry so far and commits nothing; it completes
the phase exactly where the arrived set becomes the mask, and the word then clears both and its phase advances (R87). -/
def Obligations.ArrivalsCompleteTheirPhase : Prop :=
  (∀ s w sl v x b, Issues s w sl v → OtherIdle v sl → exIn v sl x ≠ 0 → Unrecorded s v.ctx → SourcesFull .bara x v sl → s.block? v.blk = some b →
    let n : Fin 16 := (x.aux.sSub.extractLsb' 0 4).toFin
    let m : BitVec 17 := (src s v x.a (lowLane (exIn v sl x))).extractLsb' 0 17
    ¬ ArrivalBad b n v.idx m →
      (∃ t, exec (.bara x) s = .next t ∧ ArrivalMade s t v.blk b n v.idx m) ∧
      ∃ t, exec (.bars x) s = .next t ∧ ArrivalMade s t v.blk b n v.idx m) ∧
  (∀ s bk b x, SeqIssues s bk b → HasWave s b → Unrecorded s b.ctx →
    let n : Fin 16 := (x.aux.qSub.extractLsb' 0 4).toFin
    let m : BitVec 17 := (seqSrc b x.a).extractLsb' 0 17
    ¬ ArrivalBad b n 16 m → ∃ t, exec (.msig x) s = .next t ∧ ArrivalMade s t bk b n 16 m)

/-- Words written out field by field from R159 and the opcode map decode to the instruction they stand for. -/
def Obligations.SampleWordsDecode : Prop :=
  let wv := DecEnv.full false; let sq := DecEnv.full true; let g : Guard := ⟨false, 7⟩
  -- IADD.I32.SAT N4, N5, #1
  decodeWord wv (wordOf 0x20 0 0b0111 0x204 0x205 0xC01 0 0 0 0 1 0b1000 0) =
    .ok (.iadd ⟨g, some (.n 4), some (.n 5), some (.lit 1), none, none, 0, .i32, 0b1000, .z⟩) ∧
  -- @!p2 BRA +3
  decodeWord wv (wordOf 0x02 0 0b1010 0 0 0 0 0 0 0 0 0 (3 * 2 ^ 23)) = .ok (.bra ⟨⟨true, 2⟩, none, none, none, none, none, 0, .u32, 0, .b 3 0⟩) ∧
  -- FFMA.F32.RZ M10, N1^, W2, H3 with KEEP of C in H0
  decodeWord wv (wordOf 0x60 3 0b0111 0x40A 0x201 0x602 0x003 0b11 0 0b100 2 1 0) =
    .ok (.ffma ⟨g, some (.m 10), some (.n 1), some (.w 2), some (.h 3), some (.c, 0), 0b100, .f32, 1, .z⟩) ∧
  -- LD.U32 of two elements, D at N8, per-lane offset in N0, base A3, +64
  decodeWord wv (wordOf 0xA0 0 0b0111 0x208 0x200 0 0 0 0 0 0 0 (3 * 2 ^ 43 + 64 * 2 ^ 11 + 2 ^ 10 + 1)) =
    .ok (.ld ⟨g, some (.n 8), some (.n 0), none, none, none, 0, .u32, 0, .m 3 64 true 0 1⟩) ∧
  -- COMMIT.DEV
  decodeWord wv (wordOf 0xC0 0 0b0111 0 0 0 0 0 0 0 0 0b0110 0) = .ok (.commitDev ⟨g, none, none, none, none, none, 0, .u32, 0b0110, .z⟩) ∧
  -- TRAP #7
  decodeWord wv (wordOf 0xF0 0 0b0111 0 0 0 0 0 0 0 0 0 7) = .ok (.trap ⟨g, none, none, none, none, none, 0, .u32, 0, .i 7 false⟩) ∧
  -- MMA T5, O1, O2, #2
  decodeWord sq (wordOf 0xE2 0 0b0111 0x405 0x201 0x202 0xC02 0 0 0 0 0 0) =
    .ok (.mma ⟨g, some (.t 5), some (.o 1), some (.o 2), some (.lit 2), none, 0, .u32, 0, .q 0 0⟩) ∧
  decodeWord wv 0 = .error .illop ∧ decodeWord wv (BitVec.allOnes 128) = .error .illop

/-- Every well-formed word decodes from its encoding to itself, and every word that decodes is well formed and encodes to the
same bits; in memory a word is its sixteen bytes, least significant first. -/
def Obligations.DecodeAndEncodeAgree : Prop :=
  ∀ e, (∀ i w, (opOf i).isSome = true → i.wellFormed e = true → encode i = some w → decodeWord e w = .ok i) ∧
    (∀ i w, decodeWord e w = .ok i → i.wellFormed e = true ∧ encode i = some w) ∧
    ∀ (w : BitVec 128) rest, decodeBytes e (leBytes 16 w.toNat ++ rest) = (issueWord e w).map fun i => (i, rest)

/-- Decoding takes the first fault that R164 lists: ILLOP exactly for an OP and FN of no word, ILLCTX then for a word of the other
stream or one that needs privilege, and ILLFLD next for the reserved GUARD, TYPE and KEEP codes (R164, R177, R178). -/
def Parts.DecodeFaultsComeInOrder : Prop :=
  ∀ e w, (decodeWord e w = .error .illop ↔ ∀ o, opFn o ≠ (opField w, fnField w)) ∧
    ∀ o, opFn o = (opField w, fnField w) →
      let misplaced : Prop := (isSeqOp o ≠ e.seq ∧ o ≠ .nop) ∨ (isPrivOp o = true ∧ e.priv = false)
      (decodeWord e w = .error .illctx ↔ misplaced) ∧
      (¬ misplaced → w.extractLsb' 110 4 = (0b1111 : BitVec 4) ∨ (0xE : BitVec 4) ≤ w.extractLsb' 50 4 ∨
        (w.extractLsb' 60 2 = (0 : BitVec 2) ∧ w.extractLsb' 57 3 ≠ (0 : BitVec 3)) → decodeWord e w = .error .illfld)

/-- The first turn of the agenda runs the word that stands at the issuer's PC: a step is `exec` of the instruction that its bytes
decode to, of an event that of the event, and afterwards nothing issues (log 5); what it changes of what is SAVED reaches the images (R56, R336). -/
def Obligations.StepRunsTheDecodedInstruction : Prop :=
  (∀ s s0 w sl v b i, WaveTurn s s0 w sl v (.word b) → ((v.slot sl).entry = none → v.late = []) → issueWord (envOf s0 v.ctx v.grid false) b = .ok i →
    StepRuns s (exec i { s0 with cur := .wave w sl (~~~(v.slot sl).stepped) false }) (if v.parkTime.isSome then some w else none)) ∧
  (∀ s s0 bk b bits i, SeqTurn s s0 bk b (.word bits) → issueWord (envOf s0 b.ctx b.grid true) bits = .ok i →
    StepRuns s (exec i { s0 with cur := .seq bk }) none) ∧
  ∀ s unit i rest, s.agenda = .event unit i :: rest → s.mods.stopped = false →
    step s = onNext (exec i { s with agenda := rest, unit := unit, cur := .none }) (syncImages s)

/-- A word that cannot issue takes its fault at its PC: its decode fault, XLATE where its address is not translated, or first a
fault that waits for the wave's next issue; a sequencer's stops it (R57, R164, R177, R180, R280). -/
def Parts.WordsThatCannotIssueTrap : Prop :=
  (∀ s s0 w sl v b e, WaveTurn s s0 w sl v (.word b) → ((v.slot sl).entry = none → v.late = []) → e ≠ .illop → decodeWord (envOf s0 v.ctx v.grid false) b = .error e →
    StepTraps s s0 s0 w v (wordTrap v sl (decCode e) (lanesIn v sl) 0 0)) ∧
  (∀ s s0 w sl v, WaveTurn s s0 w sl v .xlate → ((v.slot sl).entry = none → v.late = []) →
    StepTraps s s0 s0 w v (wordTrap v sl 0x0C (lanesIn v sl) (codeVa s0 v.grid (v.slot sl).pc) 0)) ∧
  (∀ s s0 w sl v f t rest, WaveTurn s s0 w sl v f → (v.slot sl).entry = none → v.late = t :: rest →
    StepTraps s s0 (s0.putWave w { v with late := rest }) w { v with late := rest } ⟨t.code, t.isSeq, t.late, t.slot.getD sl, t.info, t.fpc, (v.slot (t.slot.getD sl)).pc, t.lanes, t.ea, [], t.exec⟩) ∧
  (∀ s w sl v b, Issues s w sl v → decodeWord (DecEnv.full false) b = .error .illop →
    Traps (.illegalWordIssue b) s w v (wordTrap v sl 0x01 (lanesIn v sl) 0 0)) ∧
  (∀ s bk b w, SeqIssues s bk b → decodeWord (DecEnv.full true) w = .error .illop → SeqFaults (.illegalWordIssue w) s bk b 0x01 0) ∧
  (decCode .illop = 0x01 ∧ decCode .illfld = 0x02 ∧ decCode .illlev = 0x03 ∧ decCode .illctx = 0x04)

/-- Module reset leaves boot stage 1, the tick counter at 0, no context, wave, queue, command or record, and its registers at
the values the spec gives; where it gives none they are 0 (log 1), every byte that nothing has written reads 0 (log 2), both
the model's choice, and memory is in its canonical form. -/
def Obligations.ResetLeavesTheStatedValues : Prop :=
  let s := State.reset
  s.stage = 1 ∧ s.recovery = false ∧ s.tick = 0 ∧ s.mods.stopped = false ∧ s.mods.arm = false ∧ s.mods.missed = false ∧
  s.mods.h2dEn = false ∧ s.mods.railsOff = true ∧ s.ctxs = [] ∧ s.grids = [] ∧ s.gangs = [] ∧ s.blocks = [] ∧ s.waves = [] ∧
  s.queues = [] ∧ s.rooms = [] ∧ s.slots = [] ∧ s.parts = [] ∧ s.prods = [] ∧ s.hall = [] ∧ s.copies = [] ∧ s.sysCommits = [] ∧
  s.staged = [] ∧ s.waiting = [] ∧ s.fbuf = [] ∧ s.fmiss = [] ∧ s.fwidx = 0 ∧ s.fridx = 0 ∧ s.tickets = 0 ∧ s.cur = .none ∧
  (∀ n : Fin 16, s.ports[n] = Port.reset ∧ (s.ports[n]).st = 0) ∧
  (∀ c, s.cluster c = Cluster.reset) ∧ Cluster.reset.mv = 800 ∧ Cluster.reset.budget = 0x00600000 ∧ Cluster.reset.gate = false ∧
  (∀ core n, (watchUnit s core n).arm = false) ∧ (∀ a, memGet s.mem a = 0) ∧ Memory.wf s.mem = true

/-- Memory keeps its canonical form over every step: addresses rise and no listed byte is zero. -/
def Obligations.EveryStepKeepsMemoryCanonical : Prop :=
  ∀ s t, Memory.wf s.mem = true → step s = .next t → Memory.wf t.mem = true

/-! ### Every instruction completes -/

/-- Every word that only works on its wave's registers completes where its sources are FULL, D lies in its level, and FPEN enables no
flag: the slot goes past it, D's entries are FULL in the executing lanes, and nothing but its wave changes (R59, R183). -/
def Obligations.RegisterWordsComplete : Prop :=
  let one (_ : Body) : Nat := 1
  let words : List ((Body → Instr) × Op × (Body → Nat) × (Body → Prop)) := [
    (.iadd, .iadd, tyWords, IntTy), (.isub, .isub, tyWords, IntTy), (.imul, .imul, tyWords, IntTy), (.imulh, .imulh, tyWords, IntTy),
    (.imad, .imad, tyWords, IntTy), (.imin, .imin, tyWords, IntTy), (.imax, .imax, tyWords, IntTy), (.iabs, .iabs, tyWords, IntTy),
    (.iclamp, .iclamp, tyWords, IntTy), (.and, .and, tyWords, IntTy), (.or, .or, tyWords, IntTy), (.xor, .xor, tyWords, IntTy),
    (.andn, .andn, tyWords, IntTy), (.iaddc, .iaddc, one, fun _ => True), (.shl, .shl, one, fun _ => True), (.shr, .shr, one, fun _ => True),
    (.sar, .sar, one, fun _ => True), (.rot, .rot, one, fun _ => True), (.bfx, .bfx, one, fun _ => True), (.bfi, .bfi, one, fun _ => True),
    (.popc, .popc, one, fun _ => True), (.clz, .clz, one, fun _ => True), (.brev, .brev, one, fun _ => True),
    (.pset, .pset, fun _ => 0, fun _ => True), (.plog, .plog, fun _ => 0, fun _ => True), (.pmovPv, .pmovPv, one, fun _ => True),
    (.pmovVp, .pmovVp, fun _ => 0, fun _ => True), (.pmovSave, .pmovSave, one, fun _ => True), (.pmovLoad, .pmovLoad, fun _ => 0, fun _ => True),
    (.sel, .sel, tyWords, fun _ => True), (.prisel, .prisel, one, fun _ => True), (.mov, .mov, tyWords, fun _ => True),
    (.movw, .movw, one, fun _ => True), (.movq, .movq, fun _ => 4, fun _ => True), (.ldi, .ldi, one, fun _ => True),
    (.lda, .lda, fun _ => 0, fun _ => True), (.aadd, .aadd, fun _ => 0, fun _ => True), (.amov, .amov, fun _ => 3, fun _ => True),
    (.srd, .srd, one, fun _ => True), (.swr, .swr, fun _ => 0, fun _ => True), (.voteAny, .voteAny, fun _ => 0, fun _ => True),
    (.voteAll, .voteAll, fun _ => 0, fun _ => True), (.voteEq, .voteEq, fun _ => 0, fun _ => True),
    (.voteBal, .voteBal, fun _ => 2, fun x => ∀ i, x.d ≠ some (.s i)), (.xlXor, .xlXor, one, fun _ => True),
    (.xlUp, .xlUp, one, fun _ => True), (.xlDown, .xlDown, one, fun _ => True), (.xlIdx, .xlIdx, one, fun _ => True),
    (.qxH, .qxH, one, fun _ => True), (.qxV, .qxV, one, fun _ => True), (.qxD, .qxD, one, fun _ => True),
    (.rstep, .rstep, one, fun _ => True), (.red, .red, one, fun _ => True), (.scan, .scan, one, fun _ => True),
    (.fadd, .fadd, one, fun _ => True), (.fsub, .fsub, one, fun _ => True), (.fmul, .fmul, one, fun _ => True),
    (.ffma, .ffma, one, fun _ => True), (.fmin, .fmin, one, fun _ => True), (.fmax, .fmax, one, fun _ => True),
    (.fminProp, .fminProp, one, fun _ => True), (.fmaxProp, .fmaxProp, one, fun _ => True), (.fcmp, .fcmp, fun _ => 0, fun _ => True),
    (.fclass, .fclass, one, fun _ => True), (.frnd, .frnd, one, fun _ => True), (.fscale, .fscale, one, fun _ => True),
    (.hadd2, .hadd2, one, fun _ => True), (.hmul2, .hmul2, one, fun _ => True), (.hfma2, .hfma2, one, fun _ => True),
    (.dot4, .dot4, one, fun _ => True), (.idot4, .idot4, one, fun _ => True), (.cvt, .cvt, tyWords, fun _ => True),
    (.cvts, .cvts, tyWords, fun _ => True), (.pack, .pack, one, fun _ => True),
    (.unpk, .unpk, fun x => unpkSpan x.ty x.aux.fFmt, fun _ => True), (.bscale, .bscale, fun _ => 2, fun _ => True),
    (.qnt, .qnt, tyWords, fun _ => True), (.dqnt, .dqnt, tyWords, fun _ => True), (.rcp, .rcp, one, fun _ => True),
    (.rsq, .rsq, one, fun _ => True), (.sqrt, .sqrt, one, fun _ => True), (.exp2, .exp2, one, fun _ => True),
    (.log2, .log2, one, fun _ => True), (.sin, .sin, one, fun _ => True), (.cos, .cos, one, fun _ => True),
    (.tanh, .tanh, one, fun _ => True), (.wfin, .wfin, fun _ => 2, fun _ => True), (.rng, .rng, one, fun _ => True)]
  (∀ y ∈ words, ∀ s w sl v x, Issues s w sl v → v.fpen = 0 → y.2.2.2 x → SourcesFull y.2.1 x v sl → Room s w sl v x (y.2.2.1 x) →
    UniformPreds v x (exIn v sl x) (List.range 8) → RegisterWordDone (y.1 x) s w sl v x (y.2.2.1 x)) ∧
  ∀ y ∈ [(Instr.wupd, Op.wupd), (.wmrg, .wmrg)], ∀ s w sl v x, Issues s w sl v → v.fpen = 0 → Room s w sl v x 3 →
    Readable v (needOf (sig y.2 x.ty x.md x.aux).d x.d (exIn v sl x) false ++ needs y.2 x (exIn v sl x)) →
    RegisterWordDone (y.1 x) s w sl v x 3

/-- Every word that accesses memory, carries bytes or waits for them completes under the conditions of its rule: sources FULL,
addresses aligned, in range and translated, room in its pools and counters, and nothing that holds it back (R248 to R276). -/
def Obligations.MemoryWordsComplete : Prop :=
  (∀ y ∈ [(Instr.ld, Op.ld, false), (.ldTrk, .ldTrk, false), (.lds, .lds, true)], ∀ s w sl v x d e, Issues s w sl v →
    SourcesFull y.2.1 x v sl → MemoryFree s w sl v → v.path (if y.2.2 then 1 else 0) < 4095 → exIn v sl x ≠ 0 → x.d = some d →
    opdEnt d = some e → let size := elemSize x.ty * vecCount x.aux.mSub
    AddressesGood s v (realIn v sl x) (laneEa s v x (o64m x.md)) size size y.2.2 →
    Retires (y.1 x) s w sl v fun _ v' => v'.path (if y.2.2 then 1 else 0) = v.path (if y.2.2 then 1 else 0) + 1) ∧
  (∀ s w sl v x d e, Issues s w sl v → SourcesFull .ldt x v sl → MemoryFree s w sl v → exIn v sl x ≠ 0 → x.d = some d →
    opdEnt d = some e → e < 552 → x.aux.mSub.getLsbD 0 = false → v.path 0 < 4095 → realIn v sl x = 0 ∨
      (laneEa s v x false 0 % (fmtBits x.ty / 8) = 0 ∧ (src s v x.b (lowLane (exIn v sl x))).toNat % (fmtBits x.ty / 8) = 0) ∨ fmtBits x.ty < 16 →
    Retires (.ldt x) s w sl v fun _ v' => v'.path 0 = v.path 0 + 1) ∧
  (∀ y ∈ [(Instr.st, Op.st, false), (.sts, .sts, true)], ∀ s w sl v x, Issues s w sl v → SourcesFull y.2.1 x v sl → MemoryFree s w sl v →
    let size := elemSize x.ty * vecCount x.aux.mSub; let ea := laneEa s v x (o64m x.md); let real := realIn v sl x
    AddressesGood s v real ea size size y.2.2 →
    (y.2.2 = false → ∀ n, n < 64 → real.getLsbD n = true → (∀ i, i ≤ size → inFrame s v ((ea n + i) % 2 ^ 72) = none) ∧ inFrame s v (ea n) = none ∧
      (v.slot sl).denied.contains (pageOf s v.ctx (ea n)) = false ∧ ∃ pa, xlate s v.ctx (ea n) .write = .hit pa) →
    bufLines (bufPut v y.2.2 (laneStores s v x real ea)) ≤ 128 → Retires (y.1 x) s w sl v fun _ v' => v'.ents = v.ents) ∧
  (∀ s w sl v x, Issues s w sl v → exIn v sl x ≠ 0 → (v.slot sl).entry = none → ∀ b g place,
    (CommitReady s w v b g 1 place → ∀ i ∈ [Instr.commitBlk x], Retires i s w sl v fun _ v' => v'.bufD = [] ∧ v'.bufS = []) ∧
    (CommitReady s w v b g 2 place → ∀ i ∈ [Instr.commitGang x], Retires i s w sl v fun _ v' => v'.bufD = [] ∧ v'.bufS = []) ∧
    (CommitReady s w v b g 3 place → ∀ i ∈ [Instr.commitDev x], Retires i s w sl v fun _ v' => v'.bufD = [] ∧ v'.bufS = []) ∧
    (CommitReady s w v b g 1 place → reasonOf v.trk 1 = 0 → Retires (.commitChkBlk x) s w sl v fun _ v' => v'.bufD = [] ∧ v'.bufS = []) ∧
    (CommitReady s w v b g (scopeOf x.md) place → scopeOf x.md ∈ [2, 3] → reasonOf v.trk (scopeOf x.md) = 0 →
      Retires (.commitChkGangDev x) s w sl v fun _ v' => v'.bufD = [] ∧ v'.bufS = []) ∧
    (CommitReady s w v b g (scopeOf x.md) place → scopeOf x.md ∈ [1, 2, 3] → x.aux.mOrder ∈ [2, 3, 4] →
      Retires (.fence x) s w sl v fun _ v' => v'.bufD = [] ∧ v'.bufS = [])) ∧
  (∀ s w sl v x cid, Issues s w sl v → exIn v sl x ≠ 0 → SysFinished s w sl v cid → ∀ i ∈ [Instr.commitSys x, .commitChkSys x],
    Retires i s w sl v fun t _ => t.sysCommits = kdel s.sysCommits cid) ∧
  (∀ s w sl v x, Issues s w sl v → pendingLoads s w = [] → x.aux.mOrder ∉ [2, 3, 4] → Retires (.fence x) s w sl v fun t _ => t.mem = s.mem) ∧
  (∀ s w sl v x b g, Issues s w sl v → exIn v sl x ≠ 0 → Unrecorded s v.ctx → s.block? v.blk = some b → s.gang? v.gang = some g →
    (Retires (.abortWave x) s w sl v fun _ v' => v'.bufD = [] ∧ v'.bufS = []) ∧
    (Retires (.abortBlk x) s w sl v fun t _ => ∃ y, t.block? v.blk = some y ∧ y.pool = []) ∧
    Retires (.abortGang x) s w sl v fun t _ => ∃ y, t.gang? v.gang = some y ∧ y.pool = []) ∧
  (∀ s w sl v x c, Issues s w sl v → s.ctx? v.ctx = some c → exIn v sl x ≠ 0 →
    (Retires (.dphaseOpen x) s w sl v fun t _ => ∃ y, t.ctx? v.ctx = some y ∧ y.phase = true) ∧
    ((∀ k ∈ s.clusters, k.2.held = [] ∧ k.2.ovf = []) → (∀ r ∈ s.hall, r.wave = w → r.holds = false) → c.rec_.mode ≠ 2 →
      Retires (.dphaseClose x) s w sl v fun t _ => ∃ y, t.ctx? v.ctx = some y ∧ y.phase = false)) ∧
  (∀ s w sl v x, Issues s w sl v → exIn v sl x ≠ 0 →
    (SourcesFull .vsred x v sl → Retires (.vsred x) s w sl v fun t _ => t.hall.length = s.hall.length + (lanesOf (realIn v sl x)).length) ∧
    (v.path 3 < 4095 → Retires (.vsrd x) s w sl v fun _ v' => v'.path 3 = v.path 3 + 1) ∧
    ((∀ r ∈ s.hall, r.wave = w → ∀ k, r.at_ ≠ .scalar k) → Retires (.vscl x) s w sl v fun t _ => t.mem = s.mem)) ∧
  (∀ s w sl v x b, Issues s w sl v → exIn v sl x ≠ 0 → s.block? v.blk = some b → ¬ CarriedBad s v x b → v.path 2 + 64 ≤ 4095 →
    (x.aux.mSub.getLsbD 2 = true → OtherIdle v sl) →
    (∀ l, l < 64 → (exIn v sl x).getLsbD l = true → x.aux.mSub.extractLsb' 0 2 ∈ [(0 : BitVec 2), 1] →
      (src s v x.b l).toNat + (src s v x.c l).toNat ≤ scratchSize s v.grid) →
    (Readable v (copyNeeds x (issOf .cpy x w sl v)) → Retires (.cpy x) s w sl v fun _ v' => v'.ents = v.ents) ∧
    (Readable v (copyNeeds x (issOf .cpyq x w sl v)) → Retires (.cpyq x) s w sl v fun _ v' => v'.ents = v.ents)) ∧
  (∀ s w sl v x b, Issues s w sl v → exIn v sl x ≠ 0 → s.block? v.blk = some b →
    (SourcesFull .pref x v sl → Retires (.pref x) s w sl v fun _ v' => v'.ents = v.ents) ∧
    (OtherIdle v sl → Unrecorded s v.ctx → SourcesFull .bara x v sl → SourcesFull .bars x v sl →
      ¬ ArrivalBad b (x.aux.sSub.extractLsb' 0 4).toFin v.idx ((src s v x.a (lowLane (exIn v sl x))).extractLsb' 0 17) →
      (Retires (.bara x) s w sl v fun t _ => ∃ y, t.block? v.blk = some y ∧ y.stamp = b.stamp + 1) ∧
      ∃ t y, exec (.bars x) s = .next t ∧ t.block? v.blk = some y ∧ y.stamp = b.stamp + 1) ∧
    (SourcesFull .seam x v sl → HoldsAt (.seam x) s w sl v fun h => h = .seam .ready) ∧
    (SourcesFull .wcnt x v sl → let k := (x.aux.sSub.extractLsb' 0 3).toNat; let n := (src s v x.a (lowLane (exIn v sl x))).toNat
      (v.path k ≤ n → Retires (.wcnt x) s w sl v fun _ _ => True) ∧ (n < v.path k → HoldsAt (.wcnt x) s w sl v fun h => h = .seam (.path k n))) ∧
    (SourcesFull .cpyw x v sl → let n := (src s v x.a (lowLane (exIn v sl x))).toNat
      (v.path 2 ≤ n → Retires (.cpyw x) s w sl v fun _ _ => True) ∧ (n < v.path 2 → HoldsAt (.cpyw x) s w sl v fun h => h = .seam (.path 2 n))) ∧
    let word := b.bars[(x.aux.sSub.extractLsb' 0 4).toFin]
    let out := word.arrived.getLsbD v.idx || word.pending.getLsbD v.idx
    (out = false → Retires (.barw x) s w sl v fun _ _ => True) ∧
    (out = true → HoldsAt (.barw x) s w sl v fun h => h = .seam (.bar (x.aux.sSub.extractLsb' 0 4).toNat)))

/-- Every ATOM, ATOMD and REDS word that releases nothing completes where its addresses are good: one request per lane stands in the
hall, none on scratchpad, and its slot goes past it (R104, R251, R262 to R266). -/
def Obligations.AtomicWordsComplete : Prop :=
  let atoms : List ((Body → Instr) × Op × AtomOp × Bool × Bool) := [
    (.atomAdd, .atomAdd, .add, false, false), (.atomFadd, .atomFadd, .fadd, false, false), (.atomMin, .atomMin, .min, false, false),
    (.atomMax, .atomMax, .max, false, false), (.atomAnd, .atomAnd, .and, false, false), (.atomOr, .atomOr, .or, false, false),
    (.atomXor, .atomXor, .xor, false, false), (.atomXchg, .atomXchg, .xchg, false, false), (.atomCas, .atomCas, .cas, false, false),
    (.atomIncw, .atomIncw, .incw, false, false), (.atomdAdd, .atomdAdd, .add, true, false), (.atomdFadd, .atomdFadd, .fadd, true, false),
    (.atomdMin, .atomdMin, .min, true, false), (.atomdMax, .atomdMax, .max, true, false), (.atomdAnd, .atomdAnd, .and, true, false),
    (.atomdOr, .atomdOr, .or, true, false), (.atomdXor, .atomdXor, .xor, true, false), (.atomdXchg, .atomdXchg, .xchg, true, false),
    (.atomdCas, .atomdCas, .cas, true, false), (.atomdIncw, .atomdIncw, .incw, true, false), (.redsAdd, .redsAdd, .add, false, true),
    (.redsFadd, .redsFadd, .fadd, false, true), (.redsMin, .redsMin, .min, false, true), (.redsMax, .redsMax, .max, false, true),
    (.redsAnd, .redsAnd, .and, false, true), (.redsOr, .redsOr, .or, false, true), (.redsXor, .redsXor, .xor, false, true)]
  ∀ y ∈ atoms, ∀ s w sl v x, AtomicDone (y.1 x) y.2.1 s w sl v x y.2.2.1 y.2.2.2.1 y.2.2.2.2

/-- The control words and the words of class 111 complete where their rule's conditions hold: they go on, or to their target; EXIT
drops its lanes, the last ones of which end the wave; TRAP enters the handler, RTT leaves it, HALT and TRAP.BRK halt, SLEEPT holds;
WPSET, WPCLR, DBMW and RMARK act and go on; WPRD, DBMR, HRD and HSTAT put their words into D; HWR writes its target, HSTEP and HRUN
hold for it (R186 to R193, R297 to R316). -/
def Obligations.ControlAndSystemWordsComplete : Prop :=
  (∀ s w sl v x, Issues s w sl v → let ex := exIn v sl x; let lanes := lanesIn v sl; let pc := (v.slot sl).pc
    let goes (i : Instr) (a : Word) : Prop :=
      ∃ t v', exec i s = .next t ∧ t.wave? w = some v' ∧ (v'.slot sl).live = true ∧ (v'.slot sl).pc = a
    let n := (src s v x.a (lowLane ex)).toNat
    (∀ i ∈ [Instr.nop x, .yield x, .icinv x], Retires i s w sl v fun _ v' => v'.ents = v.ents) ∧
    (ex = lanes → Untraced s v.ctx 3 → (∀ i ∈ [Instr.bra x, .brd x, .call x], goes i (pc + x.aux.bTgt.signExtend 32 * 16)) ∧
      ∀ a : Word, lanes ≠ 0 → a.toNat % 16 = 0 → (∀ l, l < 64 → lanes.getLsbD l = true → src s v x.a l = a) →
        (SourcesFull .ret x v sl → goes (.ret x) a) ∧ (SourcesFull .jmpx x v sl → goes (.jmpx x) a)) ∧
    ((v.slot (1 - sl)).live = false → v.stack = [] → goes (.join x) (pc + 16)) ∧
    ((v.slot sl).mask &&& ~~~ex ≠ 0 → goes (.exit x) (pc + 16)) ∧
    ((v.slot sl).mask &&& ~~~ex = 0 → (v.slot (1 - sl)).live = false → v.stack = [] → v.st ≠ .halted →
      ∃ t v', exec (.exit x) s = .next t ∧ t.wave? w = some v' ∧ v'.st = .ended) ∧
    (∀ d, ex ≠ 0 → x.aux.iBrk = false → Untraced s v.ctx 4 → descOf s v.grid = some d → d.hasTrap = true → v.inHandler = false →
      ∃ t v', exec (.trap x) s = .next t ∧ t.wave? w = some v' ∧ v'.inHandler = true ∧ v'.slot0 = .at_ d.trapOff v.liveMask) ∧
    (ex ≠ 0 → v.st = .seated → Untraced s v.ctx 6 → ∀ i ∈ if x.aux.iBrk then [Instr.halt x, .trap x] else [.halt x],
      ∃ t v', exec i s = .next t ∧ t.wave? w = some v' ∧ v'.st = .halted) ∧
    (let live (k : Nat) : Prop := frameNat v.frame (0x28 + k) 1 % 2 = 1
      let mask (k : Nat) : Mask := BitVec.ofNat 64 (frameNat v.frame (0x18 + 8 * k) 8)
      ex ≠ 0 → v.inHandler = true → (∀ k, k < 2 → live k → mask k ≠ 0) → (live 0 → live 1 → mask 0 &&& mask 1 = 0) →
      ∃ t v', exec (.rtt x) s = .next t ∧ t.wave? w = some v' ∧ v'.inHandler = false) ∧
    (SourcesFull .sleept x v sl → ex ≠ 0 → n ≠ 0 → ∃ t v', exec (.sleept x) s = .next t ∧ t.wave? w = some v' ∧
      (v'.slot sl).pc = pc + 16 ∧ (v'.slot sl).hold = .sleep (s.tick.toNat + n))) ∧
  (∀ s w sl v x, Issues s w sl v → exIn v sl x ≠ 0 → let n := (x.aux.xBits.extractLsb' 0 4).toNat
    (SourcesFull .wpset x v sl → ¬ WatchBad n (srcEntry s v x.a 0 0) → Retires (.wpset x) s w sl v fun t _ =>
      ∀ core, Picks (srcEntry s v x.a 1 0) core → (watchUnit t core n).count = 0 ∧ (watchUnit t core n).matched = false) ∧
    (SourcesFull .wpclr x v sl → Retires (.wpclr x) s w sl v fun t _ =>
      ∀ core, Picks (src s v x.a (lowLane (exIn v sl x))) core → watchUnit t core n = .zero) ∧
    (SourcesFull .wprd x v sl → Room s w sl v x 1 → RegisterWordDone (.wprd x) s w sl v x 1)) ∧
  (∀ s w sl v x c, Issues s w sl v → exIn v sl x ≠ 0 → s.ctx? v.ctx = some c → let ex := exIn v sl x
    let k : Fin 16 := (x.aux.xBits.extractLsb' 0 4).toFin
    (Readable v (needs .dbmw x (laneBit (lowLane ex))) → Retires (.dbmw x) s w sl v fun t _ =>
      ∃ y, t.ctx? v.ctx = some y ∧ y.mailbox[k] = src64 s v x.a (lowLane ex)) ∧
    (Room s w sl v x 2 → RegisterWordDone (.dbmr x) s w sl v x 2) ∧
    (Unrecorded s v.ctx → Untraced s v.ctx 2 → Retires (.rmark x) s w sl v fun t _ => t.mem = s.mem)) ∧
  ∀ s w sl v x, Issues s w sl v → let ex := exIn v sl x
    let ref := src s v x.a (lowLane ex); let b := src s v x.b (lowLane ex)
    (NamesNone s v.ctx ref ∨ ∃ k u, Names s v.ctx ref k ∧ s.wave? k = some u →
      (SourcesFull .hrd x v sl → Room s w sl v x 1 → RegisterWordDone (.hrd x) s w sl v x 1) ∧
      (SourcesFull .hstat x v sl → Room s w sl v x 16 → RegisterWordDone (.hstat x) s w sl v x 16)) ∧
    ∀ k u, ex ≠ 0 → Names s v.ctx ref k → s.wave? k = some u → isHalted s u = true → k ≠ w →
      let holds (i : Instr) (sl' : Nat) (lane : Option Nat) : Prop := ∃ t v', exec i s = .next t ∧ t.wave? w = some v' ∧
        (v'.slot sl).pc = (v.slot sl).pc + 16 ∧ (v'.slot sl).hold = .inspect k sl' lane x.d ex s.tick.toNat
      (let sp := (b.extractLsb' 28 4).toNat; let j := (b.extractLsb' 0 12).toNat
        SourcesFull .hwr x v sl → WriteArgs s u b ex (src s v x.c) → (sp = 3 ∨ sp = 5 ∨ sp = 7 → uniformSrc x.c = true) →
        (sp = 7 → j < 2 → (u.slot j).live = true) → (sp = 2 → j < 512) →
        Retires (.hwr x) s w sl v fun t _ => ∃ u', t.wave? k = some u' ∧ Wrote u u' b ex (src s v x.c)) ∧
      (let sl' := if b.getLsbD 0 then 1 else 0; let lane := (b.extractLsb' 2 7).toNat
        SourcesFull .hstep x v sl → b.extractLsb' 9 23 = 0 → (u.slot sl').live = true → (u.slot sl').hold ≠ .join →
        (b.getLsbD 1 = true → lane < 64 ∧ (u.slot sl').mask.getLsbD lane = true ∧ (u.slot sl').stepped.getLsbD lane = false) →
        holds (.hstep x) sl' (if b.getLsbD 1 then some lane else none)) ∧
      (SourcesFull .hrun x v sl → b.toNat = 0 → holds (.hrun x) 0 none)

/-- The matrix sequencer's words, OBST, ACRD, GBAR and XBAR complete where their rule's conditions hold: the sequencer goes past
its word with its range, predicates, loop register, tile or barrier as the word makes it; OBST stores, ACRD awaits its slices on
path 4; an arrival at a tree barrier stands in its block's word, or has completed the phase (R271, R281 to R294). -/
def Obligations.MatrixAndTreeWordsComplete : Prop :=
  (∀ s bk b x, SeqIssues s bk b →
    let goes (i : Instr) (Q : Block → Prop) : Prop := ∃ y, SeqBecomes i s bk y ∧ y.seq.pc = b.seq.pc + 16 ∧ Q y
    let q := kgetD s.matrix (blockCore b) []
    let queues (i : Instr) : Prop := ∃ t m, exec i s = .next t ∧ kgetD t.matrix (blockCore b) [] = q ++ [m] ∧ m.blk = bk
    let n : Fin 16 := (x.aux.qSub.extractLsb' 0 4).toFin; let m : BitVec 17 := (seqSrc b x.a).extractLsb' 0 17
    (∀ h : Fin 32, x.d = some (.o h) →
      (¬ RangeBad s b h (newRange b x) → goes (.mres x) fun y => y.handles[h] = newRange b x) ∧
      (¬ RangeRead s bk b h → goes (.mrel x) fun y => y.handles[h].live = false) ∧
      (¬ LoadNone b x b.handles[h] → ¬ LoadOdd b x → LoadInRange s b x b.handles[h] → ¬ RangeRead s bk b h →
        goes (.mld x) fun y => y.handles = b.handles)) ∧
    (∀ (t : Fin 64) (oa ob : Fin 32), x.d = some (.t t) → x.a = some (.o oa) → x.b = some (.o ob) → let c := (seqSrc b x.c).toNat
      (c ≠ 0 → b.handles[oa].live = true → b.handles[ob].live = true → c ≤ b.handles[oa].ks → c ≤ b.handles[ob].ks →
        (kgetD b.tiles t.val .lost).st ≠ .lost → (kgetD b.tiles t.val .lost).holds = 0 → q.length < 8 → queues (.mma x))) ∧
    (∀ t : Fin 64, x.d = some (.t t) → (kgetD b.tiles t.val .lost).holds = 0 → q.length < 8 → queues (.mza x)) ∧
    goes (.nop x) (fun _ => True) ∧ goes (.mpred x) (fun y => y.seq.rowP = seqSrc b x.a) ∧
    SeqBecomes (.mloopJmp x) s bk (seqAt b (b.seq.pc + x.aux.qTgt.signExtend 32 * 16)) ∧
    (∀ k : Fin 8, x.d = some (.q k) →
      goes (.mloopSet x) (fun y => y.seq.q[k] = seqSrc b x.a) ∧ goes (.mloopAdd x) (fun y => y.seq.q[k] = b.seq.q[k] + seqSrc b x.a) ∧
      (b.seq.q[k] = 1 → goes (.mloopDec x) fun y => y.seq.q[k] = 0)) ∧
    (HasWave s b → (Unrecorded s b.ctx → ¬ ArrivalBad b n 16 m → goes (.msig x) fun y => y.stamp = b.stamp + 1) ∧
      (b.bars[n].arrived.getLsbD 16 = false → b.bars[n].pending.getLsbD 16 = false → goes (.mwait x) fun y => y.bars = b.bars) ∧
      ∃ y, SeqBecomes (.mend x) s bk y ∧ y.seq.st = .ended) ∧
    (∀ a : Fin 64, x.a = some (.t a) → let w := fmtBits x.ty / 8; let off := (seqSrc b x.b).toNat; let pitch := (seqSrc b x.c).toNat
      let at_ (i j : Nat) : Nat := if x.aux.qSub.getLsbD 0 then off + j * pitch + i * w else off + i * pitch + j * w
      off % w = 0 → pitch % w = 0 → (∀ i j, i < 32 → j < 32 → at_ i j + w ≤ scratchSize s b.grid) →
      (kgetD b.tiles a.val .lost).st = .full → b.window = false → b.saved.length ≤ 256 → Unrecorded s b.ctx →
      (∀ i j k l, i < 32 → j < 32 → k < 32 → l < 32 → (i ≠ k ∨ j ≠ l) → at_ i j + w ≤ at_ k l ∨ at_ k l + w ≤ at_ i j) →
      goes (.mst x) fun y => y.stamp = b.stamp + 1)) ∧
  (∀ s w sl v x a e b, Issues s w sl v → s.block? v.blk = some b → x.a = some a → opdEnt a = some e → exIn v sl x ≠ 0 →
    let sc := x.aux.xBits.getLsbD 5; let r := handle b (x.aux.xBits.extractLsb' 0 5).toNat
    let c := (src s v x.b (lowLane (exIn v sl x))).toNat; let span := if sc then 2 else 16 / perEntry r.fmt
    r.live = true → (if sc then c < r.kblocks else c < r.ks) → opdIdx a + span ≤ levelSize s v.grid a →
    Readable v [⟨e, span, exIn v sl x, x.eb.getLsbD 2⟩] → Readable v (needOf uni1 x.b (exIn v sl x) (x.eb.getLsbD 1)) →
    Retires (.obst x) s w sl v fun t _ => ∃ y, t.block? v.blk = some y ∧ { y with obuf := b.obuf } = b) ∧
  (∀ s w sl v x d e b g, Issues s w sl v → SourcesFull .acrd x v sl → s.block? v.blk = some b → descOf s v.grid = some g →
    x.d = some d → opdEnt d = some e → exIn v sl x ≠ 0 → let t := (x.aux.xBits.extractLsb' 0 6).toNat
    t < g.tiles → (src s v x.b (lowLane (exIn v sl x))).toNat + 4 ^ (x.aux.xBits.extractLsb' 6 2).toNat ≤ 16 →
    (kgetD b.tiles t .lost).st = .full → v.path 4 < 4095 → Retires (.acrd x) s w sl v fun _ v' => v'.path 4 = v.path 4 + 1) ∧
  ∀ y ∈ [(Instr.gbar, Op.gbar, false), (.xbar, .xbar, true)], ∀ s w sl v x b g, Issues s w sl v → OtherIdle v sl → exIn v sl x ≠ 0 →
    SourcesFull y.2.1 x v sl → v.idx < 16 → s.block? v.blk = some b → s.gang? b.gang = some g → v.blk ∈ g.blocks → g.blocks.Nodup →
    ¬ TreeBad s y.2.2 b g v ((src s v x.a (lowLane (exIn v sl x))).extractLsb' 0 8) →
    ∃ t z, exec (y.1 x) s = .next t ∧ t.block? v.blk = some z ∧
      ((arrOf y.2.2 z).waves.getLsbD v.idx = true ∨ (arrOf y.2.2 z).phase = (arrOf y.2.2 b).phase + 1)

/-- Every management command ends DONE with result 0 and its effect where its rule's conditions hold, or takes the next step of its
course; an opcode of no command ends with BADCMD (R358 to R364, R373, R374, R380, R384, R387, R403, R409, R437 to R443, R446, R449,
R450). -/
def Obligations.CommandsComplete : Prop :=
  (∀ s n x, s.unit = n → n < 64 → kget s.slots n = some x → x.st = 1 → x.opcode ∉ knownOps → s.stage = 5 → s.recovery = false →
    Finishes .unknownOpcodeCommand s n 4 fun _ => True) ∧
  (∀ s n x, let p := argNat x 16 1; let a := argNat x 24 8
    let idle (c : Nat) : Prop := (s.cluster c).part = none ∧ (s.cluster c).st = 0
    (Posted s n x 0x01 → Finishes .status s n 0 fun t => t.mem = s.mem) ∧
    (Posted s n x 0x02 → p ≤ 2 → Finishes .flashwrite s n 0 fun t => (kget t.flash p).isSome = true) ∧
    (Posted s n x 0x03 → argNat x 48 8 % 64 = 0 → DeviceRange s (argNat x 48 8) 4096 → Finishes .attest s n 0 fun t => t.ctxs = s.ctxs) ∧
    (Posted s n x 0x18 → p < 16 → kget s.parts p = none → (∀ c, c < 64 → a.testBit c = true → idle c) →
      Finishes .partassign s n 0 fun t => t.parts = kput s.parts p ()) ∧
    (∀ c, Posted s n x 0x19 → p < 16 → argNat x 17 1 = c → c < 64 → (kget s.parts p).isSome = true → idle c →
      Finishes .partadd s n 0 fun t => (t.cluster c).part = some p) ∧
    (∀ c, Posted s n x 0x1A → p < 16 → argNat x 17 1 = c → c < 64 → (kget s.parts p).isSome = true → (∀ y ∈ s.clusters, y.2.leaving = false) →
      (s.cluster c).part = some p → partNamed s p = false → c ∈ s.clusters.map Prod.fst → gangOn s c = [] →
      (∀ y ∈ s.gangs, ∀ pl, y.2.castle = some pl → 16 * pl.die + pl.cl ≠ c) →
      Finishes .partremove s n 0 fun t => (t.cluster c).part = none) ∧
    (Posted s n x 0x1B → p < 16 → (kget s.parts p).isSome = true → partNamed s p = false →
      Finishes .partrelease s n 0 fun t => t.parts = kdel s.parts p) ∧
    (Posted s n x 0x46 → DeviceRange s a (argNat x 16 4) → Finishes .queryallCmd s n 0 fun t => t.queues = s.queues) ∧
    (∀ c, Posted s n x 0x50 → argNat x 16 1 = c → c < 64 → let k := s.cluster c
      (x.phase = 0 → k.part = none → GoesOn .clgate s n 1) ∧
      (x.phase = 4 → k.offNow = true → Finishes .clgate s n 0 fun t => t.clusters = s.clusters)) ∧
    ∀ c, Posted s n x 0x51 → argNat x 16 1 = c → c < 64 → let k := s.cluster c
      (x.phase = 0 → k.st = 5 → k.saving = false → GoesOn .clungate s n 1) ∧
      (x.phase = 1 → k.st = 0 → Finishes .clungate s n 0 fun t => t.clusters = s.clusters)) ∧
  (∀ s n x y c, argNat x 16 2 = c → c < 4096 → s.ctx? c = some y → let a := argNat x 24 8
    let quiet : Prop := (∀ q ∈ s.queues, q.2.ctx ≠ c) ∧ (∀ g ∈ s.grids, g.2.ctx = c → g.2.cpl = 0)
    let calm : Prop := ∀ r ∈ s.fbuf, r.ctx = c → r.pend = 0
    let live (t : State) : Prop := ∃ z, t.ctx? c = some z ∧ z.st = .live
    (y.st = .live ∨ y.st = .halted ∨ y.st = .lost → quiet →
      (Posted s n x 0x11 → Finishes .ctxreset s n 0 live) ∧ (Posted s n x 0x12 → Finishes .ctxdestroy s n 0 fun t => t.ctx? c = none)) ∧
    (Posted s n x 0x13 → y.st = .live → y.stops < y.stopsPrev + 4096 →
      Finishes .ctxhalt s n 0 fun t => ∃ z, t.ctx? c = some z ∧ z.st = .halted ∧ z.cause = 0x25) ∧
    (Posted s n x 0x14 → y.st = .halted → y.cause = 0x25 → y.faults = [] → calm → Finishes .ctxrelease s n 0 live) ∧
    (Posted s n x 0x15 → y.st = .halted → y.cause = 0x24 → calm → Finishes .ctxresume s n 0 live) ∧
    (Posted s n x 0x16 → Finishes .stopread s n 0 fun t => t.mem = s.mem) ∧
    (Posted s n x 0x17 → Finishes .evread s n 0 fun t => ∃ z, t.ctx? c = some z ∧ z.events = Vector.replicate 10 0) ∧
    (Posted s n x 0x20 → transInUse s c = false → x.phase = 0 → a % 128 = 0 → isDevice s a = true → argNat x 18 2 < 4096 →
      y.st = .live ∨ y.st = .halted → Finishes .setroot s n 0 fun t => ∃ z, t.ctx? c = some z ∧ z.root = some (a, argNat x 18 2)) ∧
    (Posted s n x 0x21 → transInUse s c = false → x.phase = 0 → argNat x 24 9 % 65536 = 0 → Finishes .inval s n 0 fun t => t.ctxs = s.ctxs) ∧
    (Posted s n x 0x30 → a % 4096 = 0 → a < 2 ^ 56 → DeviceRange s a 64 → 12 ≤ argNat x 18 1 → argNat x 18 1 ≤ 30 → argNat x 19 1 < 64 → argNat x 20 1 ≤ 1 →
      Finishes .traceset s n 0 fun t => ∃ z, t.ctx? c = some z ∧ z.trace.kinds = BitVec.ofNat 6 (argNat x 19 1)) ∧
    (Posted s n x 0x31 → argNat x 18 1 ≤ 2 → argNat x 19 1 ≤ 1 → a % 4096 = 0 → (∀ g ∈ s.grids, g.2.ctx = c → g.2.st = .done) →
      DeviceRange s a 64 → y.rec_.due = [] → (∀ z ∈ y.rec_.streams, z.recs = []) →
      Finishes .recset s n 0 fun t => ∃ z, t.ctx? c = some z ∧ z.rec_.mode = argNat x 18 1)) ∧
  (∀ s n x, let c := argNat x 16 32 % 2 ^ 12
    Posted s n x 0x10 → ctxDescBad s (argNat x 16 32) = false → s.ctx? c = none →
    Finishes .ctxcreate s n 0 fun t => ∃ z, t.ctx? c = some z ∧ z.st = .live) ∧
  (∀ (s : State) (n : Nat) (x : CmdSlot) (r : FaultRec) (c : Ctx) (w sl : Nat) (v : Wave) (deny : Bool), Posted s n x (if deny then 0x23 else 0x22) →
    s.fbuf = [r] → s.fmiss = [] → r.seq = argNat x 16 4 → r.answered = false → r.pend = 0 → s.ctx? r.ctx = some c → c.st = .live →
    r.holders = [.slot w sl] → s.wave? w = some v → sl < 2 → (v.slot sl).hold = .parked → v.st = .parked →
    Finishes (if deny then .deny else .replay) s n 0 fun t => ∃ v', t.wave? w = some v' ∧ (v'.slot sl).hold = .none ∧ v'.st = .seated) ∧
  ∀ s n x q y, argNat x 16 4 = q → q < 1048576 →
    let st (k : Nat) (t : State) : Prop := ∃ z, kget t.queues q = some z ∧ z.st = k
    (Posted s n x 0x40 → kget s.queues q = none → argNat x 20 2 < 4096 → ctxLive s (argNat x 20 2) = true →
      4 ≤ argNat x 22 1 → argNat x 22 1 ≤ 20 → argNat x 24 9 % 4096 = 0 → argNat x 33 9 % 4 = 0 → Finishes .createq s n 0 (st 1)) ∧
    (kget s.queues q = some y →
      (Posted s n x 0x41 → x.phase = 0 → y.st = 1 ∨ y.st = 7 → GoesOn .mapq s n 1) ∧
      (Posted s n x 0x41 → x.phase = 1 → y.st = 3 → Finishes .mapq s n 0 (st 3)) ∧
      (Posted s n x 0x42 → x.phase = 0 → y.st = 3 → GoesOn .unmapq s n 1) ∧
      (Posted s n x 0x42 → x.phase = 1 → y.st = 1 → Finishes .unmapq s n 0 (st 1)) ∧
      (Posted s n x 0x43 → y.st = 3 → Finishes .drainq s n 0 (st 4)) ∧
      (Posted s n x 0x44 → y.st = 9 → y.ridxAddr = 0 → Finishes .resetq s n 0 (st 1)) ∧
      (Posted s n x 0x45 → y.st = 1 ∨ y.st = 7 ∨ y.st = 9 → Finishes .destroyq s n 0 fun t => kget t.queues q = none))

/-- The events of waves, gangs and engines take effect where their rule's conditions hold: a seat is granted or taken, a wait ends, data
arrives, a copy, an arrival, a request or a matrix step is done, a gang is placed, saved, restored or moved, a kernel completes, a
barrier climbs or releases, a packet acts, a bench clock issues (R36 to R137, R278 to R352, R365 to R373, R385, R406, R432). -/
def Obligations.WorkEventsComplete : Prop :=
  let does (i : Instr) (s : State) (Q : State → Prop) : Prop := ∃ t, exec i s = .next t ∧ Q t
  (∀ s w v sl, s.wave? w = some v → sl < 2 → Untraced s v.ctx 5 →
    let gone (Q : Wave → Prop) (t : State) : Prop := ∃ v', t.wave? w = some v' ∧ Q v'
    (∀ c, (v.slot sl).hold = .seam c → c ≠ .ready → v.alive = true → v.st ≠ .saved → v.st ≠ .halted → ctxLive s v.ctx = true →
      condHolds s v c = true → evictHere s v = false → inspectorsOf s w sl = [] →
      does (.seamWaitEnd w sl) s (gone fun v' => (v'.slot sl).hold = .none ∧ (v'.slot sl).pc = (v.slot sl).pc + 16)) ∧
    (∀ t, (v.slot sl).hold = .sleep t → t ≤ s.tick.toNat → does (.sleeptExpiry w sl) s (gone fun v' => (v'.slot sl).hold = .none)) ∧
    (∀ k, k < 3 → (∀ u y, (u, y) ∈ benchWaves s (benchOf v.place) → y.seat ≠ some k) → refillPick s (benchOf v.place) = some w →
      ctxLive s v.ctx = true → v.haltDue = none → does (.seatGrant w k) s (gone fun v' => v'.st = .seated ∧ v'.seat = some k)) ∧
    (s.unit = w → v.seat.isSome = true → v.st = .seated → ctxLive s v.ctx = true → (v.slot sl).live = true → 4096 < (v.slot sl).starveClocks →
      does .forcedUnseat s (gone fun v' => v'.st = .forced ∧ v'.seat = none)) ∧
    (∀ t, s.unit = w → v.seat.isSome = true → v.parkTime = some t → v.st = .parked → ctxHalted s v.ctx = false → wavePages s w = true →
      s.cfg.parklimit < t → does .parklimitExpiry s (gone fun v' => v'.st = .forced ∧ v'.seat = none)) ∧
    ((w, v) ∈ benchWaves s s.unit → v.st = .seatwait → v.stack = [] → ctxLive s v.ctx = true → s.unit % 32 ≠ 3 →
      (∀ u y, (u, y) ∈ benchWaves s s.unit → (u, y) ≠ (w, v) → y.st = .seatwait → y.stack = [] → ctxLive s y.ctx = true → v.waitSince < y.waitSince) →
      ((benchWaves s s.unit).filter fun y => y.2.seat.isSome).length = 4 →
      (∃ u y, (u, y) ∈ benchWaves s s.unit ∧ y.st = .ready ∧ ctxLive s y.ctx = true) →
      does .unseat s (gone fun v' => v'.st = .lodged ∧ v'.seat = none)) ∧
    (∀ u k y ln d ex since, inspectorsOf s w sl = [(u, k)] → s.wave? u = some y → k < 2 → (y.slot k).hold = .inspect w sl ln d ex since →
      since + 65536 ≤ s.tick.toNat →
      does (.hstepWaitTimeout w sl) s fun t => ∃ y', t.wave? u = some y' ∧ (y'.slot k).hold = .none)) ∧
  (∀ s b k, does (.drowsyBankWake b k) s fun t => t = s) ∧
  (∀ s w sl v b, Issues s w sl v → decodeWord (DecEnv.full false) b = .error .illop →
    Traps (.illegalWordIssue b) s w v (wordTrap v sl 0x01 (lanesIn v sl) 0 0)) ∧
  (∀ s q, kget s.prods s.unit = some q → s.fbuf = [] → s.fmiss = [] → (∀ v, s.wave? q.wave = some v → v.alive = false) →
    does .producerDataArrival s fun t => t.prods = kdel s.prods s.unit) ∧
  (∀ s q v vals wide ent, kget s.prods s.unit = some q → q.kind = .value vals wide ent → s.wave? q.wave = some v → v.alive = true →
    Unwatched s v → v.inHandler = false → vals ≠ [] → (∀ y ∈ vals, y.1 < 64) → (∀ l, l < 64 → q.lanes.getLsbD l = true → (kget vals l).isSome = true) →
    does .producerDataArrival s fun t => t.prods = kdel s.prods s.unit ∧ ∃ v', t.wave? q.wave = some v' ∧
      ∀ k, v'.path k = v.path k - if k = q.path then 1 else 0) ∧
  (∀ s q v b t first n e, kget s.prods s.unit = some q → q.kind = .acrd t first n e → s.wave? q.wave = some v → v.alive = true →
    v.inHandler = false → Unwatched s v → s.block? v.blk = some b → e + n ≤ 552 →
    does .acrdDelivery s fun t => t.prods = kdel s.prods s.unit) ∧
  (∀ s c b pa, CopyGoes s c → let n := min (64 - (c.dst + c.done) % 64) (c.len - c.done)
    c.dir = 1 → s.block? c.blk = some b → SideReads s c.ctx (c.dst + c.done) n .write pa → does .courierLine s fun t => ∃ u, CopyMoved u t c n) ∧
  (∀ s c (n : Fin 16) m b v y, kget s.copies s.unit = some c → c.arrive = some (n.val, m) → c.len ≤ c.done →
    (∀ z ∈ s.copies, z.2.group = c.group → z.1 = s.unit) → s.ctx? c.ctx = some y → y.st = .live → y.rec_.mode = 0 →
    s.block? c.blk = some b → b.st ≠ .restoring → s.wave? c.wave = some v → v.alive = true → b.bars[n].mask = 0 ∨ b.bars[n].mask = m →
    does .carriedArrival s fun t => t.copies = kdel s.copies s.unit ∧ ∃ z, t.block? c.blk = some z ∧ z.stamp = b.stamp + 1) ∧
  (∀ s r v c k, s.hall.find? (fun y => decide (y.id = s.unit)) = some r → ctxSettles s r.ctx = true → reqBehind s r = false →
    reqHeld s r = false → reqStaged s r = false → s.unreach = [] → r.acq = false → Unrecorded s r.ctx → s.wave? r.wave = some v →
    let served (t : State) : Prop := t.hall = s.hall.filter fun y => decide (y.id ≠ r.id)
    (∀ pa, r.at_ = .dev pa → (∀ j, j < 8 → isDevice s (pa + j) = true) → r.holds = false → does .porterServe s served) ∧
    (r.holds = true → reqAway s r = false → s.ctx? r.ctx = some c → c.phase = true → k = s.cluster r.home → (heldAddrs k).length < 256 → k.held.length < 16 →
      k.ovfAddrs = [] → does .porterServe s served)) ∧
  (∀ s m rest b c, kgetD s.matrix s.unit [] = m :: rest → stepClocks b m ≤ m.ran → s.block? m.blk = some b → s.ctx? b.ctx = some c → c.st = .live →
    (∀ n, n < 16 → (watchUnit s (blockCore b) n).arm = false ∨ (watchUnit s (blockCore b) n).ctx ≠ b.ctx) →
    does .matrixComplete s fun t => t.matrix = kput s.matrix s.unit rest) ∧
  (∀ s g r idx rest pl, s.grid? g = some r → r.st = .placing → r.pending = idx :: rest → r.sync = false → ctxLive s r.ctx = true →
    earlierKernel s g r = false → savedFirst s r.ctx = false → urgentFirst s r.ctx = false →
    clusterOpen s (partOf s r.ctx) (16 * pl.die + pl.cl) = true → siteOk s r.desc pl (gangBlocks r idx).length [] = true →
    privsOk s r.ctx pl = true → headEnters s g r (gangBlocks r idx).length = true → SitePrivs s r.ctx pl → does (.gangPlace g pl) s fun t => ∃ y, t.gang? s.nextId = some y ∧ y.st = .resident) ∧
  (∀ s r c, s.grid? s.unit = some r → r.st = .flushing → s.ctx? r.ctx = some c → c.st = .live → c.rec_.mode = 0 → gridFlushed s s.unit = true →
    r.cpl = 0 → does .kernelComplete s fun t => t.grids = kdel s.grids s.unit ∧ t.mem = s.mem) ∧
  (∀ s g r, s.gang? s.unit = some g → s.grid? g.grid = some r → g.xbDie = false → g.xb.gmask ≠ 0 → g.xb.garr = g.xb.gmask → g.st ≠ .retired →
    ¬ (∀ k ∈ r.gangs, ∀ y, s.gang? k = some y → y.die = g.die → k ∈ r.xbArr ∨ k = s.unit) →
    does .xbarDieArrival s fun t => ∃ y, t.gang? s.unit = some y ∧ y.xbDie = true) ∧
  (∀ s r, s.grid? s.unit = some r → r.gangs ≠ [] → (∀ k ∈ r.gangs, k ∈ r.xbArr) → r.gangs.Nodup →
    (r.gangs.flatMap fun k => match s.gang? k with | some g => g.blocks | none => []).Nodup →
    does .xbarIodieComplete s fun t => ∀ k ∈ r.gangs, ∀ g, s.gang? k = some g → t.gang? k = some { g with xb := ⟨0, 0, g.xb.phase + 1⟩, xbDie := false }) ∧
  (∀ s w v sl p, s.wave? w = some v → (kfind s.waves fun _ y => y.gang = s.unit) = [w] → sl < 2 → (v.slot sl).hold = .seam (.gbar p) →
    condHolds s v (.gbar p) = true → (v.slot (1 - sl)).hold = .none → v.alive = true → v.st ≠ .saved → v.st ≠ .halted →
    ctxLive s v.ctx = true → evictHere s v = false → inspectorsOf s w sl = [] →
    does .barrierTreeRelease s fun t => ∃ v', t.wave? w = some v' ∧ (v'.slot sl).hold = .none) ∧
  (∀ s v g d a, s.wave? s.unit = some v → s.gang? v.gang = some g → g.st = .evicting → v.alive = true → emergencySave s v.gang g = false →
    s.mods.railsOff = false → ctxLive s v.ctx = true → v.stack = [] → v.forced = false → v.st = .lodged ∨ v.st = .ready → Untraced s v.ctx 5 →
    descOf s g.grid = some d → blockAt s g v.blk = some a → DeviceRange s (a + waveSecAt d v.idx) (waveSecSize d) →
    does .waveSave s fun t => ∃ y, t.wave? s.unit = some y ∧ y.st = .saved) ∧
  (∀ s b g d a, s.block? s.unit = some b → s.gang? b.gang = some g → g.st = .evicting → b.st = .resident → s.mods.railsOff = false →
    (∀ w ∈ b.waves, ∀ v, s.wave? w = some v → v.st = .saved ∨ v.st = .ended) → ctxLive s b.ctx = true → b.seq.st ≠ .run →
    tilesSettled s s.unit b = true → descOf s g.grid = some d → blockAt s g s.unit = some a → DeviceRange s a (waveSecAt d 0) →
    does .blockSave s fun t => ∃ y, t.block? s.unit = some y ∧ y.st = .saved) ∧
  (∀ s g a, s.gang? s.unit = some g → g.st = .evicting → s.mods.railsOff = false → ctxLive s g.ctx = true → gridSync s g.grid = false →
    blocksSaved s g = true → liveBlocks s g ≠ [] → g.castle = none → (∀ y ∈ s.ctxs, y.2.st ≠ .emergency) → g.image = some a →
    DeviceRange s a 6295552 → does .gangSaveComplete s fun t => ∃ y, t.gang? s.unit = some y ∧ y.st = .saved) ∧
  (∀ s g, s.gang? s.unit = some g → g.st = .evicting → gridSync s g.grid = false → 10000000 ≤ g.evictTicks → ctxLive s g.ctx = true →
    blocksSaved s g = false → sitesFree s g = true → privGone s s.unit = false → (∀ w v, s.wave? w = some v → Untraced s v.ctx 5) →
    does .evictionWithdraw s fun t => ∃ y, t.gang? s.unit = some y ∧ y.st = .resident) ∧
  (∀ s gk g d pl hot cool, s.gang? gk = some g → descOf s g.grid = some d → (s.cluster (16 * g.die + g.cl)).temp = some hot →
    (s.cluster (16 * pl.die + pl.cl)).temp = some cool → g.st = .resident → ctxLive s g.ctx = true →
    g.resident.toNat + 2000000 ≤ s.tick.toNat → gridSync s g.grid = false → (s.cfg.castleTemp : Int) < hot.toInt →
    cool.toInt + s.cfg.castleMargin ≤ hot.toInt → 16 * pl.die + pl.cl ≠ 16 * g.die + g.cl →
    clusterOpen s (partOf s g.ctx) (16 * pl.die + pl.cl) = true → imagesRoom s gk g = true → siteOk s d pl (liveBlocks s g).length [] = true →
    does (.castling gk pl) s fun t => ∃ y, t.gang? gk = some y ∧ y.st = .evicting ∧ y.castle = some pl) ∧
  (∀ s x, clockRuns s (s.unit / 32) = true → s.unit % 32 ≠ 3 → benchChoice s (s.unit / 32) (readyWaves s s.unit) = some x →
    does .benchClock s fun t => t.agenda = .wave x.w x.sl :: s.agenda)

/-- The events of queues, contexts, power, ports, boot and the module's outside take effect where their rule's conditions hold (R111 to
R120, R338, R339, R357, R365 to R373, R381, R389 to R395, R402, R408, R412 to R416, R424 to R447, R451). -/
def Obligations.ModuleEventsComplete : Prop :=
  let does (i : Instr) (s : State) (Q : State → Prop) : Prop := ∃ t, exec i s = .next t ∧ Q t
  (∀ s q x, kget s.queues q = some x → x.after = 0 →
    let st (k : Nat) (t : State) : Prop := ∃ y, kget t.queues q = some y ∧ y.st = k
    (∀ v, x.st = 1 → does (.wakeStore q x.ctx v) s (st 2)) ∧
    (∀ ok, x.st = 6 → x.wakePend = true → does (.pageoutComplete q ok) s (st 2)) ∧
    (x.st = 8 → does (.pageinComplete q true) s (st 2)) ∧
    (s.unit = q →
      (x.st = 5 → x.wakePend = false → does .unmapComplete s (st 1)) ∧
      (x.st = 3 → x.ridx = x.widx → x.busy = [] → x.cur = none → x.pinned = false → x.idle.toNat + s.cfg.qidle ≤ s.tick.toNat →
        does .qidleExpiry s (st 5)) ∧
      (x.st = 1 → x.tick.toNat + s.cfg.qpageage ≤ s.tick.toNat → does .qpageageExpiry s (st 6)) ∧
      (x.st = 4 → x.ridx = x.drain → x.busy = [] → x.cur = none → does .drainComplete s (st 5)) ∧
      (∀ r, x.st = 2 → r < 4096 → kget s.rooms r = none → (∀ k, k < r → (kget s.rooms k).isSome = true) →
        (x.widx - x.ridx).toNat ≤ 2 ^ x.logsize → does .roomGrant s (st 3)))) ∧
  (∀ s q x l pa, (∀ k, k < 64 → kget s.rooms (64 * s.unit + k) = if k = l then some q else none) → l < 64 →
    kget s.queues q = some x → ctxLive s x.ctx = true → x.cur = none → x.denied = none → x.st = 3 → x.ridx ≠ x.widx →
    xlate s x.ctx (x.ring.toNat + 64 * (x.ridx.toNat % 2 ^ x.logsize)) .read = .hit pa → PlainRange s pa 64 →
    let b := (List.range 64).map fun i => devByte s x.ctx (pa + i)
    pktBad b = false → x.busy = [] → does .innkeeperSweepGroup s fun t => ∃ y, kget t.queues q = some y ∧ y.cur = some (x.ridx.toNat, b)) ∧
  (∀ s x idx b c, kget s.queues s.unit = some x → x.cur = some (idx, b) → s.ctx? x.ctx = some c → c.st = .live → x.ridx.toNat = idx →
    x.st = 3 → x.denied = none → x.ridxAddr = 0 →
    let s1 : State := { s with queues := kmod s.queues s.unit fun _ => { x with ridx := x.ridx + 1 } }
    let taken (t : State) : Prop := ∃ y, kget t.queues s.unit = some y ∧ y.ridx = x.ridx + 1 ∧ y.cur = none
    (pktNat b 0 1 = 5 → does .nopPacket s taken) ∧
    (∀ pa, pktNat b 0 1 = 2 → xlate s1 x.ctx (pktNat b 16 9) .write = .hit pa → PlainRange s pa 8 → does .signal s taken) ∧
    (∀ pa, pktNat b 0 1 = 3 → xlate s1 x.ctx (pktNat b 16 9) .read = .hit pa → PlainRange s pa 8 → does .waitval s taken) ∧
    (∀ p : Nat → Nat, pktNat b 0 1 = 1 → let bytes := qSummary s1 (if c.priv then none else some x.ctx) (pktNat b 8 4)
      (∀ i, 64 * i < bytes.length → xlate s1 x.ctx (pktNat b 16 9 + 64 * i) .write = .hit (p i) ∧ PlainRange s (p i) 64) →
      does .queryallPacket s taken) ∧
    (∀ pa, pktNat b 0 1 = 4 → xlate s1 x.ctx (pktNat b 16 9) .read = .hit pa → PlainRange s pa 64 → pktNat b 2 1 = 0 →
      let n := devNat s x.ctx pa 64
      let r : Grid := {
        ctx := x.ctx, queue := some s.unit, st := .placing, desc := parseDesc n, nx := pktNat b 4 2, ny := pktNat b 6 2, nz := pktNat b 8 2
        sync := (pktNat b 1 1).testBit 1, params := [], cpl := pktNat b 48 9, pending := [], gangs := [], status := 0, fcode := 0
        issuer := 0, xbArr := [], xbDies := [], recNo := c.rec_.grids }
      descBad n = false → r.nx ≠ 0 → r.ny ≠ 0 → r.nz ≠ 0 → gangCount r ≤ 262144 → tooBig s1 c r = false →
      does .launchPacket s fun t => taken t ∧ ∃ g, kget t.grids s.nextId = some g ∧ g.st = .placing)) ∧
  (∀ s x idx a v eq pa, kget s.queues s.unit = some x → (∃ c, s.ctx? x.ctx = some c ∧ c.st = .live) → x.denied = none →
    x.busy = [(idx, .wait a v eq)] →
    xlate { s with free := s.free + 1 } x.ctx a .read = .hit pa → PlainRange s pa 8 → devNat s x.ctx pa 8 = v.toNat →
    does .waitvalRecheck s fun t => ∃ y, kget t.queues s.unit = some y ∧ y.busy = []) ∧
  (∀ s gk g d pl, s.gang? gk = some g → descOf s g.grid = some d → g.st = .saved → g.castle = none → savedTurn s g = true →
    ctxLive s g.ctx = true → gridSync s g.grid = false → imageWhole s g = true → clusterOpen s (partOf s g.ctx) (16 * pl.die + pl.cl) = true →
    siteOk s d pl (liveBlocks s g).length [] = true → privGone s gk = false → (∀ y ∈ s.waves, Untraced s y.2.ctx 5) →
    ((liveBlocks s g).flatMap fun b => match s.block? b with | some x => x.waves | none => []).Nodup → (liveBlocks s g).Nodup →
    does (.gangRestore gk pl) s fun t => ∃ y, t.gang? gk = some y ∧ y.st = .resident) ∧
  (∀ s r, s.fbuf.find? (fun y => !y.copied) = some r → (s.fwidx - s.fridx).toNat < 2046 → DeviceRange s (s.cfg.faultRing + 64 + 32 * (s.fwidx.toNat % 2046)) 32 →
    DeviceRange s s.cfg.faultRing 4 → does .faultRingCopy s fun t => t.fwidx = s.fwidx + 1) ∧
  (∀ s, (∃ r ∈ s.fbuf, r.copied = false) → does .faultRingPoll s fun t => t.mem = s.mem) ∧
  (∀ s c a, HaltsContext (.eccUncorrectable c a) s { s with mods := eccNoted s a } c 0x20 a) ∧
  (∀ s, HaltsContext .keySlotFault s s s.unit 0x21 0) ∧
  (∀ s c w x v, s.ctx? c = some x → x.st = .halted → .wave w ∉ x.stopped → s.wave? w = some v → v.ctx = c → v.alive = true → v.st ≠ .saved → x.cause < 256 →
    x.stops < x.stopsPrev + 4096 → DeviceRange s (x.poolBase + 64 * (x.stops % 4096)) 64 →
    does (.engineStop c (.wave w)) s fun t => ∃ y, t.ctx? c = some y ∧ y.stops = x.stops + 1) ∧
  (∀ s c x k y, s.ctx? c = some x → x.rec_.streams[k]? = some y →
    (∀ h, x.st = .live → x.rec_.mode = 2 → x.rec_.diverged = false → y.admitted = none → y.left ≠ 0 → 1 < y.headRun →
      y.waiting.find? (fun z => z.1 = y.headIss) = some (y.headIss, h) →
      does (.gateAdmit c k) s fun t => ∃ z y', t.ctx? c = some z ∧ y' ∈ z.rec_.streams ∧ y'.admitted = some y.headIss) ∧
    (∀ z, x.st = .live → x.rec_.mode = 2 → x.rec_.diverged = false → x.rec_.gateWait ≤ y.missing → y.waiting.head? = some z →
      does (.replayIssuerTimeout c k) s fun t => ∃ u, t.ctx? c = some u ∧ u.rec_.diverged = true) ∧
    (findStream x.rec_ y.key y.grid = some y → y.recs ≠ [] → y.firstTick.toNat + 1000000 ≤ s.tick.toNat → x.rec_.full = false →
      does (.chunkCloseTimeout c k) s fun t => ∃ z, t.ctx? c = some z ∧ z.rec_.due = x.rec_.due ++ [y])) ∧
  (∀ s src cid share, Linked s → NoneWaits s (.sysStageReceive src cid share) →
    ((∀ x ∈ share, stagedByte s x.1 = false) → does (.sysStageReceive src cid share) s fun t => t.mem = s.mem ∧ ∃ y ∈ t.staged, y.src = src ∧ y.cid = cid) ∧
    (s.staged.find? (fun x => x.src = src && x.cid = cid) = some ⟨src, cid, share⟩ → (∀ x ∈ share, isDevice s x.1 = true) →
      does (.sysApplyReceive src cid) s fun t => ∀ a, memGet t.mem a = (lastByte share a).getD (memGet s.mem a))) ∧
  (∀ s src share, Linked s → NoneWaits s (.remoteCarryShare src share) → s.hall = [] → (∀ x ∈ share, isDevice s x.1 = true ∧ stagedByte s x.1 = false) →
    does (.remoteCarryShare src share) s fun t => ∀ a, memGet t.mem a = (lastByte share a).getD (memGet s.mem a)) ∧
  (∀ s c v, kget s.sysCommits s.unit = some c → (∀ m ∈ c.homes, homeCut s m = false) → s.wave? c.wave = some v →
    (c.applied = false → c.check = false → Unrecorded s c.ctx → does .sysStageAck s fun t => ∃ d, kget t.sysCommits s.unit = some d ∧ d.applied = true) ∧
    (c.applied = true → c.finished = false → waveLives s c.wave = true → (∀ x ∈ c.host, ∃ a, homeOf s x.1 = .host a) →
      does .sysApplyAck s fun t => ∃ d, kget t.sysCommits s.unit = some d ∧ d.finished = true)) ∧
  (∀ s src, Linked s → does (.apauxRequest src .ticket) s fun t => t.tickets = s.tickets + 1) ∧
  (∀ s core c pa n, core < 16 → NoneWaits s (.stewardAccess core c (.load pa n)) → (∀ i, i < n → stagedByte s (pa + i) = false) →
    homeOf s pa ≠ .power → homeOf s pa ≠ .mgmt → s.recovery = false → s.unreach = [] → cutOff s pa = false → core ∉ s.mods.coreHold →
    does (.stewardAccess core c (.load pa n)) s fun t => t.bus = BitVec.ofNat 64 (devNat s c pa n)) ∧
  (∀ s off l, NoneWaits s (.hostRead 0 0 0) → s.recovery = false → s.mods.h2dEn = true → ctxLive s s.mods.h2dCtx = true → l ≠ [] → off + l.length ≤ 2 ^ 36 →
    PlainRange s (bar2Pa s off) l.length →
    does (.hostPostedWrite 2 off l) s (fun t => ∀ a, memGet t.mem a = (lastByte (bytesFrom (bar2Pa s off) l) a).getD (memGet s.mem a)) ∧
    does (.hostRead 2 off l.length) s fun t => t.bus = BitVec.ofNat 64 (devNat s s.mods.h2dCtx (bar2Pa s off) l.length)) ∧
  (∀ s c, s.unit = c → let x := s.cluster c; let st (k : Nat) (t : State) : Prop := (t.cluster c).st = k
    (x.saving = true → x.heldOps = [] → does .retsaveComplete s (st 3)) ∧
    (x.saving = false →
      (x.st = 0 → (s.cluster (buddyOf c)).st = 0 → gangOn s c = [] → (∀ y ∈ s.gangs, ∀ pl, y.2.castle = some pl → 16 * pl.die + pl.cl ≠ c) →
        does .clqreqSet s (st 1)) ∧
      (x.st = 1 → does .clqreqClear s (st 0)) ∧ (x.st = 2 → does .retsaveGo s fun t => (t.cluster c).saving = true) ∧
      (x.st = 3 → does .clkgateSet s (st 4)) ∧ (x.st = 4 → does .clkgateClear s (st 3)) ∧
      (∀ mv, x.st = 4 → mvOk mv = true → does (.lrailOff c mv) s (st 5)) ∧
      (x.st = 5 → railSettled false x.mv x.mvNow = false → does .clwakeWake s (st 6)) ∧
      (x.st = 5 → railSettled false x.mv x.mvNow = true → x.rlBusy = false → x.retValid = false → does .clwakeWake s (st 0))) ∧
    (∀ mv, mvOk mv = true → does (.lrailMv c mv) s fun t => (t.cluster c).mv = mv) ∧
    (x.st = 1 → clusterIdle s c = true → does .quiesceComplete s (st 2)) ∧
    (x.off = true → x.mvNow < 100 → does .railOffReached s fun t => (t.cluster c).offNow = true) ∧
    (x.st = 6 → x.mvNow = x.mv → x.rlBusy = false → x.retValid = false → does .railSettled s (st 0)) ∧
    (x.st = 6 → x.rlBusy = true → does .retloadComplete s (st 0)) ∧
    (c < 64 → s.mods.railsOff = false → s.mods.stopped = false → x.off = false → x.mvNow < x.mv → x.slewAt.toNat + 1000 ≤ s.tick.toNat →
      does .railSlew s fun t => (t.cluster c).mvNow = min x.mv (x.mvNow + 10))) ∧
  (∀ s, passDue s = true → does .railTargetPass s fun t => t.mods.passAt = some s.tick) ∧
  (∀ s die sensor reading, die < 4 → sensor < 64 → s.mods.stopped = false →
    does (.sensorSample die sensor reading) s fun t => t.sensors = kput s.sensors (64 * die + sensor) reading) ∧
  (∀ s die sensor, s.mods.railsOff = false → does (.hardTrip die sensor) s fun t => t.mods.railsOff = true) ∧
  (∀ s, s.mods.railsOff = false → (∃ y ∈ s.ctxs, y.2.st = .emergency) → (∀ y ∈ s.ctxs, y.2.st = .emergency → 2 ≤ y.2.saved) →
    does .emergencyRailRemoval s fun t => t.mods.railsOff = true) ∧
  (∀ s k, s.mods.coolSince = some k → s.mods.railsOff = true → 4 ≤ s.stage → s.recovery = false → k + 1000000000 ≤ s.tick.toNat →
    (∀ c, (s.cluster c).saving = false) → (s.clusters.map Prod.fst).Nodup → does .railsRestore s fun t => t.mods.railsOff = false) ∧
  (∀ (s : State) (p : Fin 16), s.unit = p.val → let x := s.ports[p]; let st (k : Nat) (t : State) : Prop := (t.ports[p]).st = k
    (x.st = 0 → s.recovery = false → does .porten s (st 1)) ∧ (x.st = 1 → x.since.toNat + 100000000 ≤ s.tick.toNat → does .portTrainingTimeout s (st 0)) ∧
    (∀ peer, x.st = 1 → does (.portTrainingDone p 8 peer) s (st 2)) ∧
    (x.st = 2 ∨ x.st = 3 → (s.recovery = false → does .portfence s (st 4)) ∧ does .portIdleTimeout s (st 0) ∧
      does .flitCrcError s (fun t => (t.ports[p]).replays = min (x.replays + 1) 255) ∧ (5 ≤ x.lanes → does .portLaneFail s (st 3)) ∧
      (1000 < (x.replayed.filter fun k => decide (s.tick.toNat < k.toNat + 1000000)).length → does .portReplayLimit s (st 4))) ∧
    (s.recovery = false → does .linkstRead s fun t => (t.ports[p]).replays = 0)) ∧
  (∀ s, hasPath s s.unit = false → (kget s.cfg.paths s.unit).isSome = true → s.unit ≠ s.cfg.modid → s.unit ∉ s.unreach → s.cfg.linkwait ≤ s.tick.toNat →
    (∀ p ∈ (kget s.cfg.paths s.unit).getD [], (port s p).lostAt.toNat + s.cfg.linkwait ≤ s.tick.toNat) → ctxsWaiting s s.unit = [] →
    (∀ y ∈ s.sysCommits, s.unit ∈ y.2.homes → y.2.applied = true) → does .linkwaitExpiry s fun t => s.unit ∈ t.unreach) ∧
  (∀ s v, tickMaster s ≠ s.cfg.modid → hasPath s (tickMaster s) = true → s.mods.stopped = false → s.mods.arm = false → s.tick.toNat < v.toNat →
    does (.tickSync v) s fun t => t.tick = v) ∧
  (∀ s : State, (s.mods.arm = true → s.tick = s.mods.stopTick → s.mods.stopped = false → does .stopTickReached s fun t => t.mods.stopped = true) ∧
    (s.flash = [] → does .moduleReset s fun t => t.stage = 1 ∧
      ∀ a, a < s.cfg.faultRing ∨ s.cfg.faultRing + 64 ≤ a → memGet t.mem a = memGet s.mem a) ∧
    (s.recovery = false →
      does (.stopctlArm false) s (fun t => t.mods.arm = false) ∧
      (s.mods.stopped = true → does .stopctlResume s fun t => t.mods.stopped = false) ∧
      does .cntsnap s (fun t => t.mods.snap = s.counters) ∧ does .cntclr s (fun t => t.counters = []) ∧
      (∀ v : DWord, does (.registerWrite (.module 0x80) v) s fun t => t.mods.stopTick = v) ∧
      (s.stage = 1 → does (.stewardBringup true) s fun t => t.stage = 2) ∧
      (s.stage = 2 → kget s.flash 2 = none → does .innkeeperVerify s fun t => t.stage = 3) ∧
      (s.stage = 3 → (∀ k, k < 256 → (kget s.sensors k).isSome = true) → s.cfg.porten = 0 → does .computeRailRaise s fun t => t.stage = 4) ∧
      (s.stage = 4 → s.mods.passAt ≠ none → does .mgmtReady s fun t => t.stage = 5)))

/-! ### Statements made of several -/

/-- Integer, logic, shift and field words compute exactly and keep their frame: IntegerArithmeticWords and
LogicShiftAndFieldWords and AddWithCarryGivesSumAndCarry. -/
def Obligations.IntegerWordsComputeExactly : Prop := Parts.IntegerArithmeticWords ∧ Parts.LogicShiftAndFieldWords ∧ Parts.AddWithCarryGivesSumAndCarry

/-- Predicate words write the predicates, or what predicates choose: PredicateWordsWritePredicates and PredicatesReadAsData. -/
def Obligations.PredicateWordsReadAndWrite : Prop := Parts.PredicateWordsWritePredicates ∧ Parts.PredicatesReadAsData

/-- Moves, address bases and system registers: MovesCopyTheirSource and AddressBaseWords and SystemRegisterWords. -/
def Obligations.MovesBasesAndSystemRegisters : Prop := Parts.MovesCopyTheirSource ∧ Parts.AddressBaseWords ∧ Parts.SystemRegisterWords

/-- Votes, lane exchange, reductions and scans; an integer reduction has no order: VotesCombineThePredicate and
ExchangeWordsTakeTheNamedLane and ReductionWordsCombineTheLanes and IntegerReductionHasNoOrder. -/
def Obligations.LanesCombineTheirValues : Prop := Parts.VotesCombineThePredicate ∧ Parts.ExchangeWordsTakeTheNamedLane ∧ Parts.ReductionWordsCombineTheLanes ∧ Parts.IntegerReductionHasNoOrder

/-- Floating-point arithmetic rounds its exact result once; an enabled flag traps: FloatArithmeticRoundsOnce and
EnabledFlagsTrap. -/
def Obligations.FloatArithmeticAndTraps : Prop := Parts.FloatArithmeticRoundsOnce ∧ Parts.EnabledFlagsTrap

/-- Minimum, maximum and comparison; packed and dot products: FloatSelectionAndComparison and PackedAndDotWords. -/
def Obligations.FloatSelectionAndPackedWords : Prop := Parts.FloatSelectionAndComparison ∧ Parts.PackedAndDotWords

/-- Conversion, packing, block scaling, quantising: ConversionWords and BlockScalingWords. -/
def Obligations.ConversionAndScalingWords : Prop := Parts.ConversionWords ∧ Parts.BlockScalingWords

/-- Special functions, square root, random words, running statistics: SpecialFunctionWords and StatisticsWords. -/
def Obligations.SpecialAndStatisticsWords : Prop := Parts.SpecialFunctionWords ∧ Parts.StatisticsWords

/-- A divergent branch splits lanes; JOIN and EXIT regroup them or end the wave: DivergentBranchSplitsItsLanes and
JoinsAndExitsRegroupLanes and ExitOfTheLastLanesEndsTheWave. -/
def Obligations.LanesSplitAndRegroup : Prop := Parts.DivergentBranchSplitsItsLanes ∧ Parts.JoinsAndExitsRegroupLanes ∧ Parts.ExitOfTheLastLanesEndsTheWave

/-- TRAP enters, RTT restores; HALT halts, SLEEPT holds: TrapHaltAndSleep and ReturnFromTrapRestoresTheFrame. -/
def Obligations.TrapsHaltsSleepAndReturn : Prop := Parts.TrapHaltAndSleep ∧ Parts.ReturnFromTrapRestoresTheFrame

/-- Seats are granted and taken, waits end, a bench clock issues one wave: SeatsAreGrantedAndTaken and WaitingSlotsGoOn and
BenchClockIssuesOneWave. -/
def Obligations.SeatsAndBenchesTakeTurns : Prop := Parts.SeatsAreGrantedAndTaken ∧ Parts.WaitingSlotsGoOn ∧ Parts.BenchClockIssuesOneWave

/-- System commits, steward cores and the host act at the home of their bytes: CommitMessagesActAtTheirHomes and
StewardAndHostAccessTheirHomes. -/
def Obligations.MessagesActAtTheirHomes : Prop := Parts.CommitMessagesActAtTheirHomes ∧ Parts.StewardAndHostAccessTheirHomes

/-- Queue events, sweeps, wakes and fault records act as their tables say: QueueEventsMoveTheirQueue and
SweepLoadsTheNextPacket and WakesMoveTheirQueue and FaultRingTakesRecords. -/
def Obligations.QueuesWakesAndFaultRecords : Prop := Parts.QueueEventsMoveTheirQueue ∧ Parts.SweepLoadsTheNextPacket ∧ Parts.WakesMoveTheirQueue ∧ Parts.FaultRingTakesRecords

/-- Placement makes the waves of a gang; a flushed kernel completes: GangPlacementMakesBlocksAndWaves and KernelsComplete. -/
def Obligations.GangsArePlacedAndComplete : Prop := Parts.GangPlacementMakesBlocksAndWaves ∧ Parts.KernelsComplete

/-- Eviction saves a gang, restore brings it back, castling moves it: EvictionSavesAGang and GangsAreRestoredAndMoved. -/
def Obligations.GangsAreSavedRestoredAndMoved : Prop := Parts.EvictionSavesAGang ∧ Parts.GangsAreRestoredAndMoved

/-- The power handshake runs in order; rail targets are the highest that fit: PowerHandshakeRunsInOrder and
RailTargetsAreTheHighestThatFit. -/
def Obligations.ClusterPowerFollowsItsOrder : Prop := Parts.PowerHandshakeRunsInOrder ∧ Parts.RailTargetsAreTheHighestThatFit

/-- Sensor samples act on heat; rails go at a trip and come back when cool: SensorSamplesActOnHeat and RailsGoAndComeBack. -/
def Obligations.HeatStopsAndCoolingRestores : Prop := Parts.SensorSamplesActOnHeat ∧ Parts.RailsGoAndComeBack

/-- Ports and the domain follow their tables: PortsFollowTheirTable and DomainEventsActOnTheModule. -/
def Obligations.PortsAndDomainFollowTheirTables : Prop := Parts.PortsFollowTheirTable ∧ Parts.DomainEventsActOnTheModule

/-- Stop, counters and the register path of the module; what stands still: ModuleRegistersAct and StoppedModuleStandsStill. -/
def Obligations.ModuleStopsAndRegistersAct : Prop := Parts.ModuleRegistersAct ∧ Parts.StoppedModuleStandsStill

/-- Boot stages follow in order; module reset keeps DRAM alone: BootStagesFollowInOrder and ModuleResetKeepsOnlyDram. -/
def Obligations.BootAndResetRunInOrder : Prop := Parts.BootStagesFollowInOrder ∧ Parts.ModuleResetKeepsOnlyDram

/-- H-class faults halt and record; replay gates admit, diverge and close: ContextFaultsHaltAndRecord and
GatesAdmitDivergeAndClose. -/
def Obligations.ContextFaultsAndGates : Prop := Parts.ContextFaultsHaltAndRecord ∧ Parts.GatesAdmitDivergeAndClose

/-- Block, gang and grid barriers take arrivals, wait, and release: BlockBarriersTakeArrivals and TreeBarriersReachTheirTop and
GangAndGridBarriersClimbTheTree. -/
def Obligations.BarriersTakeArrivalsAndRelease : Prop := Parts.BlockBarriersTakeArrivals ∧ Parts.TreeBarriersReachTheirTop ∧ Parts.GangAndGridBarriersClimbTheTree

/-- Loads leave a producer for their elements; stores enter the wave buffer, or fault: LaneLoadsLeaveAProducer and
TileGroupLoadsReadRowsAndColumns and StoresEnterTheWaveBuffer. -/
def Obligations.LoadsAndStores : Prop := Parts.LaneLoadsLeaveAProducer ∧ Parts.TileGroupLoadsReadRowsAndColumns ∧ Parts.StoresEnterTheWaveBuffer

/-- Commits and releasing fences carry the wave's bytes to their level: CommitsCarryTheWavesBytes and FencesReleaseAndAcquire. -/
def Obligations.CommitsAndFencesCarryBytes : Prop := Parts.CommitsCarryTheWavesBytes ∧ Parts.FencesReleaseAndAcquire

/-- Atomics act at the block or send requests, reductions send them; what each operation writes: AtomicsActOrSendRequests and
ReductionsSendRequests and AtomicOperationsGiveTheirValue. -/
def Obligations.AtomicsAndReductionsSendRequests : Prop := Parts.AtomicsActOrSendRequests ∧ Parts.ReductionsSendRequests ∧ Parts.AtomicOperationsGiveTheirValue

/-- Porters serve and hold requests; phases and versioned scalars open and close: PortersServeAndHold and PhasesOpenAndClose
and VersionedScalarsReduceReadAndClose. -/
def Obligations.PortersPhasesAndScalars : Prop := Parts.PortersServeAndHold ∧ Parts.PhasesOpenAndClose ∧ Parts.VersionedScalarsReduceReadAndClose

/-- Copy words start copies, couriers carry their lines, arrivals are applied: CopyWordsStartTheirCopies and CouriersCarryLines
and CarriedArrivalsAreApplied. -/
def Obligations.CopiesAreCarried : Prop := Parts.CopyWordsStartTheirCopies ∧ Parts.CouriersCarryLines ∧ Parts.CarriedArrivalsAreApplied

/-- Reservations are made and released; MLD fills its range, MST stores its tile: ReservationsAreMadeAndReleased and
MatrixLoadsFillTheirRange and MatrixStoresWriteTheirTile. -/
def Obligations.ReservationsLoadsAndStores : Prop := Parts.ReservationsAreMadeAndReleased ∧ Parts.MatrixLoadsFillTheirRange ∧ Parts.MatrixStoresWriteTheirTile

/-- MMA and MZA queue their step, and complete as the exact fold says: MatrixStepsAreQueued and MatrixStepsComplete. -/
def Obligations.MatrixStepsQueueAndComplete : Prop := Parts.MatrixStepsAreQueued ∧ Parts.MatrixStepsComplete

/-- Sequencer registers, loops, barriers and end: SequencerRegisterWords and SequencerBarrierWords. -/
def Obligations.SequencerWordsAct : Prop := Parts.SequencerRegisterWords ∧ Parts.SequencerBarrierWords

/-- Watch units, mailbox words and trace markers: WatchUnitWords and MailboxAndMarkers. -/
def Obligations.WatchMailboxAndMarkers : Prop := Parts.WatchUnitWords ∧ Parts.MailboxAndMarkers

/-- An inspector reads, writes, steps and releases a halted wave: HaltedWavesAreReadAndWritten and
HaltedWavesAreSteppedAndReleased. -/
def Obligations.InspectorsActOnHaltedWaves : Prop := Parts.HaltedWavesAreReadAndWritten ∧ Parts.HaltedWavesAreSteppedAndReleased

/-- A word that cannot run takes its first fault, at its PC: DecodeFaultsComeInOrder and WordsThatCannotIssueTrap and
SourcesAreCheckedInOrder and ControlWordsTrap. -/
def Obligations.WordsTrapInOrder : Prop := Parts.DecodeFaultsComeInOrder ∧ Parts.WordsThatCannotIssueTrap ∧ Parts.SourcesAreCheckedInOrder ∧ Parts.ControlWordsTrap
end

