-- ==== Sys2Proof/Laws/Arms.lean ====
section
/-! SUPPORT. Each arm of `exec`: the meaning that it calls. -/

namespace Sys2Proof.Laws

open Sys2Proof Sys2Proof.Machine

@[simp] theorem exec_nop (x : Body) (m : State) :
    exec (.nop x) m = execNop x m := rfl
@[simp] theorem exec_bra (x : Body) (m : State) :
    exec (.bra x) m = execBra x m := rfl
@[simp] theorem exec_brd (x : Body) (m : State) :
    exec (.brd x) m = execBrd x m := rfl
@[simp] theorem exec_join (x : Body) (m : State) :
    exec (.join x) m = execJoin x m := rfl
@[simp] theorem exec_call (x : Body) (m : State) :
    exec (.call x) m = execCall x m := rfl
@[simp] theorem exec_ret (x : Body) (m : State) :
    exec (.ret x) m = execRet x m := rfl
@[simp] theorem exec_jmpx (x : Body) (m : State) :
    exec (.jmpx x) m = execJmpx x m := rfl
@[simp] theorem exec_exit (x : Body) (m : State) :
    exec (.exit x) m = execExit x m := rfl
@[simp] theorem exec_seam (x : Body) (m : State) :
    exec (.seam x) m = execSeam x m := rfl
@[simp] theorem exec_yield (x : Body) (m : State) :
    exec (.yield x) m = execYield x m := rfl
@[simp] theorem exec_voteAny (x : Body) (m : State) :
    exec (.voteAny x) m = execVoteAny x m := rfl
@[simp] theorem exec_voteAll (x : Body) (m : State) :
    exec (.voteAll x) m = execVoteAll x m := rfl
@[simp] theorem exec_voteBal (x : Body) (m : State) :
    exec (.voteBal x) m = execVoteBal x m := rfl
@[simp] theorem exec_voteEq (x : Body) (m : State) :
    exec (.voteEq x) m = execVoteEq x m := rfl
@[simp] theorem exec_iadd (x : Body) (m : State) :
    exec (.iadd x) m = execIadd x m := rfl
@[simp] theorem exec_isub (x : Body) (m : State) :
    exec (.isub x) m = execIsub x m := rfl
@[simp] theorem exec_iaddc (x : Body) (m : State) :
    exec (.iaddc x) m = execIaddc x m := rfl
@[simp] theorem exec_imul (x : Body) (m : State) :
    exec (.imul x) m = execImul x m := rfl
@[simp] theorem exec_imulh (x : Body) (m : State) :
    exec (.imulh x) m = execImulh x m := rfl
@[simp] theorem exec_imad (x : Body) (m : State) :
    exec (.imad x) m = execImad x m := rfl
@[simp] theorem exec_imin (x : Body) (m : State) :
    exec (.imin x) m = execImin x m := rfl
@[simp] theorem exec_imax (x : Body) (m : State) :
    exec (.imax x) m = execImax x m := rfl
@[simp] theorem exec_iabs (x : Body) (m : State) :
    exec (.iabs x) m = execIabs x m := rfl
@[simp] theorem exec_iclamp (x : Body) (m : State) :
    exec (.iclamp x) m = execIclamp x m := rfl
@[simp] theorem exec_and (x : Body) (m : State) :
    exec (.and x) m = execAnd x m := rfl
@[simp] theorem exec_or (x : Body) (m : State) :
    exec (.or x) m = execOr x m := rfl
@[simp] theorem exec_xor (x : Body) (m : State) :
    exec (.xor x) m = execXor x m := rfl
@[simp] theorem exec_andn (x : Body) (m : State) :
    exec (.andn x) m = execAndn x m := rfl
@[simp] theorem exec_shl (x : Body) (m : State) :
    exec (.shl x) m = execShl x m := rfl
@[simp] theorem exec_shr (x : Body) (m : State) :
    exec (.shr x) m = execShr x m := rfl
@[simp] theorem exec_sar (x : Body) (m : State) :
    exec (.sar x) m = execSar x m := rfl
@[simp] theorem exec_rot (x : Body) (m : State) :
    exec (.rot x) m = execRot x m := rfl
@[simp] theorem exec_bfx (x : Body) (m : State) :
    exec (.bfx x) m = execBfx x m := rfl
@[simp] theorem exec_bfi (x : Body) (m : State) :
    exec (.bfi x) m = execBfi x m := rfl
@[simp] theorem exec_popc (x : Body) (m : State) :
    exec (.popc x) m = execPopc x m := rfl
@[simp] theorem exec_clz (x : Body) (m : State) :
    exec (.clz x) m = execClz x m := rfl
@[simp] theorem exec_brev (x : Body) (m : State) :
    exec (.brev x) m = execBrev x m := rfl
@[simp] theorem exec_mov (x : Body) (m : State) :
    exec (.mov x) m = execMov x m := rfl
@[simp] theorem exec_movw (x : Body) (m : State) :
    exec (.movw x) m = execMovw x m := rfl
@[simp] theorem exec_movq (x : Body) (m : State) :
    exec (.movq x) m = execMovq x m := rfl
@[simp] theorem exec_ldi (x : Body) (m : State) :
    exec (.ldi x) m = execLdi x m := rfl
@[simp] theorem exec_lda (x : Body) (m : State) :
    exec (.lda x) m = execLda x m := rfl
@[simp] theorem exec_aadd (x : Body) (m : State) :
    exec (.aadd x) m = execAadd x m := rfl
@[simp] theorem exec_amov (x : Body) (m : State) :
    exec (.amov x) m = execAmov x m := rfl
@[simp] theorem exec_pset (x : Body) (m : State) :
    exec (.pset x) m = execPset x m := rfl
@[simp] theorem exec_plog (x : Body) (m : State) :
    exec (.plog x) m = execPlog x m := rfl
@[simp] theorem exec_pmovPv (x : Body) (m : State) :
    exec (.pmovPv x) m = execPmovPv x m := rfl
@[simp] theorem exec_pmovVp (x : Body) (m : State) :
    exec (.pmovVp x) m = execPmovVp x m := rfl
@[simp] theorem exec_pmovSave (x : Body) (m : State) :
    exec (.pmovSave x) m = execPmovSave x m := rfl
@[simp] theorem exec_pmovLoad (x : Body) (m : State) :
    exec (.pmovLoad x) m = execPmovLoad x m := rfl
@[simp] theorem exec_sel (x : Body) (m : State) :
    exec (.sel x) m = execSel x m := rfl
@[simp] theorem exec_prisel (x : Body) (m : State) :
    exec (.prisel x) m = execPrisel x m := rfl
@[simp] theorem exec_xlXor (x : Body) (m : State) :
    exec (.xlXor x) m = execXlXor x m := rfl
@[simp] theorem exec_xlUp (x : Body) (m : State) :
    exec (.xlUp x) m = execXlUp x m := rfl
@[simp] theorem exec_xlDown (x : Body) (m : State) :
    exec (.xlDown x) m = execXlDown x m := rfl
@[simp] theorem exec_xlIdx (x : Body) (m : State) :
    exec (.xlIdx x) m = execXlIdx x m := rfl
@[simp] theorem exec_qxH (x : Body) (m : State) :
    exec (.qxH x) m = execQxH x m := rfl
@[simp] theorem exec_qxV (x : Body) (m : State) :
    exec (.qxV x) m = execQxV x m := rfl
@[simp] theorem exec_qxD (x : Body) (m : State) :
    exec (.qxD x) m = execQxD x m := rfl
@[simp] theorem exec_rstep (x : Body) (m : State) :
    exec (.rstep x) m = execRstep x m := rfl
@[simp] theorem exec_red (x : Body) (m : State) :
    exec (.red x) m = execRed x m := rfl
@[simp] theorem exec_scan (x : Body) (m : State) :
    exec (.scan x) m = execScan x m := rfl
@[simp] theorem exec_srd (x : Body) (m : State) :
    exec (.srd x) m = execSrd x m := rfl
@[simp] theorem exec_swr (x : Body) (m : State) :
    exec (.swr x) m = execSwr x m := rfl
@[simp] theorem exec_fadd (x : Body) (m : State) :
    exec (.fadd x) m = execFadd x m := rfl
@[simp] theorem exec_fsub (x : Body) (m : State) :
    exec (.fsub x) m = execFsub x m := rfl
@[simp] theorem exec_fmul (x : Body) (m : State) :
    exec (.fmul x) m = execFmul x m := rfl
@[simp] theorem exec_ffma (x : Body) (m : State) :
    exec (.ffma x) m = execFfma x m := rfl
@[simp] theorem exec_fmin (x : Body) (m : State) :
    exec (.fmin x) m = execFmin x m := rfl
@[simp] theorem exec_fmax (x : Body) (m : State) :
    exec (.fmax x) m = execFmax x m := rfl
@[simp] theorem exec_fminProp (x : Body) (m : State) :
    exec (.fminProp x) m = execFminProp x m := rfl
@[simp] theorem exec_fmaxProp (x : Body) (m : State) :
    exec (.fmaxProp x) m = execFmaxProp x m := rfl
@[simp] theorem exec_fcmp (x : Body) (m : State) :
    exec (.fcmp x) m = execFcmp x m := rfl
@[simp] theorem exec_fclass (x : Body) (m : State) :
    exec (.fclass x) m = execFclass x m := rfl
@[simp] theorem exec_frnd (x : Body) (m : State) :
    exec (.frnd x) m = execFrnd x m := rfl
@[simp] theorem exec_fscale (x : Body) (m : State) :
    exec (.fscale x) m = execFscale x m := rfl
@[simp] theorem exec_hadd2 (x : Body) (m : State) :
    exec (.hadd2 x) m = execHadd2 x m := rfl
@[simp] theorem exec_hmul2 (x : Body) (m : State) :
    exec (.hmul2 x) m = execHmul2 x m := rfl
@[simp] theorem exec_hfma2 (x : Body) (m : State) :
    exec (.hfma2 x) m = execHfma2 x m := rfl
@[simp] theorem exec_dot4 (x : Body) (m : State) :
    exec (.dot4 x) m = execDot4 x m := rfl
@[simp] theorem exec_idot4 (x : Body) (m : State) :
    exec (.idot4 x) m = execIdot4 x m := rfl
@[simp] theorem exec_cvt (x : Body) (m : State) :
    exec (.cvt x) m = execCvt x m := rfl
@[simp] theorem exec_cvts (x : Body) (m : State) :
    exec (.cvts x) m = execCvts x m := rfl
@[simp] theorem exec_pack (x : Body) (m : State) :
    exec (.pack x) m = execPack x m := rfl
@[simp] theorem exec_unpk (x : Body) (m : State) :
    exec (.unpk x) m = execUnpk x m := rfl
@[simp] theorem exec_bscale (x : Body) (m : State) :
    exec (.bscale x) m = execBscale x m := rfl
@[simp] theorem exec_qnt (x : Body) (m : State) :
    exec (.qnt x) m = execQnt x m := rfl
@[simp] theorem exec_dqnt (x : Body) (m : State) :
    exec (.dqnt x) m = execDqnt x m := rfl
@[simp] theorem exec_rcp (x : Body) (m : State) :
    exec (.rcp x) m = execRcp x m := rfl
@[simp] theorem exec_rsq (x : Body) (m : State) :
    exec (.rsq x) m = execRsq x m := rfl
@[simp] theorem exec_sqrt (x : Body) (m : State) :
    exec (.sqrt x) m = execSqrt x m := rfl
@[simp] theorem exec_exp2 (x : Body) (m : State) :
    exec (.exp2 x) m = execExp2 x m := rfl
@[simp] theorem exec_log2 (x : Body) (m : State) :
    exec (.log2 x) m = execLog2 x m := rfl
@[simp] theorem exec_sin (x : Body) (m : State) :
    exec (.sin x) m = execSin x m := rfl
@[simp] theorem exec_cos (x : Body) (m : State) :
    exec (.cos x) m = execCos x m := rfl
@[simp] theorem exec_tanh (x : Body) (m : State) :
    exec (.tanh x) m = execTanh x m := rfl
@[simp] theorem exec_wupd (x : Body) (m : State) :
    exec (.wupd x) m = execWupd x m := rfl
@[simp] theorem exec_wmrg (x : Body) (m : State) :
    exec (.wmrg x) m = execWmrg x m := rfl
@[simp] theorem exec_wfin (x : Body) (m : State) :
    exec (.wfin x) m = execWfin x m := rfl
@[simp] theorem exec_rng (x : Body) (m : State) :
    exec (.rng x) m = execRng x m := rfl
@[simp] theorem exec_ld (x : Body) (m : State) :
    exec (.ld x) m = execLd x m := rfl
@[simp] theorem exec_ldTrk (x : Body) (m : State) :
    exec (.ldTrk x) m = execLdTrk x m := rfl
@[simp] theorem exec_lds (x : Body) (m : State) :
    exec (.lds x) m = execLds x m := rfl
@[simp] theorem exec_ldt (x : Body) (m : State) :
    exec (.ldt x) m = execLdt x m := rfl
@[simp] theorem exec_pref (x : Body) (m : State) :
    exec (.pref x) m = execPref x m := rfl
@[simp] theorem exec_st (x : Body) (m : State) :
    exec (.st x) m = execSt x m := rfl
@[simp] theorem exec_sts (x : Body) (m : State) :
    exec (.sts x) m = execSts x m := rfl
@[simp] theorem exec_commitBlk (x : Body) (m : State) :
    exec (.commitBlk x) m = execCommitBlk x m := rfl
@[simp] theorem exec_commitGang (x : Body) (m : State) :
    exec (.commitGang x) m = execCommitGang x m := rfl
@[simp] theorem exec_commitDev (x : Body) (m : State) :
    exec (.commitDev x) m = execCommitDev x m := rfl
@[simp] theorem exec_commitSys (x : Body) (m : State) :
    exec (.commitSys x) m = execCommitSys x m := rfl
@[simp] theorem exec_commitChkBlk (x : Body) (m : State) :
    exec (.commitChkBlk x) m = execCommitChkBlk x m := rfl
@[simp] theorem exec_commitChkGangDev (x : Body) (m : State) :
    exec (.commitChkGangDev x) m = execCommitChkGangDev x m := rfl
@[simp] theorem exec_commitChkSys (x : Body) (m : State) :
    exec (.commitChkSys x) m = execCommitChkSys x m := rfl
@[simp] theorem exec_abortWave (x : Body) (m : State) :
    exec (.abortWave x) m = execAbortWave x m := rfl
@[simp] theorem exec_abortBlk (x : Body) (m : State) :
    exec (.abortBlk x) m = execAbortBlk x m := rfl
@[simp] theorem exec_abortGang (x : Body) (m : State) :
    exec (.abortGang x) m = execAbortGang x m := rfl
@[simp] theorem exec_fence (x : Body) (m : State) :
    exec (.fence x) m = execFence x m := rfl
@[simp] theorem exec_atomAdd (x : Body) (m : State) :
    exec (.atomAdd x) m = execAtomAdd x m := rfl
@[simp] theorem exec_atomFadd (x : Body) (m : State) :
    exec (.atomFadd x) m = execAtomFadd x m := rfl
@[simp] theorem exec_atomMin (x : Body) (m : State) :
    exec (.atomMin x) m = execAtomMin x m := rfl
@[simp] theorem exec_atomMax (x : Body) (m : State) :
    exec (.atomMax x) m = execAtomMax x m := rfl
@[simp] theorem exec_atomAnd (x : Body) (m : State) :
    exec (.atomAnd x) m = execAtomAnd x m := rfl
@[simp] theorem exec_atomOr (x : Body) (m : State) :
    exec (.atomOr x) m = execAtomOr x m := rfl
@[simp] theorem exec_atomXor (x : Body) (m : State) :
    exec (.atomXor x) m = execAtomXor x m := rfl
@[simp] theorem exec_atomXchg (x : Body) (m : State) :
    exec (.atomXchg x) m = execAtomXchg x m := rfl
@[simp] theorem exec_atomCas (x : Body) (m : State) :
    exec (.atomCas x) m = execAtomCas x m := rfl
@[simp] theorem exec_atomIncw (x : Body) (m : State) :
    exec (.atomIncw x) m = execAtomIncw x m := rfl
@[simp] theorem exec_atomdAdd (x : Body) (m : State) :
    exec (.atomdAdd x) m = execAtomdAdd x m := rfl
@[simp] theorem exec_atomdFadd (x : Body) (m : State) :
    exec (.atomdFadd x) m = execAtomdFadd x m := rfl
@[simp] theorem exec_atomdMin (x : Body) (m : State) :
    exec (.atomdMin x) m = execAtomdMin x m := rfl
@[simp] theorem exec_atomdMax (x : Body) (m : State) :
    exec (.atomdMax x) m = execAtomdMax x m := rfl
@[simp] theorem exec_atomdAnd (x : Body) (m : State) :
    exec (.atomdAnd x) m = execAtomdAnd x m := rfl
@[simp] theorem exec_atomdOr (x : Body) (m : State) :
    exec (.atomdOr x) m = execAtomdOr x m := rfl
@[simp] theorem exec_atomdXor (x : Body) (m : State) :
    exec (.atomdXor x) m = execAtomdXor x m := rfl
@[simp] theorem exec_atomdXchg (x : Body) (m : State) :
    exec (.atomdXchg x) m = execAtomdXchg x m := rfl
@[simp] theorem exec_atomdCas (x : Body) (m : State) :
    exec (.atomdCas x) m = execAtomdCas x m := rfl
@[simp] theorem exec_atomdIncw (x : Body) (m : State) :
    exec (.atomdIncw x) m = execAtomdIncw x m := rfl
@[simp] theorem exec_redsAdd (x : Body) (m : State) :
    exec (.redsAdd x) m = execRedsAdd x m := rfl
@[simp] theorem exec_redsFadd (x : Body) (m : State) :
    exec (.redsFadd x) m = execRedsFadd x m := rfl
@[simp] theorem exec_redsMin (x : Body) (m : State) :
    exec (.redsMin x) m = execRedsMin x m := rfl
@[simp] theorem exec_redsMax (x : Body) (m : State) :
    exec (.redsMax x) m = execRedsMax x m := rfl
@[simp] theorem exec_redsAnd (x : Body) (m : State) :
    exec (.redsAnd x) m = execRedsAnd x m := rfl
@[simp] theorem exec_redsOr (x : Body) (m : State) :
    exec (.redsOr x) m = execRedsOr x m := rfl
@[simp] theorem exec_redsXor (x : Body) (m : State) :
    exec (.redsXor x) m = execRedsXor x m := rfl
@[simp] theorem exec_dphaseOpen (x : Body) (m : State) :
    exec (.dphaseOpen x) m = execDphaseOpen x m := rfl
@[simp] theorem exec_dphaseClose (x : Body) (m : State) :
    exec (.dphaseClose x) m = execDphaseClose x m := rfl
@[simp] theorem exec_wcnt (x : Body) (m : State) :
    exec (.wcnt x) m = execWcnt x m := rfl
@[simp] theorem exec_cpyw (x : Body) (m : State) :
    exec (.cpyw x) m = execCpyw x m := rfl
@[simp] theorem exec_bara (x : Body) (m : State) :
    exec (.bara x) m = execBara x m := rfl
@[simp] theorem exec_barw (x : Body) (m : State) :
    exec (.barw x) m = execBarw x m := rfl
@[simp] theorem exec_bars (x : Body) (m : State) :
    exec (.bars x) m = execBars x m := rfl
@[simp] theorem exec_gbar (x : Body) (m : State) :
    exec (.gbar x) m = execGbar x m := rfl
@[simp] theorem exec_xbar (x : Body) (m : State) :
    exec (.xbar x) m = execXbar x m := rfl
@[simp] theorem exec_cpy (x : Body) (m : State) :
    exec (.cpy x) m = execCpy x m := rfl
@[simp] theorem exec_cpyq (x : Body) (m : State) :
    exec (.cpyq x) m = execCpyq x m := rfl
@[simp] theorem exec_vsred (x : Body) (m : State) :
    exec (.vsred x) m = execVsred x m := rfl
@[simp] theorem exec_vsrd (x : Body) (m : State) :
    exec (.vsrd x) m = execVsrd x m := rfl
@[simp] theorem exec_vscl (x : Body) (m : State) :
    exec (.vscl x) m = execVscl x m := rfl
@[simp] theorem exec_mres (x : Body) (m : State) :
    exec (.mres x) m = execMres x m := rfl
@[simp] theorem exec_mrel (x : Body) (m : State) :
    exec (.mrel x) m = execMrel x m := rfl
@[simp] theorem exec_mld (x : Body) (m : State) :
    exec (.mld x) m = execMld x m := rfl
@[simp] theorem exec_mma (x : Body) (m : State) :
    exec (.mma x) m = execMma x m := rfl
@[simp] theorem exec_mza (x : Body) (m : State) :
    exec (.mza x) m = execMza x m := rfl
@[simp] theorem exec_mpred (x : Body) (m : State) :
    exec (.mpred x) m = execMpred x m := rfl
@[simp] theorem exec_msig (x : Body) (m : State) :
    exec (.msig x) m = execMsig x m := rfl
@[simp] theorem exec_mwait (x : Body) (m : State) :
    exec (.mwait x) m = execMwait x m := rfl
@[simp] theorem exec_mloopDec (x : Body) (m : State) :
    exec (.mloopDec x) m = execMloopDec x m := rfl
@[simp] theorem exec_mloopJmp (x : Body) (m : State) :
    exec (.mloopJmp x) m = execMloopJmp x m := rfl
@[simp] theorem exec_mloopSet (x : Body) (m : State) :
    exec (.mloopSet x) m = execMloopSet x m := rfl
@[simp] theorem exec_mloopAdd (x : Body) (m : State) :
    exec (.mloopAdd x) m = execMloopAdd x m := rfl
@[simp] theorem exec_mst (x : Body) (m : State) :
    exec (.mst x) m = execMst x m := rfl
@[simp] theorem exec_mend (x : Body) (m : State) :
    exec (.mend x) m = execMend x m := rfl
@[simp] theorem exec_obst (x : Body) (m : State) :
    exec (.obst x) m = execObst x m := rfl
@[simp] theorem exec_acrd (x : Body) (m : State) :
    exec (.acrd x) m = execAcrd x m := rfl
@[simp] theorem exec_trap (x : Body) (m : State) :
    exec (.trap x) m = execTrap x m := rfl
@[simp] theorem exec_rtt (x : Body) (m : State) :
    exec (.rtt x) m = execRtt x m := rfl
@[simp] theorem exec_halt (x : Body) (m : State) :
    exec (.halt x) m = execHalt x m := rfl
@[simp] theorem exec_icinv (x : Body) (m : State) :
    exec (.icinv x) m = execIcinv x m := rfl
@[simp] theorem exec_sleept (x : Body) (m : State) :
    exec (.sleept x) m = execSleept x m := rfl
@[simp] theorem exec_wpset (x : Body) (m : State) :
    exec (.wpset x) m = execWpset x m := rfl
@[simp] theorem exec_wpclr (x : Body) (m : State) :
    exec (.wpclr x) m = execWpclr x m := rfl
@[simp] theorem exec_wprd (x : Body) (m : State) :
    exec (.wprd x) m = execWprd x m := rfl
@[simp] theorem exec_hrd (x : Body) (m : State) :
    exec (.hrd x) m = execHrd x m := rfl
@[simp] theorem exec_hwr (x : Body) (m : State) :
    exec (.hwr x) m = execHwr x m := rfl
@[simp] theorem exec_hstep (x : Body) (m : State) :
    exec (.hstep x) m = execHstep x m := rfl
@[simp] theorem exec_hrun (x : Body) (m : State) :
    exec (.hrun x) m = execHrun x m := rfl
@[simp] theorem exec_hstat (x : Body) (m : State) :
    exec (.hstat x) m = execHstat x m := rfl
@[simp] theorem exec_dbmw (x : Body) (m : State) :
    exec (.dbmw x) m = execDbmw x m := rfl
@[simp] theorem exec_dbmr (x : Body) (m : State) :
    exec (.dbmr x) m = execDbmr x m := rfl
@[simp] theorem exec_rmark (x : Body) (m : State) :
    exec (.rmark x) m = execRmark x m := rfl
@[simp] theorem exec_seamWaitEnd (w sl : Nat) (m : State) :
    exec (.seamWaitEnd w sl) m = execSeamWaitEnd w sl m := rfl
@[simp] theorem exec_seatGrant (w seat : Nat) (m : State) :
    exec (.seatGrant w seat) m = execSeatGrant w seat m := rfl
@[simp] theorem exec_sleeptExpiry (w sl : Nat) (m : State) :
    exec (.sleeptExpiry w sl) m = execSleeptExpiry w sl m := rfl
@[simp] theorem exec_hstepWaitTimeout (w sl : Nat) (m : State) :
    exec (.hstepWaitTimeout w sl) m = execHstepWaitTimeout w sl m := rfl
@[simp] theorem exec_drowsyBankWake (bench bank : Nat) (m : State) :
    exec (.drowsyBankWake bench bank) m = execDrowsyBankWake bench bank m := rfl
@[simp] theorem exec_sysStageReceive (src cid : Nat) (share : List (Nat × Byte)) (m : State) :
    exec (.sysStageReceive src cid share) m = execSysStageReceive src cid share m := rfl
@[simp] theorem exec_sysApplyReceive (src cid : Nat) (m : State) :
    exec (.sysApplyReceive src cid) m = execSysApplyReceive src cid m := rfl
@[simp] theorem exec_remoteCarryShare (src : Nat) (share : List (Nat × Byte)) (m : State) :
    exec (.remoteCarryShare src share) m = execRemoteCarryShare src share m := rfl
@[simp] theorem exec_stewardAccess (core ctx : Nat) (x : BusAccess) (m : State) :
    exec (.stewardAccess core ctx x) m = execStewardAccess core ctx x m := rfl
@[simp] theorem exec_hostPostedWrite (bar off : Nat) (bytes : List Byte) (m : State) :
    exec (.hostPostedWrite bar off bytes) m = execHostPostedWrite bar off bytes m := rfl
@[simp] theorem exec_hostRead (bar off size : Nat) (m : State) :
    exec (.hostRead bar off size) m = execHostRead bar off size m := rfl
@[simp] theorem exec_wakeStore (q ctx : Nat) (v : Word) (m : State) :
    exec (.wakeStore q ctx v) m = execWakeStore q ctx v m := rfl
@[simp] theorem exec_gangPlace (g : Nat) (pl : Placement) (m : State) :
    exec (.gangPlace g pl) m = execGangPlace g pl m := rfl
@[simp] theorem exec_gangRestore (g : Nat) (pl : Placement) (m : State) :
    exec (.gangRestore g pl) m = execGangRestore g pl m := rfl
@[simp] theorem exec_castling (g : Nat) (pl : Placement) (m : State) :
    exec (.castling g pl) m = execCastling g pl m := rfl
@[simp] theorem exec_pageoutComplete (q : Nat) (ok : Bool) (m : State) :
    exec (.pageoutComplete q ok) m = execPageoutComplete q ok m := rfl
@[simp] theorem exec_pageinComplete (q : Nat) (ok : Bool) (m : State) :
    exec (.pageinComplete q ok) m = execPageinComplete q ok m := rfl
@[simp] theorem exec_engineStop (ctx : Nat) (e : Engine) (m : State) :
    exec (.engineStop ctx e) m = execEngineStop ctx e m := rfl
@[simp] theorem exec_eccUncorrectable (ctx addr : Nat) (m : State) :
    exec (.eccUncorrectable ctx addr) m = execEccUncorrectable ctx addr m := rfl
@[simp] theorem exec_sensorSample (die sensor : Nat) (reading : BitVec 16) (m : State) :
    exec (.sensorSample die sensor reading) m = execSensorSample die sensor reading m := rfl
@[simp] theorem exec_hardTrip (die sensor : Nat) (m : State) :
    exec (.hardTrip die sensor) m = execHardTrip die sensor m := rfl
@[simp] theorem exec_lrailOff (c : Nat) (mv : Nat) (m : State) :
    exec (.lrailOff c mv) m = execLrailOff c mv m := rfl
@[simp] theorem exec_lrailMv (c : Nat) (mv : Nat) (m : State) :
    exec (.lrailMv c mv) m = execLrailMv c mv m := rfl
@[simp] theorem exec_portTrainingDone (p lanes peer : Nat) (m : State) :
    exec (.portTrainingDone p lanes peer) m = execPortTrainingDone p lanes peer m := rfl
@[simp] theorem exec_tickSync (t : DWord) (m : State) :
    exec (.tickSync t) m = execTickSync t m := rfl
@[simp] theorem exec_stopctlArm (v : Bool) (m : State) :
    exec (.stopctlArm v) m = execStopctlArm v m := rfl
@[simp] theorem exec_gateAdmit (ctx strm : Nat) (m : State) :
    exec (.gateAdmit ctx strm) m = execGateAdmit ctx strm m := rfl
@[simp] theorem exec_replayIssuerTimeout (ctx strm : Nat) (m : State) :
    exec (.replayIssuerTimeout ctx strm) m = execReplayIssuerTimeout ctx strm m := rfl
@[simp] theorem exec_chunkCloseTimeout (ctx strm : Nat) (m : State) :
    exec (.chunkCloseTimeout ctx strm) m = execChunkCloseTimeout ctx strm m := rfl
@[simp] theorem exec_stewardBringup (ok : Bool) (m : State) :
    exec (.stewardBringup ok) m = execStewardBringup ok m := rfl
@[simp] theorem exec_registerWrite (r : RegAddr) (v : DWord) (m : State) :
    exec (.registerWrite r v) m = execRegisterWrite r v m := rfl
@[simp] theorem exec_apauxRequest (src : Nat) (x : ApauxReq) (m : State) :
    exec (.apauxRequest src x) m = execApauxRequest src x m := rfl
@[simp] theorem exec_illegalWordIssue (w : BitVec 128) (m : State) :
    exec (.illegalWordIssue w) m = execIllegalWordIssue w m := rfl
@[simp] theorem exec_producerDataArrival (m : State) :
    exec (.producerDataArrival) m = execProducerDataArrival m := rfl
@[simp] theorem exec_unseat (m : State) :
    exec (.unseat) m = execUnseat m := rfl
@[simp] theorem exec_forcedUnseat (m : State) :
    exec (.forcedUnseat) m = execForcedUnseat m := rfl
@[simp] theorem exec_parklimitExpiry (m : State) :
    exec (.parklimitExpiry) m = execParklimitExpiry m := rfl
@[simp] theorem exec_courierLine (m : State) :
    exec (.courierLine) m = execCourierLine m := rfl
@[simp] theorem exec_carriedArrival (m : State) :
    exec (.carriedArrival) m = execCarriedArrival m := rfl
@[simp] theorem exec_porterServe (m : State) :
    exec (.porterServe) m = execPorterServe m := rfl
@[simp] theorem exec_matrixComplete (m : State) :
    exec (.matrixComplete) m = execMatrixComplete m := rfl
@[simp] theorem exec_acrdDelivery (m : State) :
    exec (.acrdDelivery) m = execAcrdDelivery m := rfl
@[simp] theorem exec_sysStageAck (m : State) :
    exec (.sysStageAck) m = execSysStageAck m := rfl
@[simp] theorem exec_sysApplyAck (m : State) :
    exec (.sysApplyAck) m = execSysApplyAck m := rfl
@[simp] theorem exec_innkeeperSweepGroup (m : State) :
    exec (.innkeeperSweepGroup) m = execInnkeeperSweepGroup m := rfl
@[simp] theorem exec_queryallPacket (m : State) :
    exec (.queryallPacket) m = execQueryallPacket m := rfl
@[simp] theorem exec_signal (m : State) :
    exec (.signal) m = execSignal m := rfl
@[simp] theorem exec_waitval (m : State) :
    exec (.waitval) m = execWaitval m := rfl
@[simp] theorem exec_waitvalRecheck (m : State) :
    exec (.waitvalRecheck) m = execWaitvalRecheck m := rfl
@[simp] theorem exec_launchPacket (m : State) :
    exec (.launchPacket) m = execLaunchPacket m := rfl
@[simp] theorem exec_nopPacket (m : State) :
    exec (.nopPacket) m = execNopPacket m := rfl
@[simp] theorem exec_waveSave (m : State) :
    exec (.waveSave) m = execWaveSave m := rfl
@[simp] theorem exec_blockSave (m : State) :
    exec (.blockSave) m = execBlockSave m := rfl
@[simp] theorem exec_gangSaveComplete (m : State) :
    exec (.gangSaveComplete) m = execGangSaveComplete m := rfl
@[simp] theorem exec_evictionWithdraw (m : State) :
    exec (.evictionWithdraw) m = execEvictionWithdraw m := rfl
@[simp] theorem exec_kernelComplete (m : State) :
    exec (.kernelComplete) m = execKernelComplete m := rfl
@[simp] theorem exec_xbarDieArrival (m : State) :
    exec (.xbarDieArrival) m = execXbarDieArrival m := rfl
@[simp] theorem exec_xbarIodieComplete (m : State) :
    exec (.xbarIodieComplete) m = execXbarIodieComplete m := rfl
@[simp] theorem exec_barrierTreeRelease (m : State) :
    exec (.barrierTreeRelease) m = execBarrierTreeRelease m := rfl
@[simp] theorem exec_faultRingCopy (m : State) :
    exec (.faultRingCopy) m = execFaultRingCopy m := rfl
@[simp] theorem exec_faultRingPoll (m : State) :
    exec (.faultRingPoll) m = execFaultRingPoll m := rfl
@[simp] theorem exec_qidleExpiry (m : State) :
    exec (.qidleExpiry) m = execQidleExpiry m := rfl
@[simp] theorem exec_qpageageExpiry (m : State) :
    exec (.qpageageExpiry) m = execQpageageExpiry m := rfl
@[simp] theorem exec_roomGrant (m : State) :
    exec (.roomGrant) m = execRoomGrant m := rfl
@[simp] theorem exec_drainComplete (m : State) :
    exec (.drainComplete) m = execDrainComplete m := rfl
@[simp] theorem exec_unmapComplete (m : State) :
    exec (.unmapComplete) m = execUnmapComplete m := rfl
@[simp] theorem exec_keySlotFault (m : State) :
    exec (.keySlotFault) m = execKeySlotFault m := rfl
@[simp] theorem exec_emergencyRailRemoval (m : State) :
    exec (.emergencyRailRemoval) m = execEmergencyRailRemoval m := rfl
@[simp] theorem exec_railsRestore (m : State) :
    exec (.railsRestore) m = execRailsRestore m := rfl
@[simp] theorem exec_railTargetPass (m : State) :
    exec (.railTargetPass) m = execRailTargetPass m := rfl
@[simp] theorem exec_clqreqSet (m : State) :
    exec (.clqreqSet) m = execClqreqSet m := rfl
@[simp] theorem exec_clqreqClear (m : State) :
    exec (.clqreqClear) m = execClqreqClear m := rfl
@[simp] theorem exec_quiesceComplete (m : State) :
    exec (.quiesceComplete) m = execQuiesceComplete m := rfl
@[simp] theorem exec_retsaveGo (m : State) :
    exec (.retsaveGo) m = execRetsaveGo m := rfl
@[simp] theorem exec_retsaveComplete (m : State) :
    exec (.retsaveComplete) m = execRetsaveComplete m := rfl
@[simp] theorem exec_clkgateSet (m : State) :
    exec (.clkgateSet) m = execClkgateSet m := rfl
@[simp] theorem exec_clkgateClear (m : State) :
    exec (.clkgateClear) m = execClkgateClear m := rfl
@[simp] theorem exec_railOffReached (m : State) :
    exec (.railOffReached) m = execRailOffReached m := rfl
@[simp] theorem exec_clwakeWake (m : State) :
    exec (.clwakeWake) m = execClwakeWake m := rfl
@[simp] theorem exec_railSettled (m : State) :
    exec (.railSettled) m = execRailSettled m := rfl
@[simp] theorem exec_retloadComplete (m : State) :
    exec (.retloadComplete) m = execRetloadComplete m := rfl
@[simp] theorem exec_porten (m : State) :
    exec (.porten) m = execPorten m := rfl
@[simp] theorem exec_portfence (m : State) :
    exec (.portfence) m = execPortfence m := rfl
@[simp] theorem exec_portTrainingTimeout (m : State) :
    exec (.portTrainingTimeout) m = execPortTrainingTimeout m := rfl
@[simp] theorem exec_portLaneFail (m : State) :
    exec (.portLaneFail) m = execPortLaneFail m := rfl
@[simp] theorem exec_portIdleTimeout (m : State) :
    exec (.portIdleTimeout) m = execPortIdleTimeout m := rfl
@[simp] theorem exec_portReplayLimit (m : State) :
    exec (.portReplayLimit) m = execPortReplayLimit m := rfl
@[simp] theorem exec_flitCrcError (m : State) :
    exec (.flitCrcError) m = execFlitCrcError m := rfl
@[simp] theorem exec_linkwaitExpiry (m : State) :
    exec (.linkwaitExpiry) m = execLinkwaitExpiry m := rfl
@[simp] theorem exec_stopTickReached (m : State) :
    exec (.stopTickReached) m = execStopTickReached m := rfl
@[simp] theorem exec_stopctlResume (m : State) :
    exec (.stopctlResume) m = execStopctlResume m := rfl
@[simp] theorem exec_cntsnap (m : State) :
    exec (.cntsnap) m = execCntsnap m := rfl
@[simp] theorem exec_cntclr (m : State) :
    exec (.cntclr) m = execCntclr m := rfl
@[simp] theorem exec_moduleReset (m : State) :
    exec (.moduleReset) m = execModuleReset m := rfl
@[simp] theorem exec_innkeeperVerify (m : State) :
    exec (.innkeeperVerify) m = execInnkeeperVerify m := rfl
@[simp] theorem exec_computeRailRaise (m : State) :
    exec (.computeRailRaise) m = execComputeRailRaise m := rfl
@[simp] theorem exec_mgmtReady (m : State) :
    exec (.mgmtReady) m = execMgmtReady m := rfl
@[simp] theorem exec_status (m : State) :
    exec (.status) m = execStatus m := rfl
@[simp] theorem exec_flashwrite (m : State) :
    exec (.flashwrite) m = execFlashwrite m := rfl
@[simp] theorem exec_attest (m : State) :
    exec (.attest) m = execAttest m := rfl
@[simp] theorem exec_ctxcreate (m : State) :
    exec (.ctxcreate) m = execCtxcreate m := rfl
@[simp] theorem exec_ctxreset (m : State) :
    exec (.ctxreset) m = execCtxreset m := rfl
@[simp] theorem exec_ctxdestroy (m : State) :
    exec (.ctxdestroy) m = execCtxdestroy m := rfl
@[simp] theorem exec_ctxhalt (m : State) :
    exec (.ctxhalt) m = execCtxhalt m := rfl
@[simp] theorem exec_ctxrelease (m : State) :
    exec (.ctxrelease) m = execCtxrelease m := rfl
@[simp] theorem exec_ctxresume (m : State) :
    exec (.ctxresume) m = execCtxresume m := rfl
@[simp] theorem exec_stopread (m : State) :
    exec (.stopread) m = execStopread m := rfl
@[simp] theorem exec_evread (m : State) :
    exec (.evread) m = execEvread m := rfl
@[simp] theorem exec_partassign (m : State) :
    exec (.partassign) m = execPartassign m := rfl
@[simp] theorem exec_partadd (m : State) :
    exec (.partadd) m = execPartadd m := rfl
@[simp] theorem exec_partremove (m : State) :
    exec (.partremove) m = execPartremove m := rfl
@[simp] theorem exec_partrelease (m : State) :
    exec (.partrelease) m = execPartrelease m := rfl
@[simp] theorem exec_setroot (m : State) :
    exec (.setroot) m = execSetroot m := rfl
@[simp] theorem exec_inval (m : State) :
    exec (.inval) m = execInval m := rfl
@[simp] theorem exec_replay (m : State) :
    exec (.replay) m = execReplay m := rfl
@[simp] theorem exec_deny (m : State) :
    exec (.deny) m = execDeny m := rfl
@[simp] theorem exec_traceset (m : State) :
    exec (.traceset) m = execTraceset m := rfl
@[simp] theorem exec_recset (m : State) :
    exec (.recset) m = execRecset m := rfl
@[simp] theorem exec_createq (m : State) :
    exec (.createq) m = execCreateq m := rfl
@[simp] theorem exec_mapq (m : State) :
    exec (.mapq) m = execMapq m := rfl
@[simp] theorem exec_unmapq (m : State) :
    exec (.unmapq) m = execUnmapq m := rfl
@[simp] theorem exec_drainq (m : State) :
    exec (.drainq) m = execDrainq m := rfl
@[simp] theorem exec_resetq (m : State) :
    exec (.resetq) m = execResetq m := rfl
@[simp] theorem exec_destroyq (m : State) :
    exec (.destroyq) m = execDestroyq m := rfl
@[simp] theorem exec_queryallCmd (m : State) :
    exec (.queryallCmd) m = execQueryallCmd m := rfl
@[simp] theorem exec_clgate (m : State) :
    exec (.clgate) m = execClgate m := rfl
@[simp] theorem exec_clungate (m : State) :
    exec (.clungate) m = execClungate m := rfl
@[simp] theorem exec_benchClock (m : State) :
    exec (.benchClock) m = execBenchClock m := rfl
@[simp] theorem exec_railSlew (m : State) :
    exec (.railSlew) m = execRailSlew m := rfl
@[simp] theorem exec_linkstRead (m : State) :
    exec (.linkstRead) m = execLinkstRead m := rfl
@[simp] theorem exec_unknownOpcodeCommand (m : State) :
    exec (.unknownOpcodeCommand) m = execUnknownOpcodeCommand m := rfl

end Sys2Proof.Laws
end

