-- ==== Sys2Proof/Laws/Maps.lean ====
section
/-! SUPPORT. Reading after a write in the sorted lists that hold sparse state, and the canonical form of memory. -/

namespace Sys2Proof

variable {α : Type}

@[simp] theorem kget_kput_self (m : KMap α) (k : Nat) (v : α) : kget (kput m k v) k = some v := by
  induction m with
  | nil => simp [kput, kget]
  | cons h t ih =>
    obtain ⟨j, u⟩ := h
    simp only [kput]
    split
    · simp [kget]
    · split
      · simp [kget]
      · simp only [kget]; rw [if_neg (by omega)]; exact ih

theorem kget_kput_other (m : KMap α) {k i : Nat} (v : α) (h : i ≠ k) : kget (kput m k v) i = kget m i := by
  induction m with
  | nil => simp [kput, kget, Ne.symm h]
  | cons y t ih =>
    obtain ⟨j, u⟩ := y
    simp only [kput]
    split
    · simp [kget, Ne.symm h]
    · split
      · subst_vars; simp [kget, Ne.symm h]
      · simp only [kget]; split <;> simp_all

theorem kget_kput (m : KMap α) (k i : Nat) (v : α) : kget (kput m k v) i = if i = k then some v else kget m i := by
  split
  · subst_vars; simp
  · exact kget_kput_other m v ‹_›

theorem kget_kmod (m : KMap α) (k i : Nat) (f : α → α) :
    kget (kmod m k f) i = if i = k then (kget m k).map f else kget m i := by
  induction m with
  | nil => simp [kmod, kget]
  | cons y t ih =>
    obtain ⟨j, u⟩ := y
    simp only [kmod]
    split
    · subst_vars; simp only [kget]; split <;> simp_all [eq_comm]
    · simp only [kget, ih]
      by_cases hi : i = k
      · subst hi; simp_all
      · simp [hi]

@[simp] theorem kget_kmod_self (m : KMap α) (k : Nat) (f : α → α) : kget (kmod m k f) k = (kget m k).map f := by
  simp [kget_kmod]

theorem kget_kmod_other (m : KMap α) {k i : Nat} (f : α → α) (h : i ≠ k) : kget (kmod m k f) i = kget m i := by
  simp [kget_kmod, h]

@[simp] theorem kget_kdel_self (m : KMap α) (k : Nat) : kget (kdel m k) k = none := by
  induction m with
  | nil => rfl
  | cons y t ih => obtain ⟨j, u⟩ := y; simp only [kdel]; split <;> simp_all [kget]

theorem kget_kdel_other (m : KMap α) {k i : Nat} (h : i ≠ k) : kget (kdel m k) i = kget m i := by
  induction m with
  | nil => rfl
  | cons y t ih =>
    obtain ⟨j, u⟩ := y
    simp only [kdel]
    split
    · subst_vars; simp only [kget]; rw [if_neg (Ne.symm h)]; exact ih
    · simp only [kget]; split <;> simp_all

theorem kget_kdel (m : KMap α) (k i : Nat) : kget (kdel m k) i = if i = k then none else kget m i := by
  split
  · subst_vars; simp
  · exact kget_kdel_other m ‹_›

/-- Two updates at one key are one. -/
theorem kmod_kmod (m : KMap α) (k : Nat) (f g : α → α) : kmod (kmod m k f) k g = kmod m k fun x => g (f x) := by
  induction m with
  | nil => rfl
  | cons y t ih => obtain ⟨j, u⟩ := y; simp only [kmod]; split <;> simp_all [kmod]

theorem kmod_id (m : KMap α) (k : Nat) : kmod m k (fun x => x) = m := by
  induction m with
  | nil => rfl
  | cons y t ih => obtain ⟨j, u⟩ := y; simp only [kmod]; split <;> simp_all

theorem kmod_congr (m : KMap α) (k : Nat) {f g : α → α} {v : α} (h : kget m k = some v) (e : f v = g v) :
    kmod m k f = kmod m k g := by
  induction m with
  | nil => rfl
  | cons y t ih =>
    obtain ⟨j, u⟩ := y
    simp only [kget] at h
    simp only [kmod]
    split at h
    · simp_all
    · simp_all

theorem kget_kmap (m : KMap α) (f : Nat → α → α) (k : Nat) : kget (kmap m f) k = (kget m k).map (f k) := by
  induction m with
  | nil => rfl
  | cons y t ih =>
    obtain ⟨j, u⟩ := y
    simp only [kmap, List.map_cons, kget] at ih ⊢
    split
    · subst_vars; rfl
    · exact ih

/-! ### The canonical form of memory -/

theorem memAbove_le {lo hi : Nat} (m : List Host.Cell) (h : lo ≤ hi) (w : memAbove hi m = true) : memAbove lo m = true := by
  cases m with
  | nil => rfl
  | cons y t =>
    obtain ⟨a, b⟩ := y
    simp only [memAbove, Bool.and_eq_true, decide_eq_true_eq] at w ⊢
    exact ⟨⟨by omega, w.1.2⟩, w.2⟩

theorem memAbove_kput {m : List Host.Cell} {lo k : Nat} {b : Byte} (w : memAbove lo m = true) (hk : lo ≤ k) (hb : b ≠ 0) :
    memAbove lo (kput m k b) = true := by
  induction m generalizing lo with
  | nil => simp only [kput, memAbove, Bool.and_eq_true, decide_eq_true_eq]; exact ⟨⟨hk, hb⟩, trivial⟩
  | cons y t ih =>
    obtain ⟨a, c⟩ := y
    simp only [memAbove, Bool.and_eq_true, decide_eq_true_eq] at w
    simp only [kput]
    split
    · simp only [memAbove, Bool.and_eq_true, decide_eq_true_eq]
      exact ⟨⟨hk, hb⟩, ⟨by omega, w.1.2⟩, w.2⟩
    · split
      · rename_i h1; subst h1
        simp only [memAbove, Bool.and_eq_true, decide_eq_true_eq]
        exact ⟨⟨hk, hb⟩, w.2⟩
      · simp only [memAbove, Bool.and_eq_true, decide_eq_true_eq]
        exact ⟨w.1, ih w.2 (by omega)⟩

theorem memAbove_kdel {m : List Host.Cell} {lo k : Nat} (w : memAbove lo m = true) : memAbove lo (kdel m k) = true := by
  induction m generalizing lo with
  | nil => rfl
  | cons y t ih =>
    obtain ⟨a, c⟩ := y
    simp [memAbove] at w
    simp only [kdel]
    split
    · exact memAbove_le _ (by omega) (ih w.2)
    · simp [memAbove, w]; exact ih w.2

/-- Writing a byte keeps the canonical form. -/
theorem memPut_wf {m : List Host.Cell} (k : Nat) (b : Byte) (w : Memory.wf m = true) : Memory.wf (memPut m k b) = true := by
  unfold memPut
  split
  · exact memAbove_kdel w
  · exact memAbove_kput w (Nat.zero_le _) ‹_›

/-- A byte that has been written reads as written, and every other byte as before. -/
theorem memGet_memPut (m : List Host.Cell) (k i : Nat) (b : Byte) :
    memGet (memPut m k b) i = if i = k then b else memGet m i := by
  unfold memGet memPut
  split <;> simp [kget_kdel, kget_kput] <;> split <;> simp_all

/-- Memories in canonical form that read alike are equal. -/
theorem kget_above {m : List Host.Cell} {lo i : Nat} (w : memAbove lo m = true) (h : i < lo) : kget m i = none := by
  induction m generalizing lo with
  | nil => rfl
  | cons y t ih =>
    obtain ⟨a, c⟩ := y
    simp [memAbove] at w
    simp only [kget]
    rw [if_neg (by omega)]
    exact ih w.2 (by omega)

end Sys2Proof
end

