-- ==== Sys2Proof/Laws/State.lean ====
section
/-! SUPPORT. What each update of the state leaves alone: one lemma per field, true by rfl. -/

namespace Sys2Proof.Machine.State

@[simp] theorem putWave_tick (s : State) (w : Nat) (v : Wave) : (s.putWave w v).tick = s.tick := rfl
@[simp] theorem putWave_stage (s : State) (w : Nat) (v : Wave) : (s.putWave w v).stage = s.stage := rfl
@[simp] theorem putWave_recovery (s : State) (w : Nat) (v : Wave) : (s.putWave w v).recovery = s.recovery := rfl
@[simp] theorem putWave_cfg (s : State) (w : Nat) (v : Wave) : (s.putWave w v).cfg = s.cfg := rfl
@[simp] theorem putWave_flash (s : State) (w : Nat) (v : Wave) : (s.putWave w v).flash = s.flash := rfl
@[simp] theorem putWave_minver (s : State) (w : Nat) (v : Wave) : (s.putWave w v).minver = s.minver := rfl
@[simp] theorem putWave_booted (s : State) (w : Nat) (v : Wave) : (s.putWave w v).booted = s.booted := rfl
@[simp] theorem putWave_mem (s : State) (w : Nat) (v : Wave) : (s.putWave w v).mem = s.mem := rfl
@[simp] theorem putWave_memKey (s : State) (w : Nat) (v : Wave) : (s.putWave w v).memKey = s.memKey := rfl
@[simp] theorem putWave_keyGen (s : State) (w : Nat) (v : Wave) : (s.putWave w v).keyGen = s.keyGen := rfl
@[simp] theorem putWave_tlb (s : State) (w : Nat) (v : Wave) : (s.putWave w v).tlb = s.tlb := rfl
@[simp] theorem putWave_blocks (s : State) (w : Nat) (v : Wave) : (s.putWave w v).blocks = s.blocks := rfl
@[simp] theorem putWave_gangs (s : State) (w : Nat) (v : Wave) : (s.putWave w v).gangs = s.gangs := rfl
@[simp] theorem putWave_grids (s : State) (w : Nat) (v : Wave) : (s.putWave w v).grids = s.grids := rfl
@[simp] theorem putWave_ctxs (s : State) (w : Nat) (v : Wave) : (s.putWave w v).ctxs = s.ctxs := rfl
@[simp] theorem putWave_queues (s : State) (w : Nat) (v : Wave) : (s.putWave w v).queues = s.queues := rfl
@[simp] theorem putWave_rooms (s : State) (w : Nat) (v : Wave) : (s.putWave w v).rooms = s.rooms := rfl
@[simp] theorem putWave_clusters (s : State) (w : Nat) (v : Wave) : (s.putWave w v).clusters = s.clusters := rfl
@[simp] theorem putWave_sensors (s : State) (w : Nat) (v : Wave) : (s.putWave w v).sensors = s.sensors := rfl
@[simp] theorem putWave_watch (s : State) (w : Nat) (v : Wave) : (s.putWave w v).watch = s.watch := rfl
@[simp] theorem putWave_matrix (s : State) (w : Nat) (v : Wave) : (s.putWave w v).matrix = s.matrix := rfl
@[simp] theorem putWave_slots (s : State) (w : Nat) (v : Wave) : (s.putWave w v).slots = s.slots := rfl
@[simp] theorem putWave_ports (s : State) (w : Nat) (v : Wave) : (s.putWave w v).ports = s.ports := rfl
@[simp] theorem putWave_unreach (s : State) (w : Nat) (v : Wave) : (s.putWave w v).unreach = s.unreach := rfl
@[simp] theorem putWave_parts (s : State) (w : Nat) (v : Wave) : (s.putWave w v).parts = s.parts := rfl
@[simp] theorem putWave_prods (s : State) (w : Nat) (v : Wave) : (s.putWave w v).prods = s.prods := rfl
@[simp] theorem putWave_hall (s : State) (w : Nat) (v : Wave) : (s.putWave w v).hall = s.hall := rfl
@[simp] theorem putWave_copies (s : State) (w : Nat) (v : Wave) : (s.putWave w v).copies = s.copies := rfl
@[simp] theorem putWave_sysCommits (s : State) (w : Nat) (v : Wave) : (s.putWave w v).sysCommits = s.sysCommits := rfl
@[simp] theorem putWave_staged (s : State) (w : Nat) (v : Wave) : (s.putWave w v).staged = s.staged := rfl
@[simp] theorem putWave_fbuf (s : State) (w : Nat) (v : Wave) : (s.putWave w v).fbuf = s.fbuf := rfl
@[simp] theorem putWave_fseq (s : State) (w : Nat) (v : Wave) : (s.putWave w v).fseq = s.fseq := rfl
@[simp] theorem putWave_fwidx (s : State) (w : Nat) (v : Wave) : (s.putWave w v).fwidx = s.fwidx := rfl
@[simp] theorem putWave_fridx (s : State) (w : Nat) (v : Wave) : (s.putWave w v).fridx = s.fridx := rfl
@[simp] theorem putWave_counters (s : State) (w : Nat) (v : Wave) : (s.putWave w v).counters = s.counters := rfl
@[simp] theorem putWave_clocks (s : State) (w : Nat) (v : Wave) : (s.putWave w v).clocks = s.clocks := rfl
@[simp] theorem putWave_refill (s : State) (w : Nat) (v : Wave) : (s.putWave w v).refill = s.refill := rfl
@[simp] theorem putWave_mods (s : State) (w : Nat) (v : Wave) : (s.putWave w v).mods = s.mods := rfl
@[simp] theorem putWave_tickets (s : State) (w : Nat) (v : Wave) : (s.putWave w v).tickets = s.tickets := rfl
@[simp] theorem putWave_nextId (s : State) (w : Nat) (v : Wave) : (s.putWave w v).nextId = s.nextId := rfl
@[simp] theorem putWave_agenda (s : State) (w : Nat) (v : Wave) : (s.putWave w v).agenda = s.agenda := rfl
@[simp] theorem putWave_unit (s : State) (w : Nat) (v : Wave) : (s.putWave w v).unit = s.unit := rfl
@[simp] theorem putWave_cur (s : State) (w : Nat) (v : Wave) : (s.putWave w v).cur = s.cur := rfl
@[simp] theorem putWave_bus (s : State) (w : Nat) (v : Wave) : (s.putWave w v).bus = s.bus := rfl
@[simp] theorem putWave_free (s : State) (w : Nat) (v : Wave) : (s.putWave w v).free = s.free := rfl
@[simp] theorem putWave_routes (s : State) (w : Nat) (v : Wave) : (s.putWave w v).routes = s.routes := rfl
@[simp] theorem putWave_waiting (s : State) (w : Nat) (v : Wave) : (s.putWave w v).waiting = s.waiting := rfl
@[simp] theorem putWave_fmiss (s : State) (w : Nat) (v : Wave) : (s.putWave w v).fmiss = s.fmiss := rfl

@[simp] theorem modWave_tick (s : State) (w : Nat) (f : Wave → Wave) : (s.modWave w f).tick = s.tick := rfl
@[simp] theorem modWave_stage (s : State) (w : Nat) (f : Wave → Wave) : (s.modWave w f).stage = s.stage := rfl
@[simp] theorem modWave_recovery (s : State) (w : Nat) (f : Wave → Wave) : (s.modWave w f).recovery = s.recovery := rfl
@[simp] theorem modWave_cfg (s : State) (w : Nat) (f : Wave → Wave) : (s.modWave w f).cfg = s.cfg := rfl
@[simp] theorem modWave_flash (s : State) (w : Nat) (f : Wave → Wave) : (s.modWave w f).flash = s.flash := rfl
@[simp] theorem modWave_minver (s : State) (w : Nat) (f : Wave → Wave) : (s.modWave w f).minver = s.minver := rfl
@[simp] theorem modWave_booted (s : State) (w : Nat) (f : Wave → Wave) : (s.modWave w f).booted = s.booted := rfl
@[simp] theorem modWave_mem (s : State) (w : Nat) (f : Wave → Wave) : (s.modWave w f).mem = s.mem := rfl
@[simp] theorem modWave_memKey (s : State) (w : Nat) (f : Wave → Wave) : (s.modWave w f).memKey = s.memKey := rfl
@[simp] theorem modWave_keyGen (s : State) (w : Nat) (f : Wave → Wave) : (s.modWave w f).keyGen = s.keyGen := rfl
@[simp] theorem modWave_tlb (s : State) (w : Nat) (f : Wave → Wave) : (s.modWave w f).tlb = s.tlb := rfl
@[simp] theorem modWave_blocks (s : State) (w : Nat) (f : Wave → Wave) : (s.modWave w f).blocks = s.blocks := rfl
@[simp] theorem modWave_gangs (s : State) (w : Nat) (f : Wave → Wave) : (s.modWave w f).gangs = s.gangs := rfl
@[simp] theorem modWave_grids (s : State) (w : Nat) (f : Wave → Wave) : (s.modWave w f).grids = s.grids := rfl
@[simp] theorem modWave_ctxs (s : State) (w : Nat) (f : Wave → Wave) : (s.modWave w f).ctxs = s.ctxs := rfl
@[simp] theorem modWave_queues (s : State) (w : Nat) (f : Wave → Wave) : (s.modWave w f).queues = s.queues := rfl
@[simp] theorem modWave_rooms (s : State) (w : Nat) (f : Wave → Wave) : (s.modWave w f).rooms = s.rooms := rfl
@[simp] theorem modWave_clusters (s : State) (w : Nat) (f : Wave → Wave) : (s.modWave w f).clusters = s.clusters := rfl
@[simp] theorem modWave_sensors (s : State) (w : Nat) (f : Wave → Wave) : (s.modWave w f).sensors = s.sensors := rfl
@[simp] theorem modWave_watch (s : State) (w : Nat) (f : Wave → Wave) : (s.modWave w f).watch = s.watch := rfl
@[simp] theorem modWave_matrix (s : State) (w : Nat) (f : Wave → Wave) : (s.modWave w f).matrix = s.matrix := rfl
@[simp] theorem modWave_slots (s : State) (w : Nat) (f : Wave → Wave) : (s.modWave w f).slots = s.slots := rfl
@[simp] theorem modWave_ports (s : State) (w : Nat) (f : Wave → Wave) : (s.modWave w f).ports = s.ports := rfl
@[simp] theorem modWave_unreach (s : State) (w : Nat) (f : Wave → Wave) : (s.modWave w f).unreach = s.unreach := rfl
@[simp] theorem modWave_parts (s : State) (w : Nat) (f : Wave → Wave) : (s.modWave w f).parts = s.parts := rfl
@[simp] theorem modWave_prods (s : State) (w : Nat) (f : Wave → Wave) : (s.modWave w f).prods = s.prods := rfl
@[simp] theorem modWave_hall (s : State) (w : Nat) (f : Wave → Wave) : (s.modWave w f).hall = s.hall := rfl
@[simp] theorem modWave_copies (s : State) (w : Nat) (f : Wave → Wave) : (s.modWave w f).copies = s.copies := rfl
@[simp] theorem modWave_sysCommits (s : State) (w : Nat) (f : Wave → Wave) : (s.modWave w f).sysCommits = s.sysCommits := rfl
@[simp] theorem modWave_staged (s : State) (w : Nat) (f : Wave → Wave) : (s.modWave w f).staged = s.staged := rfl
@[simp] theorem modWave_fbuf (s : State) (w : Nat) (f : Wave → Wave) : (s.modWave w f).fbuf = s.fbuf := rfl
@[simp] theorem modWave_fseq (s : State) (w : Nat) (f : Wave → Wave) : (s.modWave w f).fseq = s.fseq := rfl
@[simp] theorem modWave_fwidx (s : State) (w : Nat) (f : Wave → Wave) : (s.modWave w f).fwidx = s.fwidx := rfl
@[simp] theorem modWave_fridx (s : State) (w : Nat) (f : Wave → Wave) : (s.modWave w f).fridx = s.fridx := rfl
@[simp] theorem modWave_counters (s : State) (w : Nat) (f : Wave → Wave) : (s.modWave w f).counters = s.counters := rfl
@[simp] theorem modWave_clocks (s : State) (w : Nat) (f : Wave → Wave) : (s.modWave w f).clocks = s.clocks := rfl
@[simp] theorem modWave_refill (s : State) (w : Nat) (f : Wave → Wave) : (s.modWave w f).refill = s.refill := rfl
@[simp] theorem modWave_mods (s : State) (w : Nat) (f : Wave → Wave) : (s.modWave w f).mods = s.mods := rfl
@[simp] theorem modWave_tickets (s : State) (w : Nat) (f : Wave → Wave) : (s.modWave w f).tickets = s.tickets := rfl
@[simp] theorem modWave_nextId (s : State) (w : Nat) (f : Wave → Wave) : (s.modWave w f).nextId = s.nextId := rfl
@[simp] theorem modWave_agenda (s : State) (w : Nat) (f : Wave → Wave) : (s.modWave w f).agenda = s.agenda := rfl
@[simp] theorem modWave_unit (s : State) (w : Nat) (f : Wave → Wave) : (s.modWave w f).unit = s.unit := rfl
@[simp] theorem modWave_cur (s : State) (w : Nat) (f : Wave → Wave) : (s.modWave w f).cur = s.cur := rfl
@[simp] theorem modWave_bus (s : State) (w : Nat) (f : Wave → Wave) : (s.modWave w f).bus = s.bus := rfl
@[simp] theorem modWave_free (s : State) (w : Nat) (f : Wave → Wave) : (s.modWave w f).free = s.free := rfl
@[simp] theorem modWave_routes (s : State) (w : Nat) (f : Wave → Wave) : (s.modWave w f).routes = s.routes := rfl
@[simp] theorem modWave_waiting (s : State) (w : Nat) (f : Wave → Wave) : (s.modWave w f).waiting = s.waiting := rfl
@[simp] theorem modWave_fmiss (s : State) (w : Nat) (f : Wave → Wave) : (s.modWave w f).fmiss = s.fmiss := rfl

@[simp] theorem modBlock_tick (s : State) (b : Nat) (f : Block → Block) : (s.modBlock b f).tick = s.tick := rfl
@[simp] theorem modBlock_stage (s : State) (b : Nat) (f : Block → Block) : (s.modBlock b f).stage = s.stage := rfl
@[simp] theorem modBlock_recovery (s : State) (b : Nat) (f : Block → Block) : (s.modBlock b f).recovery = s.recovery := rfl
@[simp] theorem modBlock_cfg (s : State) (b : Nat) (f : Block → Block) : (s.modBlock b f).cfg = s.cfg := rfl
@[simp] theorem modBlock_flash (s : State) (b : Nat) (f : Block → Block) : (s.modBlock b f).flash = s.flash := rfl
@[simp] theorem modBlock_minver (s : State) (b : Nat) (f : Block → Block) : (s.modBlock b f).minver = s.minver := rfl
@[simp] theorem modBlock_booted (s : State) (b : Nat) (f : Block → Block) : (s.modBlock b f).booted = s.booted := rfl
@[simp] theorem modBlock_mem (s : State) (b : Nat) (f : Block → Block) : (s.modBlock b f).mem = s.mem := rfl
@[simp] theorem modBlock_memKey (s : State) (b : Nat) (f : Block → Block) : (s.modBlock b f).memKey = s.memKey := rfl
@[simp] theorem modBlock_keyGen (s : State) (b : Nat) (f : Block → Block) : (s.modBlock b f).keyGen = s.keyGen := rfl
@[simp] theorem modBlock_tlb (s : State) (b : Nat) (f : Block → Block) : (s.modBlock b f).tlb = s.tlb := rfl
@[simp] theorem modBlock_waves (s : State) (b : Nat) (f : Block → Block) : (s.modBlock b f).waves = s.waves := rfl
@[simp] theorem modBlock_gangs (s : State) (b : Nat) (f : Block → Block) : (s.modBlock b f).gangs = s.gangs := rfl
@[simp] theorem modBlock_grids (s : State) (b : Nat) (f : Block → Block) : (s.modBlock b f).grids = s.grids := rfl
@[simp] theorem modBlock_ctxs (s : State) (b : Nat) (f : Block → Block) : (s.modBlock b f).ctxs = s.ctxs := rfl
@[simp] theorem modBlock_queues (s : State) (b : Nat) (f : Block → Block) : (s.modBlock b f).queues = s.queues := rfl
@[simp] theorem modBlock_rooms (s : State) (b : Nat) (f : Block → Block) : (s.modBlock b f).rooms = s.rooms := rfl
@[simp] theorem modBlock_clusters (s : State) (b : Nat) (f : Block → Block) : (s.modBlock b f).clusters = s.clusters := rfl
@[simp] theorem modBlock_sensors (s : State) (b : Nat) (f : Block → Block) : (s.modBlock b f).sensors = s.sensors := rfl
@[simp] theorem modBlock_watch (s : State) (b : Nat) (f : Block → Block) : (s.modBlock b f).watch = s.watch := rfl
@[simp] theorem modBlock_matrix (s : State) (b : Nat) (f : Block → Block) : (s.modBlock b f).matrix = s.matrix := rfl
@[simp] theorem modBlock_slots (s : State) (b : Nat) (f : Block → Block) : (s.modBlock b f).slots = s.slots := rfl
@[simp] theorem modBlock_ports (s : State) (b : Nat) (f : Block → Block) : (s.modBlock b f).ports = s.ports := rfl
@[simp] theorem modBlock_unreach (s : State) (b : Nat) (f : Block → Block) : (s.modBlock b f).unreach = s.unreach := rfl
@[simp] theorem modBlock_parts (s : State) (b : Nat) (f : Block → Block) : (s.modBlock b f).parts = s.parts := rfl
@[simp] theorem modBlock_prods (s : State) (b : Nat) (f : Block → Block) : (s.modBlock b f).prods = s.prods := rfl
@[simp] theorem modBlock_hall (s : State) (b : Nat) (f : Block → Block) : (s.modBlock b f).hall = s.hall := rfl
@[simp] theorem modBlock_copies (s : State) (b : Nat) (f : Block → Block) : (s.modBlock b f).copies = s.copies := rfl
@[simp] theorem modBlock_sysCommits (s : State) (b : Nat) (f : Block → Block) : (s.modBlock b f).sysCommits = s.sysCommits := rfl
@[simp] theorem modBlock_staged (s : State) (b : Nat) (f : Block → Block) : (s.modBlock b f).staged = s.staged := rfl
@[simp] theorem modBlock_fbuf (s : State) (b : Nat) (f : Block → Block) : (s.modBlock b f).fbuf = s.fbuf := rfl
@[simp] theorem modBlock_fseq (s : State) (b : Nat) (f : Block → Block) : (s.modBlock b f).fseq = s.fseq := rfl
@[simp] theorem modBlock_fwidx (s : State) (b : Nat) (f : Block → Block) : (s.modBlock b f).fwidx = s.fwidx := rfl
@[simp] theorem modBlock_fridx (s : State) (b : Nat) (f : Block → Block) : (s.modBlock b f).fridx = s.fridx := rfl
@[simp] theorem modBlock_counters (s : State) (b : Nat) (f : Block → Block) : (s.modBlock b f).counters = s.counters := rfl
@[simp] theorem modBlock_clocks (s : State) (b : Nat) (f : Block → Block) : (s.modBlock b f).clocks = s.clocks := rfl
@[simp] theorem modBlock_refill (s : State) (b : Nat) (f : Block → Block) : (s.modBlock b f).refill = s.refill := rfl
@[simp] theorem modBlock_mods (s : State) (b : Nat) (f : Block → Block) : (s.modBlock b f).mods = s.mods := rfl
@[simp] theorem modBlock_tickets (s : State) (b : Nat) (f : Block → Block) : (s.modBlock b f).tickets = s.tickets := rfl
@[simp] theorem modBlock_nextId (s : State) (b : Nat) (f : Block → Block) : (s.modBlock b f).nextId = s.nextId := rfl
@[simp] theorem modBlock_agenda (s : State) (b : Nat) (f : Block → Block) : (s.modBlock b f).agenda = s.agenda := rfl
@[simp] theorem modBlock_unit (s : State) (b : Nat) (f : Block → Block) : (s.modBlock b f).unit = s.unit := rfl
@[simp] theorem modBlock_cur (s : State) (b : Nat) (f : Block → Block) : (s.modBlock b f).cur = s.cur := rfl
@[simp] theorem modBlock_bus (s : State) (b : Nat) (f : Block → Block) : (s.modBlock b f).bus = s.bus := rfl
@[simp] theorem modBlock_free (s : State) (b : Nat) (f : Block → Block) : (s.modBlock b f).free = s.free := rfl
@[simp] theorem modBlock_routes (s : State) (b : Nat) (f : Block → Block) : (s.modBlock b f).routes = s.routes := rfl
@[simp] theorem modBlock_waiting (s : State) (b : Nat) (f : Block → Block) : (s.modBlock b f).waiting = s.waiting := rfl
@[simp] theorem modBlock_fmiss (s : State) (b : Nat) (f : Block → Block) : (s.modBlock b f).fmiss = s.fmiss := rfl

@[simp] theorem modGang_tick (s : State) (g : Nat) (f : Gang → Gang) : (s.modGang g f).tick = s.tick := rfl
@[simp] theorem modGang_stage (s : State) (g : Nat) (f : Gang → Gang) : (s.modGang g f).stage = s.stage := rfl
@[simp] theorem modGang_recovery (s : State) (g : Nat) (f : Gang → Gang) : (s.modGang g f).recovery = s.recovery := rfl
@[simp] theorem modGang_cfg (s : State) (g : Nat) (f : Gang → Gang) : (s.modGang g f).cfg = s.cfg := rfl
@[simp] theorem modGang_flash (s : State) (g : Nat) (f : Gang → Gang) : (s.modGang g f).flash = s.flash := rfl
@[simp] theorem modGang_minver (s : State) (g : Nat) (f : Gang → Gang) : (s.modGang g f).minver = s.minver := rfl
@[simp] theorem modGang_booted (s : State) (g : Nat) (f : Gang → Gang) : (s.modGang g f).booted = s.booted := rfl
@[simp] theorem modGang_mem (s : State) (g : Nat) (f : Gang → Gang) : (s.modGang g f).mem = s.mem := rfl
@[simp] theorem modGang_memKey (s : State) (g : Nat) (f : Gang → Gang) : (s.modGang g f).memKey = s.memKey := rfl
@[simp] theorem modGang_keyGen (s : State) (g : Nat) (f : Gang → Gang) : (s.modGang g f).keyGen = s.keyGen := rfl
@[simp] theorem modGang_tlb (s : State) (g : Nat) (f : Gang → Gang) : (s.modGang g f).tlb = s.tlb := rfl
@[simp] theorem modGang_waves (s : State) (g : Nat) (f : Gang → Gang) : (s.modGang g f).waves = s.waves := rfl
@[simp] theorem modGang_blocks (s : State) (g : Nat) (f : Gang → Gang) : (s.modGang g f).blocks = s.blocks := rfl
@[simp] theorem modGang_grids (s : State) (g : Nat) (f : Gang → Gang) : (s.modGang g f).grids = s.grids := rfl
@[simp] theorem modGang_ctxs (s : State) (g : Nat) (f : Gang → Gang) : (s.modGang g f).ctxs = s.ctxs := rfl
@[simp] theorem modGang_queues (s : State) (g : Nat) (f : Gang → Gang) : (s.modGang g f).queues = s.queues := rfl
@[simp] theorem modGang_rooms (s : State) (g : Nat) (f : Gang → Gang) : (s.modGang g f).rooms = s.rooms := rfl
@[simp] theorem modGang_clusters (s : State) (g : Nat) (f : Gang → Gang) : (s.modGang g f).clusters = s.clusters := rfl
@[simp] theorem modGang_sensors (s : State) (g : Nat) (f : Gang → Gang) : (s.modGang g f).sensors = s.sensors := rfl
@[simp] theorem modGang_watch (s : State) (g : Nat) (f : Gang → Gang) : (s.modGang g f).watch = s.watch := rfl
@[simp] theorem modGang_matrix (s : State) (g : Nat) (f : Gang → Gang) : (s.modGang g f).matrix = s.matrix := rfl
@[simp] theorem modGang_slots (s : State) (g : Nat) (f : Gang → Gang) : (s.modGang g f).slots = s.slots := rfl
@[simp] theorem modGang_ports (s : State) (g : Nat) (f : Gang → Gang) : (s.modGang g f).ports = s.ports := rfl
@[simp] theorem modGang_unreach (s : State) (g : Nat) (f : Gang → Gang) : (s.modGang g f).unreach = s.unreach := rfl
@[simp] theorem modGang_parts (s : State) (g : Nat) (f : Gang → Gang) : (s.modGang g f).parts = s.parts := rfl
@[simp] theorem modGang_prods (s : State) (g : Nat) (f : Gang → Gang) : (s.modGang g f).prods = s.prods := rfl
@[simp] theorem modGang_hall (s : State) (g : Nat) (f : Gang → Gang) : (s.modGang g f).hall = s.hall := rfl
@[simp] theorem modGang_copies (s : State) (g : Nat) (f : Gang → Gang) : (s.modGang g f).copies = s.copies := rfl
@[simp] theorem modGang_sysCommits (s : State) (g : Nat) (f : Gang → Gang) : (s.modGang g f).sysCommits = s.sysCommits := rfl
@[simp] theorem modGang_staged (s : State) (g : Nat) (f : Gang → Gang) : (s.modGang g f).staged = s.staged := rfl
@[simp] theorem modGang_fbuf (s : State) (g : Nat) (f : Gang → Gang) : (s.modGang g f).fbuf = s.fbuf := rfl
@[simp] theorem modGang_fseq (s : State) (g : Nat) (f : Gang → Gang) : (s.modGang g f).fseq = s.fseq := rfl
@[simp] theorem modGang_fwidx (s : State) (g : Nat) (f : Gang → Gang) : (s.modGang g f).fwidx = s.fwidx := rfl
@[simp] theorem modGang_fridx (s : State) (g : Nat) (f : Gang → Gang) : (s.modGang g f).fridx = s.fridx := rfl
@[simp] theorem modGang_counters (s : State) (g : Nat) (f : Gang → Gang) : (s.modGang g f).counters = s.counters := rfl
@[simp] theorem modGang_clocks (s : State) (g : Nat) (f : Gang → Gang) : (s.modGang g f).clocks = s.clocks := rfl
@[simp] theorem modGang_refill (s : State) (g : Nat) (f : Gang → Gang) : (s.modGang g f).refill = s.refill := rfl
@[simp] theorem modGang_mods (s : State) (g : Nat) (f : Gang → Gang) : (s.modGang g f).mods = s.mods := rfl
@[simp] theorem modGang_tickets (s : State) (g : Nat) (f : Gang → Gang) : (s.modGang g f).tickets = s.tickets := rfl
@[simp] theorem modGang_nextId (s : State) (g : Nat) (f : Gang → Gang) : (s.modGang g f).nextId = s.nextId := rfl
@[simp] theorem modGang_agenda (s : State) (g : Nat) (f : Gang → Gang) : (s.modGang g f).agenda = s.agenda := rfl
@[simp] theorem modGang_unit (s : State) (g : Nat) (f : Gang → Gang) : (s.modGang g f).unit = s.unit := rfl
@[simp] theorem modGang_cur (s : State) (g : Nat) (f : Gang → Gang) : (s.modGang g f).cur = s.cur := rfl
@[simp] theorem modGang_bus (s : State) (g : Nat) (f : Gang → Gang) : (s.modGang g f).bus = s.bus := rfl
@[simp] theorem modGang_free (s : State) (g : Nat) (f : Gang → Gang) : (s.modGang g f).free = s.free := rfl
@[simp] theorem modGang_routes (s : State) (g : Nat) (f : Gang → Gang) : (s.modGang g f).routes = s.routes := rfl
@[simp] theorem modGang_waiting (s : State) (g : Nat) (f : Gang → Gang) : (s.modGang g f).waiting = s.waiting := rfl
@[simp] theorem modGang_fmiss (s : State) (g : Nat) (f : Gang → Gang) : (s.modGang g f).fmiss = s.fmiss := rfl

@[simp] theorem modGrid_tick (s : State) (g : Nat) (f : Grid → Grid) : (s.modGrid g f).tick = s.tick := rfl
@[simp] theorem modGrid_stage (s : State) (g : Nat) (f : Grid → Grid) : (s.modGrid g f).stage = s.stage := rfl
@[simp] theorem modGrid_recovery (s : State) (g : Nat) (f : Grid → Grid) : (s.modGrid g f).recovery = s.recovery := rfl
@[simp] theorem modGrid_cfg (s : State) (g : Nat) (f : Grid → Grid) : (s.modGrid g f).cfg = s.cfg := rfl
@[simp] theorem modGrid_flash (s : State) (g : Nat) (f : Grid → Grid) : (s.modGrid g f).flash = s.flash := rfl
@[simp] theorem modGrid_minver (s : State) (g : Nat) (f : Grid → Grid) : (s.modGrid g f).minver = s.minver := rfl
@[simp] theorem modGrid_booted (s : State) (g : Nat) (f : Grid → Grid) : (s.modGrid g f).booted = s.booted := rfl
@[simp] theorem modGrid_mem (s : State) (g : Nat) (f : Grid → Grid) : (s.modGrid g f).mem = s.mem := rfl
@[simp] theorem modGrid_memKey (s : State) (g : Nat) (f : Grid → Grid) : (s.modGrid g f).memKey = s.memKey := rfl
@[simp] theorem modGrid_keyGen (s : State) (g : Nat) (f : Grid → Grid) : (s.modGrid g f).keyGen = s.keyGen := rfl
@[simp] theorem modGrid_tlb (s : State) (g : Nat) (f : Grid → Grid) : (s.modGrid g f).tlb = s.tlb := rfl
@[simp] theorem modGrid_waves (s : State) (g : Nat) (f : Grid → Grid) : (s.modGrid g f).waves = s.waves := rfl
@[simp] theorem modGrid_blocks (s : State) (g : Nat) (f : Grid → Grid) : (s.modGrid g f).blocks = s.blocks := rfl
@[simp] theorem modGrid_gangs (s : State) (g : Nat) (f : Grid → Grid) : (s.modGrid g f).gangs = s.gangs := rfl
@[simp] theorem modGrid_ctxs (s : State) (g : Nat) (f : Grid → Grid) : (s.modGrid g f).ctxs = s.ctxs := rfl
@[simp] theorem modGrid_queues (s : State) (g : Nat) (f : Grid → Grid) : (s.modGrid g f).queues = s.queues := rfl
@[simp] theorem modGrid_rooms (s : State) (g : Nat) (f : Grid → Grid) : (s.modGrid g f).rooms = s.rooms := rfl
@[simp] theorem modGrid_clusters (s : State) (g : Nat) (f : Grid → Grid) : (s.modGrid g f).clusters = s.clusters := rfl
@[simp] theorem modGrid_sensors (s : State) (g : Nat) (f : Grid → Grid) : (s.modGrid g f).sensors = s.sensors := rfl
@[simp] theorem modGrid_watch (s : State) (g : Nat) (f : Grid → Grid) : (s.modGrid g f).watch = s.watch := rfl
@[simp] theorem modGrid_matrix (s : State) (g : Nat) (f : Grid → Grid) : (s.modGrid g f).matrix = s.matrix := rfl
@[simp] theorem modGrid_slots (s : State) (g : Nat) (f : Grid → Grid) : (s.modGrid g f).slots = s.slots := rfl
@[simp] theorem modGrid_ports (s : State) (g : Nat) (f : Grid → Grid) : (s.modGrid g f).ports = s.ports := rfl
@[simp] theorem modGrid_unreach (s : State) (g : Nat) (f : Grid → Grid) : (s.modGrid g f).unreach = s.unreach := rfl
@[simp] theorem modGrid_parts (s : State) (g : Nat) (f : Grid → Grid) : (s.modGrid g f).parts = s.parts := rfl
@[simp] theorem modGrid_prods (s : State) (g : Nat) (f : Grid → Grid) : (s.modGrid g f).prods = s.prods := rfl
@[simp] theorem modGrid_hall (s : State) (g : Nat) (f : Grid → Grid) : (s.modGrid g f).hall = s.hall := rfl
@[simp] theorem modGrid_copies (s : State) (g : Nat) (f : Grid → Grid) : (s.modGrid g f).copies = s.copies := rfl
@[simp] theorem modGrid_sysCommits (s : State) (g : Nat) (f : Grid → Grid) : (s.modGrid g f).sysCommits = s.sysCommits := rfl
@[simp] theorem modGrid_staged (s : State) (g : Nat) (f : Grid → Grid) : (s.modGrid g f).staged = s.staged := rfl
@[simp] theorem modGrid_fbuf (s : State) (g : Nat) (f : Grid → Grid) : (s.modGrid g f).fbuf = s.fbuf := rfl
@[simp] theorem modGrid_fseq (s : State) (g : Nat) (f : Grid → Grid) : (s.modGrid g f).fseq = s.fseq := rfl
@[simp] theorem modGrid_fwidx (s : State) (g : Nat) (f : Grid → Grid) : (s.modGrid g f).fwidx = s.fwidx := rfl
@[simp] theorem modGrid_fridx (s : State) (g : Nat) (f : Grid → Grid) : (s.modGrid g f).fridx = s.fridx := rfl
@[simp] theorem modGrid_counters (s : State) (g : Nat) (f : Grid → Grid) : (s.modGrid g f).counters = s.counters := rfl
@[simp] theorem modGrid_clocks (s : State) (g : Nat) (f : Grid → Grid) : (s.modGrid g f).clocks = s.clocks := rfl
@[simp] theorem modGrid_refill (s : State) (g : Nat) (f : Grid → Grid) : (s.modGrid g f).refill = s.refill := rfl
@[simp] theorem modGrid_mods (s : State) (g : Nat) (f : Grid → Grid) : (s.modGrid g f).mods = s.mods := rfl
@[simp] theorem modGrid_tickets (s : State) (g : Nat) (f : Grid → Grid) : (s.modGrid g f).tickets = s.tickets := rfl
@[simp] theorem modGrid_nextId (s : State) (g : Nat) (f : Grid → Grid) : (s.modGrid g f).nextId = s.nextId := rfl
@[simp] theorem modGrid_agenda (s : State) (g : Nat) (f : Grid → Grid) : (s.modGrid g f).agenda = s.agenda := rfl
@[simp] theorem modGrid_unit (s : State) (g : Nat) (f : Grid → Grid) : (s.modGrid g f).unit = s.unit := rfl
@[simp] theorem modGrid_cur (s : State) (g : Nat) (f : Grid → Grid) : (s.modGrid g f).cur = s.cur := rfl
@[simp] theorem modGrid_bus (s : State) (g : Nat) (f : Grid → Grid) : (s.modGrid g f).bus = s.bus := rfl
@[simp] theorem modGrid_free (s : State) (g : Nat) (f : Grid → Grid) : (s.modGrid g f).free = s.free := rfl
@[simp] theorem modGrid_routes (s : State) (g : Nat) (f : Grid → Grid) : (s.modGrid g f).routes = s.routes := rfl
@[simp] theorem modGrid_waiting (s : State) (g : Nat) (f : Grid → Grid) : (s.modGrid g f).waiting = s.waiting := rfl
@[simp] theorem modGrid_fmiss (s : State) (g : Nat) (f : Grid → Grid) : (s.modGrid g f).fmiss = s.fmiss := rfl

@[simp] theorem modCtx_tick (s : State) (c : Nat) (f : Ctx → Ctx) : (s.modCtx c f).tick = s.tick := rfl
@[simp] theorem modCtx_stage (s : State) (c : Nat) (f : Ctx → Ctx) : (s.modCtx c f).stage = s.stage := rfl
@[simp] theorem modCtx_recovery (s : State) (c : Nat) (f : Ctx → Ctx) : (s.modCtx c f).recovery = s.recovery := rfl
@[simp] theorem modCtx_cfg (s : State) (c : Nat) (f : Ctx → Ctx) : (s.modCtx c f).cfg = s.cfg := rfl
@[simp] theorem modCtx_flash (s : State) (c : Nat) (f : Ctx → Ctx) : (s.modCtx c f).flash = s.flash := rfl
@[simp] theorem modCtx_minver (s : State) (c : Nat) (f : Ctx → Ctx) : (s.modCtx c f).minver = s.minver := rfl
@[simp] theorem modCtx_booted (s : State) (c : Nat) (f : Ctx → Ctx) : (s.modCtx c f).booted = s.booted := rfl
@[simp] theorem modCtx_mem (s : State) (c : Nat) (f : Ctx → Ctx) : (s.modCtx c f).mem = s.mem := rfl
@[simp] theorem modCtx_memKey (s : State) (c : Nat) (f : Ctx → Ctx) : (s.modCtx c f).memKey = s.memKey := rfl
@[simp] theorem modCtx_keyGen (s : State) (c : Nat) (f : Ctx → Ctx) : (s.modCtx c f).keyGen = s.keyGen := rfl
@[simp] theorem modCtx_tlb (s : State) (c : Nat) (f : Ctx → Ctx) : (s.modCtx c f).tlb = s.tlb := rfl
@[simp] theorem modCtx_waves (s : State) (c : Nat) (f : Ctx → Ctx) : (s.modCtx c f).waves = s.waves := rfl
@[simp] theorem modCtx_blocks (s : State) (c : Nat) (f : Ctx → Ctx) : (s.modCtx c f).blocks = s.blocks := rfl
@[simp] theorem modCtx_gangs (s : State) (c : Nat) (f : Ctx → Ctx) : (s.modCtx c f).gangs = s.gangs := rfl
@[simp] theorem modCtx_grids (s : State) (c : Nat) (f : Ctx → Ctx) : (s.modCtx c f).grids = s.grids := rfl
@[simp] theorem modCtx_queues (s : State) (c : Nat) (f : Ctx → Ctx) : (s.modCtx c f).queues = s.queues := rfl
@[simp] theorem modCtx_rooms (s : State) (c : Nat) (f : Ctx → Ctx) : (s.modCtx c f).rooms = s.rooms := rfl
@[simp] theorem modCtx_clusters (s : State) (c : Nat) (f : Ctx → Ctx) : (s.modCtx c f).clusters = s.clusters := rfl
@[simp] theorem modCtx_sensors (s : State) (c : Nat) (f : Ctx → Ctx) : (s.modCtx c f).sensors = s.sensors := rfl
@[simp] theorem modCtx_watch (s : State) (c : Nat) (f : Ctx → Ctx) : (s.modCtx c f).watch = s.watch := rfl
@[simp] theorem modCtx_matrix (s : State) (c : Nat) (f : Ctx → Ctx) : (s.modCtx c f).matrix = s.matrix := rfl
@[simp] theorem modCtx_slots (s : State) (c : Nat) (f : Ctx → Ctx) : (s.modCtx c f).slots = s.slots := rfl
@[simp] theorem modCtx_ports (s : State) (c : Nat) (f : Ctx → Ctx) : (s.modCtx c f).ports = s.ports := rfl
@[simp] theorem modCtx_unreach (s : State) (c : Nat) (f : Ctx → Ctx) : (s.modCtx c f).unreach = s.unreach := rfl
@[simp] theorem modCtx_parts (s : State) (c : Nat) (f : Ctx → Ctx) : (s.modCtx c f).parts = s.parts := rfl
@[simp] theorem modCtx_prods (s : State) (c : Nat) (f : Ctx → Ctx) : (s.modCtx c f).prods = s.prods := rfl
@[simp] theorem modCtx_hall (s : State) (c : Nat) (f : Ctx → Ctx) : (s.modCtx c f).hall = s.hall := rfl
@[simp] theorem modCtx_copies (s : State) (c : Nat) (f : Ctx → Ctx) : (s.modCtx c f).copies = s.copies := rfl
@[simp] theorem modCtx_sysCommits (s : State) (c : Nat) (f : Ctx → Ctx) : (s.modCtx c f).sysCommits = s.sysCommits := rfl
@[simp] theorem modCtx_staged (s : State) (c : Nat) (f : Ctx → Ctx) : (s.modCtx c f).staged = s.staged := rfl
@[simp] theorem modCtx_fbuf (s : State) (c : Nat) (f : Ctx → Ctx) : (s.modCtx c f).fbuf = s.fbuf := rfl
@[simp] theorem modCtx_fseq (s : State) (c : Nat) (f : Ctx → Ctx) : (s.modCtx c f).fseq = s.fseq := rfl
@[simp] theorem modCtx_fwidx (s : State) (c : Nat) (f : Ctx → Ctx) : (s.modCtx c f).fwidx = s.fwidx := rfl
@[simp] theorem modCtx_fridx (s : State) (c : Nat) (f : Ctx → Ctx) : (s.modCtx c f).fridx = s.fridx := rfl
@[simp] theorem modCtx_counters (s : State) (c : Nat) (f : Ctx → Ctx) : (s.modCtx c f).counters = s.counters := rfl
@[simp] theorem modCtx_clocks (s : State) (c : Nat) (f : Ctx → Ctx) : (s.modCtx c f).clocks = s.clocks := rfl
@[simp] theorem modCtx_refill (s : State) (c : Nat) (f : Ctx → Ctx) : (s.modCtx c f).refill = s.refill := rfl
@[simp] theorem modCtx_mods (s : State) (c : Nat) (f : Ctx → Ctx) : (s.modCtx c f).mods = s.mods := rfl
@[simp] theorem modCtx_tickets (s : State) (c : Nat) (f : Ctx → Ctx) : (s.modCtx c f).tickets = s.tickets := rfl
@[simp] theorem modCtx_nextId (s : State) (c : Nat) (f : Ctx → Ctx) : (s.modCtx c f).nextId = s.nextId := rfl
@[simp] theorem modCtx_agenda (s : State) (c : Nat) (f : Ctx → Ctx) : (s.modCtx c f).agenda = s.agenda := rfl
@[simp] theorem modCtx_unit (s : State) (c : Nat) (f : Ctx → Ctx) : (s.modCtx c f).unit = s.unit := rfl
@[simp] theorem modCtx_cur (s : State) (c : Nat) (f : Ctx → Ctx) : (s.modCtx c f).cur = s.cur := rfl
@[simp] theorem modCtx_bus (s : State) (c : Nat) (f : Ctx → Ctx) : (s.modCtx c f).bus = s.bus := rfl
@[simp] theorem modCtx_free (s : State) (c : Nat) (f : Ctx → Ctx) : (s.modCtx c f).free = s.free := rfl
@[simp] theorem modCtx_routes (s : State) (c : Nat) (f : Ctx → Ctx) : (s.modCtx c f).routes = s.routes := rfl
@[simp] theorem modCtx_waiting (s : State) (c : Nat) (f : Ctx → Ctx) : (s.modCtx c f).waiting = s.waiting := rfl
@[simp] theorem modCtx_fmiss (s : State) (c : Nat) (f : Ctx → Ctx) : (s.modCtx c f).fmiss = s.fmiss := rfl

@[simp] theorem modCluster_tick (s : State) (c : Nat) (f : Cluster → Cluster) : (s.modCluster c f).tick = s.tick := rfl
@[simp] theorem modCluster_stage (s : State) (c : Nat) (f : Cluster → Cluster) : (s.modCluster c f).stage = s.stage := rfl
@[simp] theorem modCluster_recovery (s : State) (c : Nat) (f : Cluster → Cluster) : (s.modCluster c f).recovery = s.recovery := rfl
@[simp] theorem modCluster_cfg (s : State) (c : Nat) (f : Cluster → Cluster) : (s.modCluster c f).cfg = s.cfg := rfl
@[simp] theorem modCluster_flash (s : State) (c : Nat) (f : Cluster → Cluster) : (s.modCluster c f).flash = s.flash := rfl
@[simp] theorem modCluster_minver (s : State) (c : Nat) (f : Cluster → Cluster) : (s.modCluster c f).minver = s.minver := rfl
@[simp] theorem modCluster_booted (s : State) (c : Nat) (f : Cluster → Cluster) : (s.modCluster c f).booted = s.booted := rfl
@[simp] theorem modCluster_mem (s : State) (c : Nat) (f : Cluster → Cluster) : (s.modCluster c f).mem = s.mem := rfl
@[simp] theorem modCluster_memKey (s : State) (c : Nat) (f : Cluster → Cluster) : (s.modCluster c f).memKey = s.memKey := rfl
@[simp] theorem modCluster_keyGen (s : State) (c : Nat) (f : Cluster → Cluster) : (s.modCluster c f).keyGen = s.keyGen := rfl
@[simp] theorem modCluster_tlb (s : State) (c : Nat) (f : Cluster → Cluster) : (s.modCluster c f).tlb = s.tlb := rfl
@[simp] theorem modCluster_waves (s : State) (c : Nat) (f : Cluster → Cluster) : (s.modCluster c f).waves = s.waves := rfl
@[simp] theorem modCluster_blocks (s : State) (c : Nat) (f : Cluster → Cluster) : (s.modCluster c f).blocks = s.blocks := rfl
@[simp] theorem modCluster_gangs (s : State) (c : Nat) (f : Cluster → Cluster) : (s.modCluster c f).gangs = s.gangs := rfl
@[simp] theorem modCluster_grids (s : State) (c : Nat) (f : Cluster → Cluster) : (s.modCluster c f).grids = s.grids := rfl
@[simp] theorem modCluster_ctxs (s : State) (c : Nat) (f : Cluster → Cluster) : (s.modCluster c f).ctxs = s.ctxs := rfl
@[simp] theorem modCluster_queues (s : State) (c : Nat) (f : Cluster → Cluster) : (s.modCluster c f).queues = s.queues := rfl
@[simp] theorem modCluster_rooms (s : State) (c : Nat) (f : Cluster → Cluster) : (s.modCluster c f).rooms = s.rooms := rfl
@[simp] theorem modCluster_sensors (s : State) (c : Nat) (f : Cluster → Cluster) : (s.modCluster c f).sensors = s.sensors := rfl
@[simp] theorem modCluster_watch (s : State) (c : Nat) (f : Cluster → Cluster) : (s.modCluster c f).watch = s.watch := rfl
@[simp] theorem modCluster_matrix (s : State) (c : Nat) (f : Cluster → Cluster) : (s.modCluster c f).matrix = s.matrix := rfl
@[simp] theorem modCluster_slots (s : State) (c : Nat) (f : Cluster → Cluster) : (s.modCluster c f).slots = s.slots := rfl
@[simp] theorem modCluster_ports (s : State) (c : Nat) (f : Cluster → Cluster) : (s.modCluster c f).ports = s.ports := rfl
@[simp] theorem modCluster_unreach (s : State) (c : Nat) (f : Cluster → Cluster) : (s.modCluster c f).unreach = s.unreach := rfl
@[simp] theorem modCluster_parts (s : State) (c : Nat) (f : Cluster → Cluster) : (s.modCluster c f).parts = s.parts := rfl
@[simp] theorem modCluster_prods (s : State) (c : Nat) (f : Cluster → Cluster) : (s.modCluster c f).prods = s.prods := rfl
@[simp] theorem modCluster_hall (s : State) (c : Nat) (f : Cluster → Cluster) : (s.modCluster c f).hall = s.hall := rfl
@[simp] theorem modCluster_copies (s : State) (c : Nat) (f : Cluster → Cluster) : (s.modCluster c f).copies = s.copies := rfl
@[simp] theorem modCluster_sysCommits (s : State) (c : Nat) (f : Cluster → Cluster) : (s.modCluster c f).sysCommits = s.sysCommits := rfl
@[simp] theorem modCluster_staged (s : State) (c : Nat) (f : Cluster → Cluster) : (s.modCluster c f).staged = s.staged := rfl
@[simp] theorem modCluster_fbuf (s : State) (c : Nat) (f : Cluster → Cluster) : (s.modCluster c f).fbuf = s.fbuf := rfl
@[simp] theorem modCluster_fseq (s : State) (c : Nat) (f : Cluster → Cluster) : (s.modCluster c f).fseq = s.fseq := rfl
@[simp] theorem modCluster_fwidx (s : State) (c : Nat) (f : Cluster → Cluster) : (s.modCluster c f).fwidx = s.fwidx := rfl
@[simp] theorem modCluster_fridx (s : State) (c : Nat) (f : Cluster → Cluster) : (s.modCluster c f).fridx = s.fridx := rfl
@[simp] theorem modCluster_counters (s : State) (c : Nat) (f : Cluster → Cluster) : (s.modCluster c f).counters = s.counters := rfl
@[simp] theorem modCluster_clocks (s : State) (c : Nat) (f : Cluster → Cluster) : (s.modCluster c f).clocks = s.clocks := rfl
@[simp] theorem modCluster_refill (s : State) (c : Nat) (f : Cluster → Cluster) : (s.modCluster c f).refill = s.refill := rfl
@[simp] theorem modCluster_mods (s : State) (c : Nat) (f : Cluster → Cluster) : (s.modCluster c f).mods = s.mods := rfl
@[simp] theorem modCluster_tickets (s : State) (c : Nat) (f : Cluster → Cluster) : (s.modCluster c f).tickets = s.tickets := rfl
@[simp] theorem modCluster_nextId (s : State) (c : Nat) (f : Cluster → Cluster) : (s.modCluster c f).nextId = s.nextId := rfl
@[simp] theorem modCluster_agenda (s : State) (c : Nat) (f : Cluster → Cluster) : (s.modCluster c f).agenda = s.agenda := rfl
@[simp] theorem modCluster_unit (s : State) (c : Nat) (f : Cluster → Cluster) : (s.modCluster c f).unit = s.unit := rfl
@[simp] theorem modCluster_cur (s : State) (c : Nat) (f : Cluster → Cluster) : (s.modCluster c f).cur = s.cur := rfl
@[simp] theorem modCluster_bus (s : State) (c : Nat) (f : Cluster → Cluster) : (s.modCluster c f).bus = s.bus := rfl
@[simp] theorem modCluster_free (s : State) (c : Nat) (f : Cluster → Cluster) : (s.modCluster c f).free = s.free := rfl
@[simp] theorem modCluster_routes (s : State) (c : Nat) (f : Cluster → Cluster) : (s.modCluster c f).routes = s.routes := rfl
@[simp] theorem modCluster_waiting (s : State) (c : Nat) (f : Cluster → Cluster) : (s.modCluster c f).waiting = s.waiting := rfl
@[simp] theorem modCluster_fmiss (s : State) (c : Nat) (f : Cluster → Cluster) : (s.modCluster c f).fmiss = s.fmiss := rfl

@[simp] theorem push_tick (s : State) (l : List Turn) : (s.push l).tick = s.tick := rfl
@[simp] theorem push_stage (s : State) (l : List Turn) : (s.push l).stage = s.stage := rfl
@[simp] theorem push_recovery (s : State) (l : List Turn) : (s.push l).recovery = s.recovery := rfl
@[simp] theorem push_cfg (s : State) (l : List Turn) : (s.push l).cfg = s.cfg := rfl
@[simp] theorem push_flash (s : State) (l : List Turn) : (s.push l).flash = s.flash := rfl
@[simp] theorem push_minver (s : State) (l : List Turn) : (s.push l).minver = s.minver := rfl
@[simp] theorem push_booted (s : State) (l : List Turn) : (s.push l).booted = s.booted := rfl
@[simp] theorem push_mem (s : State) (l : List Turn) : (s.push l).mem = s.mem := rfl
@[simp] theorem push_memKey (s : State) (l : List Turn) : (s.push l).memKey = s.memKey := rfl
@[simp] theorem push_keyGen (s : State) (l : List Turn) : (s.push l).keyGen = s.keyGen := rfl
@[simp] theorem push_tlb (s : State) (l : List Turn) : (s.push l).tlb = s.tlb := rfl
@[simp] theorem push_waves (s : State) (l : List Turn) : (s.push l).waves = s.waves := rfl
@[simp] theorem push_blocks (s : State) (l : List Turn) : (s.push l).blocks = s.blocks := rfl
@[simp] theorem push_gangs (s : State) (l : List Turn) : (s.push l).gangs = s.gangs := rfl
@[simp] theorem push_grids (s : State) (l : List Turn) : (s.push l).grids = s.grids := rfl
@[simp] theorem push_ctxs (s : State) (l : List Turn) : (s.push l).ctxs = s.ctxs := rfl
@[simp] theorem push_queues (s : State) (l : List Turn) : (s.push l).queues = s.queues := rfl
@[simp] theorem push_rooms (s : State) (l : List Turn) : (s.push l).rooms = s.rooms := rfl
@[simp] theorem push_clusters (s : State) (l : List Turn) : (s.push l).clusters = s.clusters := rfl
@[simp] theorem push_sensors (s : State) (l : List Turn) : (s.push l).sensors = s.sensors := rfl
@[simp] theorem push_watch (s : State) (l : List Turn) : (s.push l).watch = s.watch := rfl
@[simp] theorem push_matrix (s : State) (l : List Turn) : (s.push l).matrix = s.matrix := rfl
@[simp] theorem push_slots (s : State) (l : List Turn) : (s.push l).slots = s.slots := rfl
@[simp] theorem push_ports (s : State) (l : List Turn) : (s.push l).ports = s.ports := rfl
@[simp] theorem push_unreach (s : State) (l : List Turn) : (s.push l).unreach = s.unreach := rfl
@[simp] theorem push_parts (s : State) (l : List Turn) : (s.push l).parts = s.parts := rfl
@[simp] theorem push_prods (s : State) (l : List Turn) : (s.push l).prods = s.prods := rfl
@[simp] theorem push_hall (s : State) (l : List Turn) : (s.push l).hall = s.hall := rfl
@[simp] theorem push_copies (s : State) (l : List Turn) : (s.push l).copies = s.copies := rfl
@[simp] theorem push_sysCommits (s : State) (l : List Turn) : (s.push l).sysCommits = s.sysCommits := rfl
@[simp] theorem push_staged (s : State) (l : List Turn) : (s.push l).staged = s.staged := rfl
@[simp] theorem push_fbuf (s : State) (l : List Turn) : (s.push l).fbuf = s.fbuf := rfl
@[simp] theorem push_fseq (s : State) (l : List Turn) : (s.push l).fseq = s.fseq := rfl
@[simp] theorem push_fwidx (s : State) (l : List Turn) : (s.push l).fwidx = s.fwidx := rfl
@[simp] theorem push_fridx (s : State) (l : List Turn) : (s.push l).fridx = s.fridx := rfl
@[simp] theorem push_counters (s : State) (l : List Turn) : (s.push l).counters = s.counters := rfl
@[simp] theorem push_clocks (s : State) (l : List Turn) : (s.push l).clocks = s.clocks := rfl
@[simp] theorem push_refill (s : State) (l : List Turn) : (s.push l).refill = s.refill := rfl
@[simp] theorem push_mods (s : State) (l : List Turn) : (s.push l).mods = s.mods := rfl
@[simp] theorem push_tickets (s : State) (l : List Turn) : (s.push l).tickets = s.tickets := rfl
@[simp] theorem push_nextId (s : State) (l : List Turn) : (s.push l).nextId = s.nextId := rfl
@[simp] theorem push_unit (s : State) (l : List Turn) : (s.push l).unit = s.unit := rfl
@[simp] theorem push_cur (s : State) (l : List Turn) : (s.push l).cur = s.cur := rfl
@[simp] theorem push_bus (s : State) (l : List Turn) : (s.push l).bus = s.bus := rfl
@[simp] theorem push_free (s : State) (l : List Turn) : (s.push l).free = s.free := rfl
@[simp] theorem push_routes (s : State) (l : List Turn) : (s.push l).routes = s.routes := rfl
@[simp] theorem push_waiting (s : State) (l : List Turn) : (s.push l).waiting = s.waiting := rfl
@[simp] theorem push_fmiss (s : State) (l : List Turn) : (s.push l).fmiss = s.fmiss := rfl

end Sys2Proof.Machine.State
end

