-- ==== Sys2Proof/Laws/Wave.lean ====
section
/-! SUPPORT. What each update of a wave leaves alone, one lemma per field. -/

namespace Sys2Proof.Machine.Wave

@[simp] theorem setPred_ctx (v : Wave) (p : Nat) (m x : Mask) : (v.setPred p m x).ctx = v.ctx := by unfold setPred; split <;> rfl
@[simp] theorem setPred_grid (v : Wave) (p : Nat) (m x : Mask) : (v.setPred p m x).grid = v.grid := by unfold setPred; split <;> rfl
@[simp] theorem setPred_gang (v : Wave) (p : Nat) (m x : Mask) : (v.setPred p m x).gang = v.gang := by unfold setPred; split <;> rfl
@[simp] theorem setPred_blk (v : Wave) (p : Nat) (m x : Mask) : (v.setPred p m x).blk = v.blk := by unfold setPred; split <;> rfl
@[simp] theorem setPred_idx (v : Wave) (p : Nat) (m x : Mask) : (v.setPred p m x).idx = v.idx := by unfold setPred; split <;> rfl
@[simp] theorem setPred_place (v : Wave) (p : Nat) (m x : Mask) : (v.setPred p m x).place = v.place := by unfold setPred; split <;> rfl
@[simp] theorem setPred_priv (v : Wave) (p : Nat) (m x : Mask) : (v.setPred p m x).priv = v.priv := by unfold setPred; split <;> rfl
@[simp] theorem setPred_age (v : Wave) (p : Nat) (m x : Mask) : (v.setPred p m x).age = v.age := by unfold setPred; split <;> rfl
@[simp] theorem setPred_st (v : Wave) (p : Nat) (m x : Mask) : (v.setPred p m x).st = v.st := by unfold setPred; split <;> rfl
@[simp] theorem setPred_seat (v : Wave) (p : Nat) (m x : Mask) : (v.setPred p m x).seat = v.seat := by unfold setPred; split <;> rfl
@[simp] theorem setPred_passed (v : Wave) (p : Nat) (m x : Mask) : (v.setPred p m x).passed = v.passed := by unfold setPred; split <;> rfl
@[simp] theorem setPred_yielded (v : Wave) (p : Nat) (m x : Mask) : (v.setPred p m x).yielded = v.yielded := by unfold setPred; split <;> rfl
@[simp] theorem setPred_waitSince (v : Wave) (p : Nat) (m x : Mask) : (v.setPred p m x).waitSince = v.waitSince := by unfold setPred; split <;> rfl
@[simp] theorem setPred_whole (v : Wave) (p : Nat) (m x : Mask) : (v.setPred p m x).whole = v.whole := by unfold setPred; split <;> rfl
@[simp] theorem setPred_helper (v : Wave) (p : Nat) (m x : Mask) : (v.setPred p m x).helper = v.helper := by unfold setPred; split <;> rfl
@[simp] theorem setPred_slot0 (v : Wave) (p : Nat) (m x : Mask) : (v.setPred p m x).slot0 = v.slot0 := by unfold setPred; split <;> rfl
@[simp] theorem setPred_slot1 (v : Wave) (p : Nat) (m x : Mask) : (v.setPred p m x).slot1 = v.slot1 := by unfold setPred; split <;> rfl
@[simp] theorem setPred_lastSlot (v : Wave) (p : Nat) (m x : Mask) : (v.setPred p m x).lastSlot = v.lastSlot := by unfold setPred; split <;> rfl
@[simp] theorem setPred_stack (v : Wave) (p : Nat) (m x : Mask) : (v.setPred p m x).stack = v.stack := by unfold setPred; split <;> rfl
@[simp] theorem setPred_ents (v : Wave) (p : Nat) (m x : Mask) : (v.setPred p m x).ents = v.ents := by unfold setPred; split <;> rfl
@[simp] theorem setPred_bases (v : Wave) (p : Nat) (m x : Mask) : (v.setPred p m x).bases = v.bases := by unfold setPred; split <;> rfl
@[simp] theorem setPred_flags (v : Wave) (p : Nat) (m x : Mask) : (v.setPred p m x).flags = v.flags := by unfold setPred; split <;> rfl
@[simp] theorem setPred_fpen (v : Wave) (p : Nat) (m x : Mask) : (v.setPred p m x).fpen = v.fpen := by unfold setPred; split <;> rfl
@[simp] theorem setPred_rng (v : Wave) (p : Nat) (m x : Mask) : (v.setPred p m x).rng = v.rng := by unfold setPred; split <;> rfl
@[simp] theorem setPred_tickCap (v : Wave) (p : Nat) (m x : Mask) : (v.setPred p m x).tickCap = v.tickCap := by unfold setPred; split <;> rfl
@[simp] theorem setPred_paths (v : Wave) (p : Nat) (m x : Mask) : (v.setPred p m x).paths = v.paths := by unfold setPred; split <;> rfl
@[simp] theorem setPred_bufD (v : Wave) (p : Nat) (m x : Mask) : (v.setPred p m x).bufD = v.bufD := by unfold setPred; split <;> rfl
@[simp] theorem setPred_bufS (v : Wave) (p : Nat) (m x : Mask) : (v.setPred p m x).bufS = v.bufS := by unfold setPred; split <;> rfl
@[simp] theorem setPred_trk (v : Wave) (p : Nat) (m x : Mask) : (v.setPred p m x).trk = v.trk := by unfold setPred; split <;> rfl
@[simp] theorem setPred_hash (v : Wave) (p : Nat) (m x : Mask) : (v.setPred p m x).hash = v.hash := by unfold setPred; split <;> rfl
@[simp] theorem setPred_frame (v : Wave) (p : Nat) (m x : Mask) : (v.setPred p m x).frame = v.frame := by unfold setPred; split <;> rfl
@[simp] theorem setPred_frameAtt (v : Wave) (p : Nat) (m x : Mask) : (v.setPred p m x).frameAtt = v.frameAtt := by unfold setPred; split <;> rfl
@[simp] theorem setPred_frameHold0 (v : Wave) (p : Nat) (m x : Mask) : (v.setPred p m x).frameHold0 = v.frameHold0 := by unfold setPred; split <;> rfl
@[simp] theorem setPred_frameHold1 (v : Wave) (p : Nat) (m x : Mask) : (v.setPred p m x).frameHold1 = v.frameHold1 := by unfold setPred; split <;> rfl
@[simp] theorem setPred_inHandler (v : Wave) (p : Nat) (m x : Mask) : (v.setPred p m x).inHandler = v.inHandler := by unfold setPred; split <;> rfl
@[simp] theorem setPred_late (v : Wave) (p : Nat) (m x : Mask) : (v.setPred p m x).late = v.late := by unfold setPred; split <;> rfl
@[simp] theorem setPred_halt (v : Wave) (p : Nat) (m x : Mask) : (v.setPred p m x).halt = v.halt := by unfold setPred; split <;> rfl
@[simp] theorem setPred_gangHalt (v : Wave) (p : Nat) (m x : Mask) : (v.setPred p m x).gangHalt = v.gangHalt := by unfold setPred; split <;> rfl
@[simp] theorem setPred_denied (v : Wave) (p : Nat) (m x : Mask) : (v.setPred p m x).denied = v.denied := by unfold setPred; split <;> rfl
@[simp] theorem setPred_parkTime (v : Wave) (p : Nat) (m x : Mask) : (v.setPred p m x).parkTime = v.parkTime := by unfold setPred; split <;> rfl
@[simp] theorem setPred_haltDue (v : Wave) (p : Nat) (m x : Mask) : (v.setPred p m x).haltDue = v.haltDue := by unfold setPred; split <;> rfl
@[simp] theorem setPred_kept (v : Wave) (p : Nat) (m x : Mask) : (v.setPred p m x).kept = v.kept := by unfold setPred; split <;> rfl

@[simp] theorem setBase_ctx (v : Wave) (i : Fin 8) (x : VA) : (v.setBase i x).ctx = v.ctx := rfl
@[simp] theorem setBase_grid (v : Wave) (i : Fin 8) (x : VA) : (v.setBase i x).grid = v.grid := rfl
@[simp] theorem setBase_gang (v : Wave) (i : Fin 8) (x : VA) : (v.setBase i x).gang = v.gang := rfl
@[simp] theorem setBase_blk (v : Wave) (i : Fin 8) (x : VA) : (v.setBase i x).blk = v.blk := rfl
@[simp] theorem setBase_idx (v : Wave) (i : Fin 8) (x : VA) : (v.setBase i x).idx = v.idx := rfl
@[simp] theorem setBase_place (v : Wave) (i : Fin 8) (x : VA) : (v.setBase i x).place = v.place := rfl
@[simp] theorem setBase_priv (v : Wave) (i : Fin 8) (x : VA) : (v.setBase i x).priv = v.priv := rfl
@[simp] theorem setBase_age (v : Wave) (i : Fin 8) (x : VA) : (v.setBase i x).age = v.age := rfl
@[simp] theorem setBase_st (v : Wave) (i : Fin 8) (x : VA) : (v.setBase i x).st = v.st := rfl
@[simp] theorem setBase_seat (v : Wave) (i : Fin 8) (x : VA) : (v.setBase i x).seat = v.seat := rfl
@[simp] theorem setBase_passed (v : Wave) (i : Fin 8) (x : VA) : (v.setBase i x).passed = v.passed := rfl
@[simp] theorem setBase_yielded (v : Wave) (i : Fin 8) (x : VA) : (v.setBase i x).yielded = v.yielded := rfl
@[simp] theorem setBase_waitSince (v : Wave) (i : Fin 8) (x : VA) : (v.setBase i x).waitSince = v.waitSince := rfl
@[simp] theorem setBase_whole (v : Wave) (i : Fin 8) (x : VA) : (v.setBase i x).whole = v.whole := rfl
@[simp] theorem setBase_helper (v : Wave) (i : Fin 8) (x : VA) : (v.setBase i x).helper = v.helper := rfl
@[simp] theorem setBase_slot0 (v : Wave) (i : Fin 8) (x : VA) : (v.setBase i x).slot0 = v.slot0 := rfl
@[simp] theorem setBase_slot1 (v : Wave) (i : Fin 8) (x : VA) : (v.setBase i x).slot1 = v.slot1 := rfl
@[simp] theorem setBase_lastSlot (v : Wave) (i : Fin 8) (x : VA) : (v.setBase i x).lastSlot = v.lastSlot := rfl
@[simp] theorem setBase_stack (v : Wave) (i : Fin 8) (x : VA) : (v.setBase i x).stack = v.stack := rfl
@[simp] theorem setBase_ents (v : Wave) (i : Fin 8) (x : VA) : (v.setBase i x).ents = v.ents := rfl
@[simp] theorem setBase_preds (v : Wave) (i : Fin 8) (x : VA) : (v.setBase i x).preds = v.preds := rfl
@[simp] theorem setBase_flags (v : Wave) (i : Fin 8) (x : VA) : (v.setBase i x).flags = v.flags := rfl
@[simp] theorem setBase_fpen (v : Wave) (i : Fin 8) (x : VA) : (v.setBase i x).fpen = v.fpen := rfl
@[simp] theorem setBase_rng (v : Wave) (i : Fin 8) (x : VA) : (v.setBase i x).rng = v.rng := rfl
@[simp] theorem setBase_tickCap (v : Wave) (i : Fin 8) (x : VA) : (v.setBase i x).tickCap = v.tickCap := rfl
@[simp] theorem setBase_paths (v : Wave) (i : Fin 8) (x : VA) : (v.setBase i x).paths = v.paths := rfl
@[simp] theorem setBase_bufD (v : Wave) (i : Fin 8) (x : VA) : (v.setBase i x).bufD = v.bufD := rfl
@[simp] theorem setBase_bufS (v : Wave) (i : Fin 8) (x : VA) : (v.setBase i x).bufS = v.bufS := rfl
@[simp] theorem setBase_trk (v : Wave) (i : Fin 8) (x : VA) : (v.setBase i x).trk = v.trk := rfl
@[simp] theorem setBase_hash (v : Wave) (i : Fin 8) (x : VA) : (v.setBase i x).hash = v.hash := rfl
@[simp] theorem setBase_frame (v : Wave) (i : Fin 8) (x : VA) : (v.setBase i x).frame = v.frame := rfl
@[simp] theorem setBase_frameAtt (v : Wave) (i : Fin 8) (x : VA) : (v.setBase i x).frameAtt = v.frameAtt := rfl
@[simp] theorem setBase_frameHold0 (v : Wave) (i : Fin 8) (x : VA) : (v.setBase i x).frameHold0 = v.frameHold0 := rfl
@[simp] theorem setBase_frameHold1 (v : Wave) (i : Fin 8) (x : VA) : (v.setBase i x).frameHold1 = v.frameHold1 := rfl
@[simp] theorem setBase_inHandler (v : Wave) (i : Fin 8) (x : VA) : (v.setBase i x).inHandler = v.inHandler := rfl
@[simp] theorem setBase_late (v : Wave) (i : Fin 8) (x : VA) : (v.setBase i x).late = v.late := rfl
@[simp] theorem setBase_halt (v : Wave) (i : Fin 8) (x : VA) : (v.setBase i x).halt = v.halt := rfl
@[simp] theorem setBase_gangHalt (v : Wave) (i : Fin 8) (x : VA) : (v.setBase i x).gangHalt = v.gangHalt := rfl
@[simp] theorem setBase_denied (v : Wave) (i : Fin 8) (x : VA) : (v.setBase i x).denied = v.denied := rfl
@[simp] theorem setBase_parkTime (v : Wave) (i : Fin 8) (x : VA) : (v.setBase i x).parkTime = v.parkTime := rfl
@[simp] theorem setBase_haltDue (v : Wave) (i : Fin 8) (x : VA) : (v.setBase i x).haltDue = v.haltDue := rfl
@[simp] theorem setBase_kept (v : Wave) (i : Fin 8) (x : VA) : (v.setBase i x).kept = v.kept := rfl

@[simp] theorem put_ctx (v : Wave) (e l : Nat) (x : Word) : (v.put e l x).ctx = v.ctx := rfl
@[simp] theorem put_grid (v : Wave) (e l : Nat) (x : Word) : (v.put e l x).grid = v.grid := rfl
@[simp] theorem put_gang (v : Wave) (e l : Nat) (x : Word) : (v.put e l x).gang = v.gang := rfl
@[simp] theorem put_blk (v : Wave) (e l : Nat) (x : Word) : (v.put e l x).blk = v.blk := rfl
@[simp] theorem put_idx (v : Wave) (e l : Nat) (x : Word) : (v.put e l x).idx = v.idx := rfl
@[simp] theorem put_place (v : Wave) (e l : Nat) (x : Word) : (v.put e l x).place = v.place := rfl
@[simp] theorem put_priv (v : Wave) (e l : Nat) (x : Word) : (v.put e l x).priv = v.priv := rfl
@[simp] theorem put_age (v : Wave) (e l : Nat) (x : Word) : (v.put e l x).age = v.age := rfl
@[simp] theorem put_st (v : Wave) (e l : Nat) (x : Word) : (v.put e l x).st = v.st := rfl
@[simp] theorem put_seat (v : Wave) (e l : Nat) (x : Word) : (v.put e l x).seat = v.seat := rfl
@[simp] theorem put_passed (v : Wave) (e l : Nat) (x : Word) : (v.put e l x).passed = v.passed := rfl
@[simp] theorem put_yielded (v : Wave) (e l : Nat) (x : Word) : (v.put e l x).yielded = v.yielded := rfl
@[simp] theorem put_waitSince (v : Wave) (e l : Nat) (x : Word) : (v.put e l x).waitSince = v.waitSince := rfl
@[simp] theorem put_whole (v : Wave) (e l : Nat) (x : Word) : (v.put e l x).whole = v.whole := rfl
@[simp] theorem put_helper (v : Wave) (e l : Nat) (x : Word) : (v.put e l x).helper = v.helper := rfl
@[simp] theorem put_slot0 (v : Wave) (e l : Nat) (x : Word) : (v.put e l x).slot0 = v.slot0 := rfl
@[simp] theorem put_slot1 (v : Wave) (e l : Nat) (x : Word) : (v.put e l x).slot1 = v.slot1 := rfl
@[simp] theorem put_lastSlot (v : Wave) (e l : Nat) (x : Word) : (v.put e l x).lastSlot = v.lastSlot := rfl
@[simp] theorem put_stack (v : Wave) (e l : Nat) (x : Word) : (v.put e l x).stack = v.stack := rfl
@[simp] theorem put_preds (v : Wave) (e l : Nat) (x : Word) : (v.put e l x).preds = v.preds := rfl
@[simp] theorem put_bases (v : Wave) (e l : Nat) (x : Word) : (v.put e l x).bases = v.bases := rfl
@[simp] theorem put_flags (v : Wave) (e l : Nat) (x : Word) : (v.put e l x).flags = v.flags := rfl
@[simp] theorem put_fpen (v : Wave) (e l : Nat) (x : Word) : (v.put e l x).fpen = v.fpen := rfl
@[simp] theorem put_rng (v : Wave) (e l : Nat) (x : Word) : (v.put e l x).rng = v.rng := rfl
@[simp] theorem put_tickCap (v : Wave) (e l : Nat) (x : Word) : (v.put e l x).tickCap = v.tickCap := rfl
@[simp] theorem put_paths (v : Wave) (e l : Nat) (x : Word) : (v.put e l x).paths = v.paths := rfl
@[simp] theorem put_bufD (v : Wave) (e l : Nat) (x : Word) : (v.put e l x).bufD = v.bufD := rfl
@[simp] theorem put_bufS (v : Wave) (e l : Nat) (x : Word) : (v.put e l x).bufS = v.bufS := rfl
@[simp] theorem put_trk (v : Wave) (e l : Nat) (x : Word) : (v.put e l x).trk = v.trk := rfl
@[simp] theorem put_hash (v : Wave) (e l : Nat) (x : Word) : (v.put e l x).hash = v.hash := rfl
@[simp] theorem put_frame (v : Wave) (e l : Nat) (x : Word) : (v.put e l x).frame = v.frame := rfl
@[simp] theorem put_frameAtt (v : Wave) (e l : Nat) (x : Word) : (v.put e l x).frameAtt = v.frameAtt := rfl
@[simp] theorem put_frameHold0 (v : Wave) (e l : Nat) (x : Word) : (v.put e l x).frameHold0 = v.frameHold0 := rfl
@[simp] theorem put_frameHold1 (v : Wave) (e l : Nat) (x : Word) : (v.put e l x).frameHold1 = v.frameHold1 := rfl
@[simp] theorem put_inHandler (v : Wave) (e l : Nat) (x : Word) : (v.put e l x).inHandler = v.inHandler := rfl
@[simp] theorem put_late (v : Wave) (e l : Nat) (x : Word) : (v.put e l x).late = v.late := rfl
@[simp] theorem put_halt (v : Wave) (e l : Nat) (x : Word) : (v.put e l x).halt = v.halt := rfl
@[simp] theorem put_gangHalt (v : Wave) (e l : Nat) (x : Word) : (v.put e l x).gangHalt = v.gangHalt := rfl
@[simp] theorem put_denied (v : Wave) (e l : Nat) (x : Word) : (v.put e l x).denied = v.denied := rfl
@[simp] theorem put_parkTime (v : Wave) (e l : Nat) (x : Word) : (v.put e l x).parkTime = v.parkTime := rfl
@[simp] theorem put_haltDue (v : Wave) (e l : Nat) (x : Word) : (v.put e l x).haltDue = v.haltDue := rfl
@[simp] theorem put_kept (v : Wave) (e l : Nat) (x : Word) : (v.put e l x).kept = v.kept := rfl

@[simp] theorem mark_ctx (v : Wave) (e l : Nat) (c : CellSt) : (v.mark e l c).ctx = v.ctx := rfl
@[simp] theorem mark_grid (v : Wave) (e l : Nat) (c : CellSt) : (v.mark e l c).grid = v.grid := rfl
@[simp] theorem mark_gang (v : Wave) (e l : Nat) (c : CellSt) : (v.mark e l c).gang = v.gang := rfl
@[simp] theorem mark_blk (v : Wave) (e l : Nat) (c : CellSt) : (v.mark e l c).blk = v.blk := rfl
@[simp] theorem mark_idx (v : Wave) (e l : Nat) (c : CellSt) : (v.mark e l c).idx = v.idx := rfl
@[simp] theorem mark_place (v : Wave) (e l : Nat) (c : CellSt) : (v.mark e l c).place = v.place := rfl
@[simp] theorem mark_priv (v : Wave) (e l : Nat) (c : CellSt) : (v.mark e l c).priv = v.priv := rfl
@[simp] theorem mark_age (v : Wave) (e l : Nat) (c : CellSt) : (v.mark e l c).age = v.age := rfl
@[simp] theorem mark_st (v : Wave) (e l : Nat) (c : CellSt) : (v.mark e l c).st = v.st := rfl
@[simp] theorem mark_seat (v : Wave) (e l : Nat) (c : CellSt) : (v.mark e l c).seat = v.seat := rfl
@[simp] theorem mark_passed (v : Wave) (e l : Nat) (c : CellSt) : (v.mark e l c).passed = v.passed := rfl
@[simp] theorem mark_yielded (v : Wave) (e l : Nat) (c : CellSt) : (v.mark e l c).yielded = v.yielded := rfl
@[simp] theorem mark_waitSince (v : Wave) (e l : Nat) (c : CellSt) : (v.mark e l c).waitSince = v.waitSince := rfl
@[simp] theorem mark_whole (v : Wave) (e l : Nat) (c : CellSt) : (v.mark e l c).whole = v.whole := rfl
@[simp] theorem mark_helper (v : Wave) (e l : Nat) (c : CellSt) : (v.mark e l c).helper = v.helper := rfl
@[simp] theorem mark_slot0 (v : Wave) (e l : Nat) (c : CellSt) : (v.mark e l c).slot0 = v.slot0 := rfl
@[simp] theorem mark_slot1 (v : Wave) (e l : Nat) (c : CellSt) : (v.mark e l c).slot1 = v.slot1 := rfl
@[simp] theorem mark_lastSlot (v : Wave) (e l : Nat) (c : CellSt) : (v.mark e l c).lastSlot = v.lastSlot := rfl
@[simp] theorem mark_stack (v : Wave) (e l : Nat) (c : CellSt) : (v.mark e l c).stack = v.stack := rfl
@[simp] theorem mark_preds (v : Wave) (e l : Nat) (c : CellSt) : (v.mark e l c).preds = v.preds := rfl
@[simp] theorem mark_bases (v : Wave) (e l : Nat) (c : CellSt) : (v.mark e l c).bases = v.bases := rfl
@[simp] theorem mark_flags (v : Wave) (e l : Nat) (c : CellSt) : (v.mark e l c).flags = v.flags := rfl
@[simp] theorem mark_fpen (v : Wave) (e l : Nat) (c : CellSt) : (v.mark e l c).fpen = v.fpen := rfl
@[simp] theorem mark_rng (v : Wave) (e l : Nat) (c : CellSt) : (v.mark e l c).rng = v.rng := rfl
@[simp] theorem mark_tickCap (v : Wave) (e l : Nat) (c : CellSt) : (v.mark e l c).tickCap = v.tickCap := rfl
@[simp] theorem mark_paths (v : Wave) (e l : Nat) (c : CellSt) : (v.mark e l c).paths = v.paths := rfl
@[simp] theorem mark_bufD (v : Wave) (e l : Nat) (c : CellSt) : (v.mark e l c).bufD = v.bufD := rfl
@[simp] theorem mark_bufS (v : Wave) (e l : Nat) (c : CellSt) : (v.mark e l c).bufS = v.bufS := rfl
@[simp] theorem mark_trk (v : Wave) (e l : Nat) (c : CellSt) : (v.mark e l c).trk = v.trk := rfl
@[simp] theorem mark_hash (v : Wave) (e l : Nat) (c : CellSt) : (v.mark e l c).hash = v.hash := rfl
@[simp] theorem mark_frame (v : Wave) (e l : Nat) (c : CellSt) : (v.mark e l c).frame = v.frame := rfl
@[simp] theorem mark_frameAtt (v : Wave) (e l : Nat) (c : CellSt) : (v.mark e l c).frameAtt = v.frameAtt := rfl
@[simp] theorem mark_frameHold0 (v : Wave) (e l : Nat) (c : CellSt) : (v.mark e l c).frameHold0 = v.frameHold0 := rfl
@[simp] theorem mark_frameHold1 (v : Wave) (e l : Nat) (c : CellSt) : (v.mark e l c).frameHold1 = v.frameHold1 := rfl
@[simp] theorem mark_inHandler (v : Wave) (e l : Nat) (c : CellSt) : (v.mark e l c).inHandler = v.inHandler := rfl
@[simp] theorem mark_late (v : Wave) (e l : Nat) (c : CellSt) : (v.mark e l c).late = v.late := rfl
@[simp] theorem mark_halt (v : Wave) (e l : Nat) (c : CellSt) : (v.mark e l c).halt = v.halt := rfl
@[simp] theorem mark_gangHalt (v : Wave) (e l : Nat) (c : CellSt) : (v.mark e l c).gangHalt = v.gangHalt := rfl
@[simp] theorem mark_denied (v : Wave) (e l : Nat) (c : CellSt) : (v.mark e l c).denied = v.denied := rfl
@[simp] theorem mark_parkTime (v : Wave) (e l : Nat) (c : CellSt) : (v.mark e l c).parkTime = v.parkTime := rfl
@[simp] theorem mark_haltDue (v : Wave) (e l : Nat) (c : CellSt) : (v.mark e l c).haltDue = v.haltDue := rfl
@[simp] theorem mark_kept (v : Wave) (e l : Nat) (c : CellSt) : (v.mark e l c).kept = v.kept := rfl

@[simp] theorem setFlags_ctx (v : Wave) (l : Nat) (f : FFlags) : (v.setFlags l f).ctx = v.ctx := rfl
@[simp] theorem setFlags_grid (v : Wave) (l : Nat) (f : FFlags) : (v.setFlags l f).grid = v.grid := rfl
@[simp] theorem setFlags_gang (v : Wave) (l : Nat) (f : FFlags) : (v.setFlags l f).gang = v.gang := rfl
@[simp] theorem setFlags_blk (v : Wave) (l : Nat) (f : FFlags) : (v.setFlags l f).blk = v.blk := rfl
@[simp] theorem setFlags_idx (v : Wave) (l : Nat) (f : FFlags) : (v.setFlags l f).idx = v.idx := rfl
@[simp] theorem setFlags_place (v : Wave) (l : Nat) (f : FFlags) : (v.setFlags l f).place = v.place := rfl
@[simp] theorem setFlags_priv (v : Wave) (l : Nat) (f : FFlags) : (v.setFlags l f).priv = v.priv := rfl
@[simp] theorem setFlags_age (v : Wave) (l : Nat) (f : FFlags) : (v.setFlags l f).age = v.age := rfl
@[simp] theorem setFlags_st (v : Wave) (l : Nat) (f : FFlags) : (v.setFlags l f).st = v.st := rfl
@[simp] theorem setFlags_seat (v : Wave) (l : Nat) (f : FFlags) : (v.setFlags l f).seat = v.seat := rfl
@[simp] theorem setFlags_passed (v : Wave) (l : Nat) (f : FFlags) : (v.setFlags l f).passed = v.passed := rfl
@[simp] theorem setFlags_yielded (v : Wave) (l : Nat) (f : FFlags) : (v.setFlags l f).yielded = v.yielded := rfl
@[simp] theorem setFlags_waitSince (v : Wave) (l : Nat) (f : FFlags) : (v.setFlags l f).waitSince = v.waitSince := rfl
@[simp] theorem setFlags_whole (v : Wave) (l : Nat) (f : FFlags) : (v.setFlags l f).whole = v.whole := rfl
@[simp] theorem setFlags_helper (v : Wave) (l : Nat) (f : FFlags) : (v.setFlags l f).helper = v.helper := rfl
@[simp] theorem setFlags_slot0 (v : Wave) (l : Nat) (f : FFlags) : (v.setFlags l f).slot0 = v.slot0 := rfl
@[simp] theorem setFlags_slot1 (v : Wave) (l : Nat) (f : FFlags) : (v.setFlags l f).slot1 = v.slot1 := rfl
@[simp] theorem setFlags_lastSlot (v : Wave) (l : Nat) (f : FFlags) : (v.setFlags l f).lastSlot = v.lastSlot := rfl
@[simp] theorem setFlags_stack (v : Wave) (l : Nat) (f : FFlags) : (v.setFlags l f).stack = v.stack := rfl
@[simp] theorem setFlags_ents (v : Wave) (l : Nat) (f : FFlags) : (v.setFlags l f).ents = v.ents := rfl
@[simp] theorem setFlags_preds (v : Wave) (l : Nat) (f : FFlags) : (v.setFlags l f).preds = v.preds := rfl
@[simp] theorem setFlags_bases (v : Wave) (l : Nat) (f : FFlags) : (v.setFlags l f).bases = v.bases := rfl
@[simp] theorem setFlags_fpen (v : Wave) (l : Nat) (f : FFlags) : (v.setFlags l f).fpen = v.fpen := rfl
@[simp] theorem setFlags_rng (v : Wave) (l : Nat) (f : FFlags) : (v.setFlags l f).rng = v.rng := rfl
@[simp] theorem setFlags_tickCap (v : Wave) (l : Nat) (f : FFlags) : (v.setFlags l f).tickCap = v.tickCap := rfl
@[simp] theorem setFlags_paths (v : Wave) (l : Nat) (f : FFlags) : (v.setFlags l f).paths = v.paths := rfl
@[simp] theorem setFlags_bufD (v : Wave) (l : Nat) (f : FFlags) : (v.setFlags l f).bufD = v.bufD := rfl
@[simp] theorem setFlags_bufS (v : Wave) (l : Nat) (f : FFlags) : (v.setFlags l f).bufS = v.bufS := rfl
@[simp] theorem setFlags_trk (v : Wave) (l : Nat) (f : FFlags) : (v.setFlags l f).trk = v.trk := rfl
@[simp] theorem setFlags_hash (v : Wave) (l : Nat) (f : FFlags) : (v.setFlags l f).hash = v.hash := rfl
@[simp] theorem setFlags_frame (v : Wave) (l : Nat) (f : FFlags) : (v.setFlags l f).frame = v.frame := rfl
@[simp] theorem setFlags_frameAtt (v : Wave) (l : Nat) (f : FFlags) : (v.setFlags l f).frameAtt = v.frameAtt := rfl
@[simp] theorem setFlags_frameHold0 (v : Wave) (l : Nat) (f : FFlags) : (v.setFlags l f).frameHold0 = v.frameHold0 := rfl
@[simp] theorem setFlags_frameHold1 (v : Wave) (l : Nat) (f : FFlags) : (v.setFlags l f).frameHold1 = v.frameHold1 := rfl
@[simp] theorem setFlags_inHandler (v : Wave) (l : Nat) (f : FFlags) : (v.setFlags l f).inHandler = v.inHandler := rfl
@[simp] theorem setFlags_late (v : Wave) (l : Nat) (f : FFlags) : (v.setFlags l f).late = v.late := rfl
@[simp] theorem setFlags_halt (v : Wave) (l : Nat) (f : FFlags) : (v.setFlags l f).halt = v.halt := rfl
@[simp] theorem setFlags_gangHalt (v : Wave) (l : Nat) (f : FFlags) : (v.setFlags l f).gangHalt = v.gangHalt := rfl
@[simp] theorem setFlags_denied (v : Wave) (l : Nat) (f : FFlags) : (v.setFlags l f).denied = v.denied := rfl
@[simp] theorem setFlags_parkTime (v : Wave) (l : Nat) (f : FFlags) : (v.setFlags l f).parkTime = v.parkTime := rfl
@[simp] theorem setFlags_haltDue (v : Wave) (l : Nat) (f : FFlags) : (v.setFlags l f).haltDue = v.haltDue := rfl
@[simp] theorem setFlags_kept (v : Wave) (l : Nat) (f : FFlags) : (v.setFlags l f).kept = v.kept := rfl

@[simp] theorem addPath_ctx (v : Wave) (k n : Nat) : (v.addPath k n).ctx = v.ctx := by unfold addPath; split <;> rfl
@[simp] theorem addPath_grid (v : Wave) (k n : Nat) : (v.addPath k n).grid = v.grid := by unfold addPath; split <;> rfl
@[simp] theorem addPath_gang (v : Wave) (k n : Nat) : (v.addPath k n).gang = v.gang := by unfold addPath; split <;> rfl
@[simp] theorem addPath_blk (v : Wave) (k n : Nat) : (v.addPath k n).blk = v.blk := by unfold addPath; split <;> rfl
@[simp] theorem addPath_idx (v : Wave) (k n : Nat) : (v.addPath k n).idx = v.idx := by unfold addPath; split <;> rfl
@[simp] theorem addPath_place (v : Wave) (k n : Nat) : (v.addPath k n).place = v.place := by unfold addPath; split <;> rfl
@[simp] theorem addPath_priv (v : Wave) (k n : Nat) : (v.addPath k n).priv = v.priv := by unfold addPath; split <;> rfl
@[simp] theorem addPath_age (v : Wave) (k n : Nat) : (v.addPath k n).age = v.age := by unfold addPath; split <;> rfl
@[simp] theorem addPath_st (v : Wave) (k n : Nat) : (v.addPath k n).st = v.st := by unfold addPath; split <;> rfl
@[simp] theorem addPath_seat (v : Wave) (k n : Nat) : (v.addPath k n).seat = v.seat := by unfold addPath; split <;> rfl
@[simp] theorem addPath_passed (v : Wave) (k n : Nat) : (v.addPath k n).passed = v.passed := by unfold addPath; split <;> rfl
@[simp] theorem addPath_yielded (v : Wave) (k n : Nat) : (v.addPath k n).yielded = v.yielded := by unfold addPath; split <;> rfl
@[simp] theorem addPath_waitSince (v : Wave) (k n : Nat) : (v.addPath k n).waitSince = v.waitSince := by unfold addPath; split <;> rfl
@[simp] theorem addPath_whole (v : Wave) (k n : Nat) : (v.addPath k n).whole = v.whole := by unfold addPath; split <;> rfl
@[simp] theorem addPath_helper (v : Wave) (k n : Nat) : (v.addPath k n).helper = v.helper := by unfold addPath; split <;> rfl
@[simp] theorem addPath_slot0 (v : Wave) (k n : Nat) : (v.addPath k n).slot0 = v.slot0 := by unfold addPath; split <;> rfl
@[simp] theorem addPath_slot1 (v : Wave) (k n : Nat) : (v.addPath k n).slot1 = v.slot1 := by unfold addPath; split <;> rfl
@[simp] theorem addPath_lastSlot (v : Wave) (k n : Nat) : (v.addPath k n).lastSlot = v.lastSlot := by unfold addPath; split <;> rfl
@[simp] theorem addPath_stack (v : Wave) (k n : Nat) : (v.addPath k n).stack = v.stack := by unfold addPath; split <;> rfl
@[simp] theorem addPath_ents (v : Wave) (k n : Nat) : (v.addPath k n).ents = v.ents := by unfold addPath; split <;> rfl
@[simp] theorem addPath_preds (v : Wave) (k n : Nat) : (v.addPath k n).preds = v.preds := by unfold addPath; split <;> rfl
@[simp] theorem addPath_bases (v : Wave) (k n : Nat) : (v.addPath k n).bases = v.bases := by unfold addPath; split <;> rfl
@[simp] theorem addPath_flags (v : Wave) (k n : Nat) : (v.addPath k n).flags = v.flags := by unfold addPath; split <;> rfl
@[simp] theorem addPath_fpen (v : Wave) (k n : Nat) : (v.addPath k n).fpen = v.fpen := by unfold addPath; split <;> rfl
@[simp] theorem addPath_rng (v : Wave) (k n : Nat) : (v.addPath k n).rng = v.rng := by unfold addPath; split <;> rfl
@[simp] theorem addPath_tickCap (v : Wave) (k n : Nat) : (v.addPath k n).tickCap = v.tickCap := by unfold addPath; split <;> rfl
@[simp] theorem addPath_bufD (v : Wave) (k n : Nat) : (v.addPath k n).bufD = v.bufD := by unfold addPath; split <;> rfl
@[simp] theorem addPath_bufS (v : Wave) (k n : Nat) : (v.addPath k n).bufS = v.bufS := by unfold addPath; split <;> rfl
@[simp] theorem addPath_trk (v : Wave) (k n : Nat) : (v.addPath k n).trk = v.trk := by unfold addPath; split <;> rfl
@[simp] theorem addPath_hash (v : Wave) (k n : Nat) : (v.addPath k n).hash = v.hash := by unfold addPath; split <;> rfl
@[simp] theorem addPath_frame (v : Wave) (k n : Nat) : (v.addPath k n).frame = v.frame := by unfold addPath; split <;> rfl
@[simp] theorem addPath_frameAtt (v : Wave) (k n : Nat) : (v.addPath k n).frameAtt = v.frameAtt := by unfold addPath; split <;> rfl
@[simp] theorem addPath_frameHold0 (v : Wave) (k n : Nat) : (v.addPath k n).frameHold0 = v.frameHold0 := by unfold addPath; split <;> rfl
@[simp] theorem addPath_frameHold1 (v : Wave) (k n : Nat) : (v.addPath k n).frameHold1 = v.frameHold1 := by unfold addPath; split <;> rfl
@[simp] theorem addPath_inHandler (v : Wave) (k n : Nat) : (v.addPath k n).inHandler = v.inHandler := by unfold addPath; split <;> rfl
@[simp] theorem addPath_late (v : Wave) (k n : Nat) : (v.addPath k n).late = v.late := by unfold addPath; split <;> rfl
@[simp] theorem addPath_halt (v : Wave) (k n : Nat) : (v.addPath k n).halt = v.halt := by unfold addPath; split <;> rfl
@[simp] theorem addPath_gangHalt (v : Wave) (k n : Nat) : (v.addPath k n).gangHalt = v.gangHalt := by unfold addPath; split <;> rfl
@[simp] theorem addPath_denied (v : Wave) (k n : Nat) : (v.addPath k n).denied = v.denied := by unfold addPath; split <;> rfl
@[simp] theorem addPath_parkTime (v : Wave) (k n : Nat) : (v.addPath k n).parkTime = v.parkTime := by unfold addPath; split <;> rfl
@[simp] theorem addPath_haltDue (v : Wave) (k n : Nat) : (v.addPath k n).haltDue = v.haltDue := by unfold addPath; split <;> rfl
@[simp] theorem addPath_kept (v : Wave) (k n : Nat) : (v.addPath k n).kept = v.kept := by unfold addPath; split <;> rfl

@[simp] theorem subPath_ctx (v : Wave) (k : Nat) : (v.subPath k).ctx = v.ctx := by unfold subPath; split <;> rfl
@[simp] theorem subPath_grid (v : Wave) (k : Nat) : (v.subPath k).grid = v.grid := by unfold subPath; split <;> rfl
@[simp] theorem subPath_gang (v : Wave) (k : Nat) : (v.subPath k).gang = v.gang := by unfold subPath; split <;> rfl
@[simp] theorem subPath_blk (v : Wave) (k : Nat) : (v.subPath k).blk = v.blk := by unfold subPath; split <;> rfl
@[simp] theorem subPath_idx (v : Wave) (k : Nat) : (v.subPath k).idx = v.idx := by unfold subPath; split <;> rfl
@[simp] theorem subPath_place (v : Wave) (k : Nat) : (v.subPath k).place = v.place := by unfold subPath; split <;> rfl
@[simp] theorem subPath_priv (v : Wave) (k : Nat) : (v.subPath k).priv = v.priv := by unfold subPath; split <;> rfl
@[simp] theorem subPath_age (v : Wave) (k : Nat) : (v.subPath k).age = v.age := by unfold subPath; split <;> rfl
@[simp] theorem subPath_st (v : Wave) (k : Nat) : (v.subPath k).st = v.st := by unfold subPath; split <;> rfl
@[simp] theorem subPath_seat (v : Wave) (k : Nat) : (v.subPath k).seat = v.seat := by unfold subPath; split <;> rfl
@[simp] theorem subPath_passed (v : Wave) (k : Nat) : (v.subPath k).passed = v.passed := by unfold subPath; split <;> rfl
@[simp] theorem subPath_yielded (v : Wave) (k : Nat) : (v.subPath k).yielded = v.yielded := by unfold subPath; split <;> rfl
@[simp] theorem subPath_waitSince (v : Wave) (k : Nat) : (v.subPath k).waitSince = v.waitSince := by unfold subPath; split <;> rfl
@[simp] theorem subPath_whole (v : Wave) (k : Nat) : (v.subPath k).whole = v.whole := by unfold subPath; split <;> rfl
@[simp] theorem subPath_helper (v : Wave) (k : Nat) : (v.subPath k).helper = v.helper := by unfold subPath; split <;> rfl
@[simp] theorem subPath_slot0 (v : Wave) (k : Nat) : (v.subPath k).slot0 = v.slot0 := by unfold subPath; split <;> rfl
@[simp] theorem subPath_slot1 (v : Wave) (k : Nat) : (v.subPath k).slot1 = v.slot1 := by unfold subPath; split <;> rfl
@[simp] theorem subPath_lastSlot (v : Wave) (k : Nat) : (v.subPath k).lastSlot = v.lastSlot := by unfold subPath; split <;> rfl
@[simp] theorem subPath_stack (v : Wave) (k : Nat) : (v.subPath k).stack = v.stack := by unfold subPath; split <;> rfl
@[simp] theorem subPath_ents (v : Wave) (k : Nat) : (v.subPath k).ents = v.ents := by unfold subPath; split <;> rfl
@[simp] theorem subPath_preds (v : Wave) (k : Nat) : (v.subPath k).preds = v.preds := by unfold subPath; split <;> rfl
@[simp] theorem subPath_bases (v : Wave) (k : Nat) : (v.subPath k).bases = v.bases := by unfold subPath; split <;> rfl
@[simp] theorem subPath_flags (v : Wave) (k : Nat) : (v.subPath k).flags = v.flags := by unfold subPath; split <;> rfl
@[simp] theorem subPath_fpen (v : Wave) (k : Nat) : (v.subPath k).fpen = v.fpen := by unfold subPath; split <;> rfl
@[simp] theorem subPath_rng (v : Wave) (k : Nat) : (v.subPath k).rng = v.rng := by unfold subPath; split <;> rfl
@[simp] theorem subPath_tickCap (v : Wave) (k : Nat) : (v.subPath k).tickCap = v.tickCap := by unfold subPath; split <;> rfl
@[simp] theorem subPath_bufD (v : Wave) (k : Nat) : (v.subPath k).bufD = v.bufD := by unfold subPath; split <;> rfl
@[simp] theorem subPath_bufS (v : Wave) (k : Nat) : (v.subPath k).bufS = v.bufS := by unfold subPath; split <;> rfl
@[simp] theorem subPath_trk (v : Wave) (k : Nat) : (v.subPath k).trk = v.trk := by unfold subPath; split <;> rfl
@[simp] theorem subPath_hash (v : Wave) (k : Nat) : (v.subPath k).hash = v.hash := by unfold subPath; split <;> rfl
@[simp] theorem subPath_frame (v : Wave) (k : Nat) : (v.subPath k).frame = v.frame := by unfold subPath; split <;> rfl
@[simp] theorem subPath_frameAtt (v : Wave) (k : Nat) : (v.subPath k).frameAtt = v.frameAtt := by unfold subPath; split <;> rfl
@[simp] theorem subPath_frameHold0 (v : Wave) (k : Nat) : (v.subPath k).frameHold0 = v.frameHold0 := by unfold subPath; split <;> rfl
@[simp] theorem subPath_frameHold1 (v : Wave) (k : Nat) : (v.subPath k).frameHold1 = v.frameHold1 := by unfold subPath; split <;> rfl
@[simp] theorem subPath_inHandler (v : Wave) (k : Nat) : (v.subPath k).inHandler = v.inHandler := by unfold subPath; split <;> rfl
@[simp] theorem subPath_late (v : Wave) (k : Nat) : (v.subPath k).late = v.late := by unfold subPath; split <;> rfl
@[simp] theorem subPath_halt (v : Wave) (k : Nat) : (v.subPath k).halt = v.halt := by unfold subPath; split <;> rfl
@[simp] theorem subPath_gangHalt (v : Wave) (k : Nat) : (v.subPath k).gangHalt = v.gangHalt := by unfold subPath; split <;> rfl
@[simp] theorem subPath_denied (v : Wave) (k : Nat) : (v.subPath k).denied = v.denied := by unfold subPath; split <;> rfl
@[simp] theorem subPath_parkTime (v : Wave) (k : Nat) : (v.subPath k).parkTime = v.parkTime := by unfold subPath; split <;> rfl
@[simp] theorem subPath_haltDue (v : Wave) (k : Nat) : (v.subPath k).haltDue = v.haltDue := by unfold subPath; split <;> rfl
@[simp] theorem subPath_kept (v : Wave) (k : Nat) : (v.subPath k).kept = v.kept := by unfold subPath; split <;> rfl

@[simp] theorem setSlot_ctx (v : Wave) (sl : Nat) (x : Slot) : (v.setSlot sl x).ctx = v.ctx := by unfold setSlot; split <;> rfl
@[simp] theorem setSlot_grid (v : Wave) (sl : Nat) (x : Slot) : (v.setSlot sl x).grid = v.grid := by unfold setSlot; split <;> rfl
@[simp] theorem setSlot_gang (v : Wave) (sl : Nat) (x : Slot) : (v.setSlot sl x).gang = v.gang := by unfold setSlot; split <;> rfl
@[simp] theorem setSlot_blk (v : Wave) (sl : Nat) (x : Slot) : (v.setSlot sl x).blk = v.blk := by unfold setSlot; split <;> rfl
@[simp] theorem setSlot_idx (v : Wave) (sl : Nat) (x : Slot) : (v.setSlot sl x).idx = v.idx := by unfold setSlot; split <;> rfl
@[simp] theorem setSlot_place (v : Wave) (sl : Nat) (x : Slot) : (v.setSlot sl x).place = v.place := by unfold setSlot; split <;> rfl
@[simp] theorem setSlot_priv (v : Wave) (sl : Nat) (x : Slot) : (v.setSlot sl x).priv = v.priv := by unfold setSlot; split <;> rfl
@[simp] theorem setSlot_age (v : Wave) (sl : Nat) (x : Slot) : (v.setSlot sl x).age = v.age := by unfold setSlot; split <;> rfl
@[simp] theorem setSlot_st (v : Wave) (sl : Nat) (x : Slot) : (v.setSlot sl x).st = v.st := by unfold setSlot; split <;> rfl
@[simp] theorem setSlot_seat (v : Wave) (sl : Nat) (x : Slot) : (v.setSlot sl x).seat = v.seat := by unfold setSlot; split <;> rfl
@[simp] theorem setSlot_passed (v : Wave) (sl : Nat) (x : Slot) : (v.setSlot sl x).passed = v.passed := by unfold setSlot; split <;> rfl
@[simp] theorem setSlot_yielded (v : Wave) (sl : Nat) (x : Slot) : (v.setSlot sl x).yielded = v.yielded := by unfold setSlot; split <;> rfl
@[simp] theorem setSlot_waitSince (v : Wave) (sl : Nat) (x : Slot) : (v.setSlot sl x).waitSince = v.waitSince := by unfold setSlot; split <;> rfl
@[simp] theorem setSlot_whole (v : Wave) (sl : Nat) (x : Slot) : (v.setSlot sl x).whole = v.whole := by unfold setSlot; split <;> rfl
@[simp] theorem setSlot_helper (v : Wave) (sl : Nat) (x : Slot) : (v.setSlot sl x).helper = v.helper := by unfold setSlot; split <;> rfl
@[simp] theorem setSlot_lastSlot (v : Wave) (sl : Nat) (x : Slot) : (v.setSlot sl x).lastSlot = v.lastSlot := by unfold setSlot; split <;> rfl
@[simp] theorem setSlot_stack (v : Wave) (sl : Nat) (x : Slot) : (v.setSlot sl x).stack = v.stack := by unfold setSlot; split <;> rfl
@[simp] theorem setSlot_ents (v : Wave) (sl : Nat) (x : Slot) : (v.setSlot sl x).ents = v.ents := by unfold setSlot; split <;> rfl
@[simp] theorem setSlot_preds (v : Wave) (sl : Nat) (x : Slot) : (v.setSlot sl x).preds = v.preds := by unfold setSlot; split <;> rfl
@[simp] theorem setSlot_bases (v : Wave) (sl : Nat) (x : Slot) : (v.setSlot sl x).bases = v.bases := by unfold setSlot; split <;> rfl
@[simp] theorem setSlot_flags (v : Wave) (sl : Nat) (x : Slot) : (v.setSlot sl x).flags = v.flags := by unfold setSlot; split <;> rfl
@[simp] theorem setSlot_fpen (v : Wave) (sl : Nat) (x : Slot) : (v.setSlot sl x).fpen = v.fpen := by unfold setSlot; split <;> rfl
@[simp] theorem setSlot_rng (v : Wave) (sl : Nat) (x : Slot) : (v.setSlot sl x).rng = v.rng := by unfold setSlot; split <;> rfl
@[simp] theorem setSlot_tickCap (v : Wave) (sl : Nat) (x : Slot) : (v.setSlot sl x).tickCap = v.tickCap := by unfold setSlot; split <;> rfl
@[simp] theorem setSlot_paths (v : Wave) (sl : Nat) (x : Slot) : (v.setSlot sl x).paths = v.paths := by unfold setSlot; split <;> rfl
@[simp] theorem setSlot_bufD (v : Wave) (sl : Nat) (x : Slot) : (v.setSlot sl x).bufD = v.bufD := by unfold setSlot; split <;> rfl
@[simp] theorem setSlot_bufS (v : Wave) (sl : Nat) (x : Slot) : (v.setSlot sl x).bufS = v.bufS := by unfold setSlot; split <;> rfl
@[simp] theorem setSlot_trk (v : Wave) (sl : Nat) (x : Slot) : (v.setSlot sl x).trk = v.trk := by unfold setSlot; split <;> rfl
@[simp] theorem setSlot_hash (v : Wave) (sl : Nat) (x : Slot) : (v.setSlot sl x).hash = v.hash := by unfold setSlot; split <;> rfl
@[simp] theorem setSlot_frame (v : Wave) (sl : Nat) (x : Slot) : (v.setSlot sl x).frame = v.frame := by unfold setSlot; split <;> rfl
@[simp] theorem setSlot_frameAtt (v : Wave) (sl : Nat) (x : Slot) : (v.setSlot sl x).frameAtt = v.frameAtt := by unfold setSlot; split <;> rfl
@[simp] theorem setSlot_frameHold0 (v : Wave) (sl : Nat) (x : Slot) : (v.setSlot sl x).frameHold0 = v.frameHold0 := by unfold setSlot; split <;> rfl
@[simp] theorem setSlot_frameHold1 (v : Wave) (sl : Nat) (x : Slot) : (v.setSlot sl x).frameHold1 = v.frameHold1 := by unfold setSlot; split <;> rfl
@[simp] theorem setSlot_inHandler (v : Wave) (sl : Nat) (x : Slot) : (v.setSlot sl x).inHandler = v.inHandler := by unfold setSlot; split <;> rfl
@[simp] theorem setSlot_late (v : Wave) (sl : Nat) (x : Slot) : (v.setSlot sl x).late = v.late := by unfold setSlot; split <;> rfl
@[simp] theorem setSlot_halt (v : Wave) (sl : Nat) (x : Slot) : (v.setSlot sl x).halt = v.halt := by unfold setSlot; split <;> rfl
@[simp] theorem setSlot_gangHalt (v : Wave) (sl : Nat) (x : Slot) : (v.setSlot sl x).gangHalt = v.gangHalt := by unfold setSlot; split <;> rfl
@[simp] theorem setSlot_denied (v : Wave) (sl : Nat) (x : Slot) : (v.setSlot sl x).denied = v.denied := by unfold setSlot; split <;> rfl
@[simp] theorem setSlot_parkTime (v : Wave) (sl : Nat) (x : Slot) : (v.setSlot sl x).parkTime = v.parkTime := by unfold setSlot; split <;> rfl
@[simp] theorem setSlot_haltDue (v : Wave) (sl : Nat) (x : Slot) : (v.setSlot sl x).haltDue = v.haltDue := by unfold setSlot; split <;> rfl
@[simp] theorem setSlot_kept (v : Wave) (sl : Nat) (x : Slot) : (v.setSlot sl x).kept = v.kept := by unfold setSlot; split <;> rfl

@[simp] theorem modSlot_ctx (v : Wave) (sl : Nat) (f : Slot → Slot) : (v.modSlot sl f).ctx = v.ctx := by unfold modSlot setSlot; split <;> rfl
@[simp] theorem modSlot_grid (v : Wave) (sl : Nat) (f : Slot → Slot) : (v.modSlot sl f).grid = v.grid := by unfold modSlot setSlot; split <;> rfl
@[simp] theorem modSlot_gang (v : Wave) (sl : Nat) (f : Slot → Slot) : (v.modSlot sl f).gang = v.gang := by unfold modSlot setSlot; split <;> rfl
@[simp] theorem modSlot_blk (v : Wave) (sl : Nat) (f : Slot → Slot) : (v.modSlot sl f).blk = v.blk := by unfold modSlot setSlot; split <;> rfl
@[simp] theorem modSlot_idx (v : Wave) (sl : Nat) (f : Slot → Slot) : (v.modSlot sl f).idx = v.idx := by unfold modSlot setSlot; split <;> rfl
@[simp] theorem modSlot_place (v : Wave) (sl : Nat) (f : Slot → Slot) : (v.modSlot sl f).place = v.place := by unfold modSlot setSlot; split <;> rfl
@[simp] theorem modSlot_priv (v : Wave) (sl : Nat) (f : Slot → Slot) : (v.modSlot sl f).priv = v.priv := by unfold modSlot setSlot; split <;> rfl
@[simp] theorem modSlot_age (v : Wave) (sl : Nat) (f : Slot → Slot) : (v.modSlot sl f).age = v.age := by unfold modSlot setSlot; split <;> rfl
@[simp] theorem modSlot_st (v : Wave) (sl : Nat) (f : Slot → Slot) : (v.modSlot sl f).st = v.st := by unfold modSlot setSlot; split <;> rfl
@[simp] theorem modSlot_seat (v : Wave) (sl : Nat) (f : Slot → Slot) : (v.modSlot sl f).seat = v.seat := by unfold modSlot setSlot; split <;> rfl
@[simp] theorem modSlot_passed (v : Wave) (sl : Nat) (f : Slot → Slot) : (v.modSlot sl f).passed = v.passed := by unfold modSlot setSlot; split <;> rfl
@[simp] theorem modSlot_yielded (v : Wave) (sl : Nat) (f : Slot → Slot) : (v.modSlot sl f).yielded = v.yielded := by unfold modSlot setSlot; split <;> rfl
@[simp] theorem modSlot_waitSince (v : Wave) (sl : Nat) (f : Slot → Slot) : (v.modSlot sl f).waitSince = v.waitSince := by unfold modSlot setSlot; split <;> rfl
@[simp] theorem modSlot_whole (v : Wave) (sl : Nat) (f : Slot → Slot) : (v.modSlot sl f).whole = v.whole := by unfold modSlot setSlot; split <;> rfl
@[simp] theorem modSlot_helper (v : Wave) (sl : Nat) (f : Slot → Slot) : (v.modSlot sl f).helper = v.helper := by unfold modSlot setSlot; split <;> rfl
@[simp] theorem modSlot_lastSlot (v : Wave) (sl : Nat) (f : Slot → Slot) : (v.modSlot sl f).lastSlot = v.lastSlot := by unfold modSlot setSlot; split <;> rfl
@[simp] theorem modSlot_stack (v : Wave) (sl : Nat) (f : Slot → Slot) : (v.modSlot sl f).stack = v.stack := by unfold modSlot setSlot; split <;> rfl
@[simp] theorem modSlot_ents (v : Wave) (sl : Nat) (f : Slot → Slot) : (v.modSlot sl f).ents = v.ents := by unfold modSlot setSlot; split <;> rfl
@[simp] theorem modSlot_preds (v : Wave) (sl : Nat) (f : Slot → Slot) : (v.modSlot sl f).preds = v.preds := by unfold modSlot setSlot; split <;> rfl
@[simp] theorem modSlot_bases (v : Wave) (sl : Nat) (f : Slot → Slot) : (v.modSlot sl f).bases = v.bases := by unfold modSlot setSlot; split <;> rfl
@[simp] theorem modSlot_flags (v : Wave) (sl : Nat) (f : Slot → Slot) : (v.modSlot sl f).flags = v.flags := by unfold modSlot setSlot; split <;> rfl
@[simp] theorem modSlot_fpen (v : Wave) (sl : Nat) (f : Slot → Slot) : (v.modSlot sl f).fpen = v.fpen := by unfold modSlot setSlot; split <;> rfl
@[simp] theorem modSlot_rng (v : Wave) (sl : Nat) (f : Slot → Slot) : (v.modSlot sl f).rng = v.rng := by unfold modSlot setSlot; split <;> rfl
@[simp] theorem modSlot_tickCap (v : Wave) (sl : Nat) (f : Slot → Slot) : (v.modSlot sl f).tickCap = v.tickCap := by unfold modSlot setSlot; split <;> rfl
@[simp] theorem modSlot_paths (v : Wave) (sl : Nat) (f : Slot → Slot) : (v.modSlot sl f).paths = v.paths := by unfold modSlot setSlot; split <;> rfl
@[simp] theorem modSlot_bufD (v : Wave) (sl : Nat) (f : Slot → Slot) : (v.modSlot sl f).bufD = v.bufD := by unfold modSlot setSlot; split <;> rfl
@[simp] theorem modSlot_bufS (v : Wave) (sl : Nat) (f : Slot → Slot) : (v.modSlot sl f).bufS = v.bufS := by unfold modSlot setSlot; split <;> rfl
@[simp] theorem modSlot_trk (v : Wave) (sl : Nat) (f : Slot → Slot) : (v.modSlot sl f).trk = v.trk := by unfold modSlot setSlot; split <;> rfl
@[simp] theorem modSlot_hash (v : Wave) (sl : Nat) (f : Slot → Slot) : (v.modSlot sl f).hash = v.hash := by unfold modSlot setSlot; split <;> rfl
@[simp] theorem modSlot_frame (v : Wave) (sl : Nat) (f : Slot → Slot) : (v.modSlot sl f).frame = v.frame := by unfold modSlot setSlot; split <;> rfl
@[simp] theorem modSlot_frameAtt (v : Wave) (sl : Nat) (f : Slot → Slot) : (v.modSlot sl f).frameAtt = v.frameAtt := by unfold modSlot setSlot; split <;> rfl
@[simp] theorem modSlot_frameHold0 (v : Wave) (sl : Nat) (f : Slot → Slot) : (v.modSlot sl f).frameHold0 = v.frameHold0 := by unfold modSlot setSlot; split <;> rfl
@[simp] theorem modSlot_frameHold1 (v : Wave) (sl : Nat) (f : Slot → Slot) : (v.modSlot sl f).frameHold1 = v.frameHold1 := by unfold modSlot setSlot; split <;> rfl
@[simp] theorem modSlot_inHandler (v : Wave) (sl : Nat) (f : Slot → Slot) : (v.modSlot sl f).inHandler = v.inHandler := by unfold modSlot setSlot; split <;> rfl
@[simp] theorem modSlot_late (v : Wave) (sl : Nat) (f : Slot → Slot) : (v.modSlot sl f).late = v.late := by unfold modSlot setSlot; split <;> rfl
@[simp] theorem modSlot_halt (v : Wave) (sl : Nat) (f : Slot → Slot) : (v.modSlot sl f).halt = v.halt := by unfold modSlot setSlot; split <;> rfl
@[simp] theorem modSlot_gangHalt (v : Wave) (sl : Nat) (f : Slot → Slot) : (v.modSlot sl f).gangHalt = v.gangHalt := by unfold modSlot setSlot; split <;> rfl
@[simp] theorem modSlot_denied (v : Wave) (sl : Nat) (f : Slot → Slot) : (v.modSlot sl f).denied = v.denied := by unfold modSlot setSlot; split <;> rfl
@[simp] theorem modSlot_parkTime (v : Wave) (sl : Nat) (f : Slot → Slot) : (v.modSlot sl f).parkTime = v.parkTime := by unfold modSlot setSlot; split <;> rfl
@[simp] theorem modSlot_haltDue (v : Wave) (sl : Nat) (f : Slot → Slot) : (v.modSlot sl f).haltDue = v.haltDue := by unfold modSlot setSlot; split <;> rfl
@[simp] theorem modSlot_kept (v : Wave) (sl : Nat) (f : Slot → Slot) : (v.modSlot sl f).kept = v.kept := by unfold modSlot setSlot; split <;> rfl

@[simp] theorem withRegs_ctx (v e : Wave) : (v.withRegs e).ctx = v.ctx := rfl
@[simp] theorem withRegs_grid (v e : Wave) : (v.withRegs e).grid = v.grid := rfl
@[simp] theorem withRegs_gang (v e : Wave) : (v.withRegs e).gang = v.gang := rfl
@[simp] theorem withRegs_blk (v e : Wave) : (v.withRegs e).blk = v.blk := rfl
@[simp] theorem withRegs_idx (v e : Wave) : (v.withRegs e).idx = v.idx := rfl
@[simp] theorem withRegs_place (v e : Wave) : (v.withRegs e).place = v.place := rfl
@[simp] theorem withRegs_priv (v e : Wave) : (v.withRegs e).priv = v.priv := rfl
@[simp] theorem withRegs_age (v e : Wave) : (v.withRegs e).age = v.age := rfl
@[simp] theorem withRegs_st (v e : Wave) : (v.withRegs e).st = v.st := rfl
@[simp] theorem withRegs_seat (v e : Wave) : (v.withRegs e).seat = v.seat := rfl
@[simp] theorem withRegs_passed (v e : Wave) : (v.withRegs e).passed = v.passed := rfl
@[simp] theorem withRegs_yielded (v e : Wave) : (v.withRegs e).yielded = v.yielded := rfl
@[simp] theorem withRegs_waitSince (v e : Wave) : (v.withRegs e).waitSince = v.waitSince := rfl
@[simp] theorem withRegs_whole (v e : Wave) : (v.withRegs e).whole = v.whole := rfl
@[simp] theorem withRegs_helper (v e : Wave) : (v.withRegs e).helper = v.helper := rfl
@[simp] theorem withRegs_slot0 (v e : Wave) : (v.withRegs e).slot0 = v.slot0 := rfl
@[simp] theorem withRegs_slot1 (v e : Wave) : (v.withRegs e).slot1 = v.slot1 := rfl
@[simp] theorem withRegs_lastSlot (v e : Wave) : (v.withRegs e).lastSlot = v.lastSlot := rfl
@[simp] theorem withRegs_stack (v e : Wave) : (v.withRegs e).stack = v.stack := rfl
@[simp] theorem withRegs_ents (v e : Wave) : (v.withRegs e).ents = e.ents := rfl
@[simp] theorem withRegs_preds (v e : Wave) : (v.withRegs e).preds = e.preds := rfl
@[simp] theorem withRegs_bases (v e : Wave) : (v.withRegs e).bases = e.bases := rfl
@[simp] theorem withRegs_flags (v e : Wave) : (v.withRegs e).flags = e.flags := rfl
@[simp] theorem withRegs_fpen (v e : Wave) : (v.withRegs e).fpen = e.fpen := rfl
@[simp] theorem withRegs_rng (v e : Wave) : (v.withRegs e).rng = e.rng := rfl
@[simp] theorem withRegs_tickCap (v e : Wave) : (v.withRegs e).tickCap = e.tickCap := rfl
@[simp] theorem withRegs_paths (v e : Wave) : (v.withRegs e).paths = e.paths := rfl
@[simp] theorem withRegs_bufD (v e : Wave) : (v.withRegs e).bufD = v.bufD := rfl
@[simp] theorem withRegs_bufS (v e : Wave) : (v.withRegs e).bufS = v.bufS := rfl
@[simp] theorem withRegs_trk (v e : Wave) : (v.withRegs e).trk = v.trk := rfl
@[simp] theorem withRegs_hash (v e : Wave) : (v.withRegs e).hash = v.hash := rfl
@[simp] theorem withRegs_frame (v e : Wave) : (v.withRegs e).frame = v.frame := rfl
@[simp] theorem withRegs_frameAtt (v e : Wave) : (v.withRegs e).frameAtt = v.frameAtt := rfl
@[simp] theorem withRegs_frameHold0 (v e : Wave) : (v.withRegs e).frameHold0 = v.frameHold0 := rfl
@[simp] theorem withRegs_frameHold1 (v e : Wave) : (v.withRegs e).frameHold1 = v.frameHold1 := rfl
@[simp] theorem withRegs_inHandler (v e : Wave) : (v.withRegs e).inHandler = v.inHandler := rfl
@[simp] theorem withRegs_late (v e : Wave) : (v.withRegs e).late = v.late := rfl
@[simp] theorem withRegs_halt (v e : Wave) : (v.withRegs e).halt = v.halt := rfl
@[simp] theorem withRegs_gangHalt (v e : Wave) : (v.withRegs e).gangHalt = v.gangHalt := rfl
@[simp] theorem withRegs_denied (v e : Wave) : (v.withRegs e).denied = v.denied := rfl
@[simp] theorem withRegs_parkTime (v e : Wave) : (v.withRegs e).parkTime = v.parkTime := rfl
@[simp] theorem withRegs_haltDue (v e : Wave) : (v.withRegs e).haltDue = v.haltDue := rfl
@[simp] theorem withRegs_kept (v e : Wave) : (v.withRegs e).kept = v.kept := rfl

end Sys2Proof.Machine.Wave
end

