-- ==== Sys2Proof/Laws/Issue.lean ====
section
/-! SUPPORT. What the shared operations of a word do: the masks, the destination writes, KEEP, the flags, the watch units
that stay silent, and the retirement of a register word. -/

namespace Sys2Proof.Laws

open Sys2Proof Sys2Proof.Machine Sys2Proof.Safety

/-! ### Masks -/

theorem laneBit_getLsbD (l k : Nat) (hk : k < 64) : (laneBit l).getLsbD k = decide (k = l) := by
  unfold laneBit
  rw [BitVec.getLsbD_ofNat]
  simp only [hk, decide_true, Bool.true_and, Nat.testBit_two_pow]
  simp [eq_comm]

theorem mem_lanesOf (m : Mask) (l : Nat) : l ∈ lanesOf m ↔ l < 64 ∧ m.getLsbD l = true := by
  simp [lanesOf]

theorem lanesOf_lt {m : Mask} {l : Nat} (h : l ∈ lanesOf m) : l < 64 := ((mem_lanesOf m l).1 h).1

theorem lanesOf_nil {m : Mask} : lanesOf m = [] ↔ m = 0 := by
  constructor
  · intro h
    apply BitVec.eq_of_getLsbD_eq
    intro i hi
    have : i ∉ lanesOf m := by simp [h]
    rw [mem_lanesOf] at this
    simp only [hi, true_and, Bool.not_eq_true] at this
    simp [this]
  · rintro rfl; simp [lanesOf]

theorem nodup_lanesOf (m : Mask) : (lanesOf m).Nodup := List.nodup_range.filter _

theorem lowLane_mem {m : Mask} (h : m ≠ 0) : lowLane m ∈ lanesOf m := by
  unfold lowLane
  cases hl : lanesOf m with
  | nil => exact absurd (lanesOf_nil.1 hl) h
  | cons a t => simp

theorem lowLane_lt (m : Mask) : lowLane m < 64 := by
  by_cases h : m = 0
  · subst h; decide
  · exact lanesOf_lt (lowLane_mem h)

theorem maskFold_getLsbD (p : Nat → Bool) (ls : List Nat) (m : Mask) (k : Nat) (hk : k < 64) :
    (ls.foldl (fun m l => if p l then m ||| laneBit l else m) m).getLsbD k
      = (m.getLsbD k || (decide (k ∈ ls) && p k)) := by
  induction ls generalizing m with
  | nil => simp
  | cons a t ih =>
    simp only [List.foldl_cons, ih, List.mem_cons]
    by_cases hp : p a = true
    · simp only [hp, ↓reduceIte, BitVec.getLsbD_or, laneBit_getLsbD _ _ hk]
      by_cases hka : k = a
      · subst hka; simp [hp]
      · simp [hka]
    · simp only [hp]
      by_cases hka : k = a
      · subst hka; simp [hp]
      · simp [hka]

theorem maskOf_getLsbD (p : Nat → Bool) (k : Nat) (hk : k < 64) : (maskOf p).getLsbD k = p k := by
  unfold maskOf
  rw [maskFold_getLsbD _ _ _ _ hk]
  simp [hk]

theorem maskOf_eq_zero (p : Nat → Bool) : maskOf p = 0 ↔ ∀ l, l < 64 → p l = false := by
  constructor
  · intro h l hl
    rw [← maskOf_getLsbD p l hl, h]; simp
  · intro h
    apply BitVec.eq_of_getLsbD_eq
    intro i hi
    rw [maskOf_getLsbD p i hi, h i hi]; simp

/-! ### Sources -/

theorem foldl_or_zero {α : Type} (f : α → Mask) (l : List α) (m : Mask) (h : ∀ k ∈ l, f k = 0) :
    l.foldl (fun m k => m ||| f k) m = m := by
  induction l generalizing m with
  | nil => rfl
  | cons a t ih =>
    have hm : m ||| (0 : Mask) = m := by simp
    simp only [List.foldl_cons, h a (by simp), hm]
    exact ih m fun k hk => h k (by simp [hk])

theorem srcCheck_ok {v : Wave} {l : List Need} (h : Readable v l) : srcCheck v l = .ok := by
  have hz (p : CellSt → Bool) (hp : p .full = false) : ∀ k ∈ l, needLanes v k p = 0 := by
    intro k hk
    unfold needLanes
    rw [maskOf_eq_zero]
    intro n hn
    by_cases hl : k.lanes.getLsbD n = true
    · simp only [hl, Bool.true_and, List.any_eq_false, List.mem_range]
      intro j hj
      rw [h k hk n hn hl j hj, hp]; simp
    · simp [hl]
  have h1 := foldl_or_zero (fun k => needLanes v k isLost) l 0 (hz _ rfl)
  have h2 : l.foldl (fun m k => if k.caret then m ||| needLanes v k isEmptyCell else m) 0 = 0 := by
    have := foldl_or_zero (fun k => if k.caret then needLanes v k isEmptyCell else 0) l 0
      (fun k hk => by simp [hz isEmptyCell rfl k hk])
    rw [← this]
    congr 1
    funext m k
    split <;> simp_all
  unfold srcCheck
  simp only [h1, h2, ne_eq, not_true_eq_false, ↓reduceIte]
  rw [if_neg]
  simp only [List.any_eq_true, not_exists, not_and, decide_eq_true_eq, not_not]
  exact fun k hk => hz isEmptyCell rfl k hk

theorem checked_ok {i : Iss} {l : List Need} (s k : State) (h : Readable i.v l) : checked i s l k = k := by
  unfold checked; rw [srcCheck_ok h]

theorem withWave_issues {s : State} {w sl : Nat} {v : Wave} (h : Issues s w sl v) (o : Op) (x : Body) (k : Iss → State) :
    withWave o x s k = .next (k (issOf o x w sl v)) := by
  unfold withWave
  rw [h.cur]
  simp only [h.wave, Wave.alive, h.alive, h.live, ne_eq, not_false_eq_true, decide_true, Bool.and_self, ↓reduceIte]
  rfl

theorem wordOp_issues {s : State} {w sl : Nat} {v : Wave} (h : Issues s w sl v) {o : Op} {x : Body} (k : Iss → State)
    (hs : SourcesFull o x v sl) : wordOp o x s k = .next (k (issOf o x w sl v)) := by
  unfold wordOp
  rw [withWave_issues h, checked_ok]
  exact hs

/-! ### Watch units that stay silent -/

theorem watchHits_none {s : State} {v : Wave} (h : Unwatched s v) (k now : Seen) :
    watchHits s (coreOf v.place) v.ctx k now = [] := by
  unfold watchHits
  split
  · rfl
  · simp only [List.filterMap_eq_nil_iff, List.mem_range]
    intro n hn
    have hm : unitMatch (watchUnit s (coreOf v.place)) v.ctx k n = 0 := by
      cases n with
      | zero =>
        unfold unitMatch
        rcases h 0 hn with hu | hu <;> simp [hu]
      | succ n =>
        unfold unitMatch
        rcases h (n + 1) hn with hu | hu <;> simp [hu]
    simp [hm]

theorem watchWave_silent {s : State} {w : Nat} {v : Wave} (hw : s.wave? w = some v) (h : Unwatched s v) (sl : Nat) (k now : Seen)
    (mode : WatchMode) (pc : Word) : watchWave s w sl k now mode pc = s := by
  unfold watchWave
  simp [hw, watchHits_none h, topAction]

theorem countGangHalt_free {s : State} {i : Iss} {v : Wave} (hw : s.wave? i.w = some v) (h : v.gangHalt = none) :
    countGangHalt s i = s := by
  unfold countGangHalt
  simp [hw, h]

/-! ### Destination writes -/

theorem cellKey_eq {e l e' l' : Nat} (hl : l < 64) (hl' : l' < 64) :
    Wave.cellKey e' l' = Wave.cellKey e l ↔ e' = e ∧ (e < 552 → l' = l) := by
  unfold Wave.cellKey
  constructor
  · intro h
    split at h <;> split at h <;> refine ⟨by omega, fun _ => by omega⟩
  · rintro ⟨rfl, h⟩
    split
    · rw [h ‹_›]
    · rfl

theorem cell_put (v : Wave) (e l : Nat) (x : Word) (e' l' : Nat) (hl : l < 64) (hl' : l' < 64) :
    (v.put e l x).cell e' l' = if e' = e ∧ (e < 552 → l' = l) then ⟨x, .full⟩ else v.cell e' l' := by
  unfold Wave.cell Wave.put kgetD
  simp only [kget_kput, cellKey_eq hl hl']
  split <;> rfl

theorem putWords_cons (v : Wave) (e l : Nat) (a : Word) (t : List Word) :
    putWords v e l (a :: t) = putWords (v.put e l a) (e + 1) l t := by
  have key : ∀ (t : List Word) (n e : Nat) (v : Wave),
      (t.zipIdx (n + 1)).foldl (fun v x => v.put (e + x.2) l x.1) v = (t.zipIdx n).foldl (fun v x => v.put (e + 1 + x.2) l x.1) v := by
    intro t
    induction t with
    | nil => simp
    | cons b t ih => intro n e v; simp only [List.zipIdx_cons, List.foldl_cons, ih]; congr 2; omega
  unfold putWords
  simp only [List.zipIdx_cons, List.foldl_cons, Nat.add_zero, Nat.zero_add]
  exact key t 0 e _

theorem cell_putWords (v : Wave) (e l : Nat) (ws : List Word) (e' l' : Nat) (hl : l < 64) (hl' : l' < 64) :
    (putWords v e l ws).cell e' l' =
      match (if e ≤ e' ∧ (e' < 552 → l' = l) then ws[e' - e]? else none) with
      | some w => ⟨w, .full⟩
      | none => v.cell e' l' := by
  induction ws generalizing v e with
  | nil => simp [putWords]
  | cons a t ih =>
    rw [putWords_cons, ih, cell_put _ _ _ _ _ _ hl hl']
    by_cases he : e' = e
    · subst he
      rw [if_neg (by omega)]
      by_cases hc : e' < 552 → l' = l
      · rw [if_pos ⟨rfl, hc⟩, if_pos ⟨Nat.le_refl _, hc⟩]; simp
      · rw [if_neg (fun h => hc h.2), if_neg (fun h => hc h.2)]
    · by_cases hle : e ≤ e'
      · have h1 : e + 1 ≤ e' := by omega
        have h2 : e' - e = (e' - (e + 1)) + 1 := by omega
        simp only [hle, h1, h2, true_and, List.getElem?_cons_succ, he, false_and, ↓reduceIte]
      · have h1 : ¬ e + 1 ≤ e' := by omega
        simp [hle, h1, he]

/-- Everything of a wave but its entries. -/
def sameButEnts (v u : Wave) : Prop := ∃ m, u = { v with ents := m }

theorem sameButEnts_refl (v : Wave) : sameButEnts v v := ⟨v.ents, rfl⟩

theorem sameButEnts_trans {a b c : Wave} (h : sameButEnts a b) (k : sameButEnts b c) : sameButEnts a c := by
  obtain ⟨m, rfl⟩ := h
  obtain ⟨n, rfl⟩ := k
  exact ⟨n, rfl⟩

theorem sameButEnts_put (v : Wave) (e l : Nat) (x : Word) : sameButEnts v (v.put e l x) := ⟨_, rfl⟩

theorem sameButEnts_putWords (v : Wave) (e l : Nat) (ws : List Word) : sameButEnts v (putWords v e l ws) := by
  induction ws generalizing v e with
  | nil => exact sameButEnts_refl v
  | cons a t ih => rw [putWords_cons]; exact sameButEnts_trans (sameButEnts_put v e l a) (ih _ _)

theorem foldLanes_cell (d : Nat) (f : Nat → List Word) (ls : List Nat) (hls : ∀ l ∈ ls, l < 64)
    (hd : ∀ l, d + (f l).length ≤ 552) (a : Written) (e l : Nat) (hl : l < 64) :
    (ls.foldl (fun a l => (⟨putWords a.v d l (f l), a.vals ++ (f l).map fun w => (l, w), a.sst⟩ : Written)) a).v.cell e l =
      match (if l ∈ ls ∧ d ≤ e then (f l)[e - d]? else none) with
      | some w => ⟨w, .full⟩
      | none => a.v.cell e l := by
  induction ls generalizing a with
  | nil => simp
  | cons b t ih =>
    rw [List.foldl_cons, ih (fun l h => hls l (by simp [h]))]
    simp only
    rw [cell_putWords _ _ _ _ _ _ (hls b (by simp)) hl]
    have hout : 552 ≤ e → ∀ k, (f k)[e - d]? = none := by
      intro h552 k
      rw [List.getElem?_eq_none]
      have := hd k
      omega
    by_cases hde : d ≤ e
    · by_cases h552 : 552 ≤ e
      · simp [hout h552]
      · have hlt : e < 552 := by omega
        by_cases hlb : l = b
        · subst hlb
          by_cases hlt' : l ∈ t
          · simp [hde, hlt, hlt']
            split <;> simp_all
          · simp [hde, hlt, hlt']
        · have : l ∈ b :: t ↔ l ∈ t := by simp [hlb]
          simp [hde, hlt, hlb]
    · simp [hde]

theorem foldLanes_same (d : Nat) (f : Nat → List Word) (ls : List Nat) (a : Written) :
    sameButEnts a.v (ls.foldl (fun a l => (⟨putWords a.v d l (f l), a.vals ++ (f l).map fun w => (l, w), a.sst⟩ : Written)) a).v := by
  induction ls generalizing a with
  | nil => exact sameButEnts_refl a.v
  | cons b t ih =>
    rw [List.foldl_cons]
    exact sameButEnts_trans (sameButEnts_putWords a.v d b (f b)) (ih ⟨putWords a.v d b (f b), _, a.sst⟩)

theorem foldLanes_sst (d : Nat) (f : Nat → List Word) (ls : List Nat) (a : Written) :
    (ls.foldl (fun a l => (⟨putWords a.v d l (f l), a.vals ++ (f l).map fun w => (l, w), a.sst⟩ : Written)) a).sst = a.sst := by
  induction ls generalizing a with
  | nil => rfl
  | cons b t ih => rw [List.foldl_cons, ih]

theorem writeD_cell (v : Wave) (x : Body) (m : Mask) (f : Nat → List Word) (n : Nat) (hn : ∀ l, (f l).length ≤ n)
    (h8 : n ≤ 64) (hr : DRoom x n) (e l : Nat) (hl : l < 64) : (writeD v x.d m f).v.cell e l = dstCell v x.d m f e l := by
  unfold writeD dstCell dstWord
  have go (o : Opd) (d : Nat) (ho : opdEnt o = some d) (hd : d + n ≤ 552) :
      ((lanesOf m).foldl (fun a l => (⟨putWords a.v d l (f l), a.vals ++ (f l).map fun w => (l, w), a.sst⟩ : Written)) ⟨v, [], []⟩).v.cell e l =
      match (if m.getLsbD l = true ∧ d ≤ e then (f l)[e - d]? else none) with
      | some w => ⟨w, .full⟩
      | none => v.cell e l := by
    rw [foldLanes_cell d f _ (fun l h => lanesOf_lt h) (fun l => by have := hn l; omega) _ _ _ hl]
    simp only [mem_lanesOf, hl, true_and]
  match hd : x.d with
  | none => rfl
  | some (.s i) => simp only [opdEnt]; split <;> rfl
  | some (.w i) =>
    simp only
    by_cases hm : m = 0
    · simp [hm]
    · simp only [hm, ↓reduceIte, ne_eq, not_false_eq_true, true_and]
      rw [cell_putWords _ _ _ _ _ _ (by omega) hl]
      by_cases he : 552 + i.val ≤ e
      · have : ¬ e < 552 := by omega
        simp only [he, this, false_implies, and_self, ↓reduceIte] <;> rfl
      · simp only [he, false_and, ↓reduceIte]
  | some (.h i) => exact go (.h i) _ rfl (by omega)
  | some (.n i) => exact go (.n i) _ rfl (by omega)
  | some (.m i) =>
    have : i.val + n ≤ 512 := by simpa [DRoom, hd] using hr
    exact go (.m i) _ rfl (by omega)
  | some (.k _) => rfl
  | some (.lit _) => rfl
  | some (.q _) => rfl
  | some (.o _) => rfl
  | some (.t _) => rfl

theorem writeD_same (v : Wave) (d : Option Opd) (m : Mask) (f : Nat → List Word) : sameButEnts v (writeD v d m f).v := by
  unfold writeD
  split
  · exact sameButEnts_refl v
  · split <;> exact sameButEnts_refl v
  · split
    · exact sameButEnts_refl v
    · exact sameButEnts_putWords _ _ _ _
  · split
    · exact sameButEnts_refl v
    · exact foldLanes_same _ _ _ ⟨v, [], []⟩

theorem writeD_sst (v : Wave) (d : Option Opd) (m : Mask) (f : Nat → List Word) :
    (writeD v d m f).sst = match d with
      | some (.s i) => if m = 0 then [] else (f (lowLane m)).zipIdx.map fun x => (4 * (i.val + x.2), x.1)
      | _ => [] := by
  unfold writeD
  split
  · rfl
  · split <;> rfl
  · split <;> rfl
  · rename_i o _ hs hw
    split
    · cases o <;> simp_all
    · rw [foldLanes_sst]
      cases o <;> simp_all

/-! ### Flags and KEEP -/

theorem flag_setFlags (v : Wave) (l k : Nat) (f : BitVec 6) : (v.setFlags l f).flag k = if k = l then f else v.flag k := by
  unfold Wave.setFlags Wave.flag kgetD
  simp only
  split
  · subst_vars
    by_cases h : k = l
    · subst h; simp
    · simp [h, kget_kdel_other]
  · by_cases h : k = l
    · subst h; simp
    · simp [h, kget_kput_other]

theorem keepFold_cell (t : Nat) (ht : t < 552) (g : Nat → Word) (ls : List Nat) (hls : ∀ l ∈ ls, l < 64) (v : Wave) (e l : Nat)
    (hl : l < 64) : (ls.foldl (fun v l => v.put t l (g l)) v).cell e l = if e = t ∧ l ∈ ls then ⟨g l, .full⟩ else v.cell e l := by
  induction ls generalizing v with
  | nil => simp
  | cons b u ih =>
    rw [List.foldl_cons, ih (fun l h => hls l (by simp [h])), cell_put _ _ _ _ _ _ (hls b (by simp)) hl]
    by_cases he : e = t
    · by_cases hlb : l = b
      · subst hlb; simp [he]
      · simp [he, ht, hlb]
    · simp [he]

theorem keepFold_same (t : Nat) (g : Nat → Word) (ls : List Nat) (v : Wave) :
    sameButEnts v (ls.foldl (fun v l => v.put t l (g l)) v) := by
  induction ls generalizing v with
  | nil => exact sameButEnts_refl v
  | cons b u ih => rw [List.foldl_cons]; exact sameButEnts_trans (sameButEnts_put v t b (g b)) (ih _)

theorem keepWrites_cell (x : Body) (i : Iss) (s : State) (v : Wave) (e l : Nat) (hl : l < 64) :
    (keepWrites x i s v).cell e l = match x.keep with
      | some (k, t) => if e = t.val ∧ i.ex.getLsbD l = true then
          ⟨keepVal s i.v i.op x k l, .full⟩ else v.cell e l
      | none => v.cell e l := by
  unfold keepWrites
  cases hk : x.keep with
  | none => rfl
  | some y =>
    obtain ⟨k, t⟩ := y
    simp only
    rw [keepFold_cell t.val (by omega) _ _ (fun l h => lanesOf_lt h) _ _ _ hl]
    simp only [mem_lanesOf, hl, true_and]

theorem keepWrites_same (x : Body) (i : Iss) (s : State) (v : Wave) : sameButEnts v (keepWrites x i s v) := by
  unfold keepWrites
  split
  · exact sameButEnts_refl v
  · exact keepFold_same _ _ _ _

/-- Everything of a wave but its flags. -/
def sameButFlags (v u : Wave) : Prop := ∃ m, u = { v with flags := m }

theorem sameButFlags_trans {a b c : Wave} (h : sameButFlags a b) (k : sameButFlags b c) : sameButFlags a c := by
  obtain ⟨m, rfl⟩ := h
  obtain ⟨n, rfl⟩ := k
  exact ⟨n, rfl⟩

theorem addFlags_same (v : Wave) (fl : KMap FFlags) (m : Mask) : sameButFlags v (addFlags v fl m) := by
  unfold addFlags
  induction fl generalizing v with
  | nil => exact ⟨v.flags, rfl⟩
  | cons a t ih =>
    rw [List.foldl_cons]
    refine sameButFlags_trans ?_ (ih _)
    split
    · exact ⟨_, rfl⟩
    · exact ⟨v.flags, rfl⟩

theorem addFlags_flag (v : Wave) (g : Nat → FFlags) (ls : List Nat) (hn : ls.Nodup) (m : Mask) (k : Nat) :
    (addFlags v (ls.filterMap fun l => if g l = 0 then none else some (l, g l)) m).flag k =
      if k ∈ ls ∧ m.getLsbD k = true then v.flag k ||| g k else v.flag k := by
  unfold addFlags
  induction ls generalizing v with
  | nil => simp
  | cons a t ih =>
    obtain ⟨ha, ht⟩ := List.nodup_cons.1 hn
    by_cases hg : g a = 0
    · simp only [List.filterMap_cons, hg, ↓reduceIte, ih v ht]
      by_cases hka : k = a
      · subst hka; simp [ha, hg]
      · simp [hka]
    · simp only [List.filterMap_cons, hg, ↓reduceIte, List.foldl_cons, ih _ ht]
      by_cases hka : k = a
      · subst hka
        by_cases hm : m.getLsbD k = true <;> simp [ha, hm, flag_setFlags]
      · by_cases hm : m.getLsbD a = true <;> simp [hka, hm, flag_setFlags]

/-! ### Retirement of a register word -/

/-- The S-level words of a change (R161). -/
def sWords (x : Body) (c : Change) : List (Nat × Word) :=
  match x.d with
  | some (.s i) => if c.lanes = 0 then [] else (c.ds (lowLane c.lanes)).zipIdx.map fun y => (4 * (i.val + y.2), y.1)
  | _ => []

theorem storedS_eq (v : Wave) (x : Body) (ex : Mask) (c : Change) :
    storedS v x ex c = if ex &&& ~~~v.helper = 0 then [] else sBytes (sWords x c) := by
  have hn : sBytes [] = [] := rfl
  unfold storedS sWords
  match x.d with
  | some (.s i) =>
    by_cases h1 : c.lanes = 0
    · simp only [h1, true_or, ↓reduceIte, hn, ite_self]
    · by_cases h2 : ex &&& ~~~v.helper = 0
      · simp only [h2, or_true, ↓reduceIte]
      · simp only [h1, h2, or_self, ↓reduceIte]
  | none | some (.h _) | some (.n _) | some (.m _) | some (.w _) | some (.k _) | some (.lit _) | some (.q _) | some (.o _)
  | some (.t _) => simp only [hn, ite_self]

/-- An effect that makes a change. -/
structure EffIs (e : Eff) (x : Body) (v : Wave) (ex real : Mask) (c : Change) : Prop where
  cells : ∀ n l, l < 64 → e.v.cell n l = dstCell v x.d c.lanes c.ds n l
  sst : e.sst = sWords x c
  flags : ∀ l, l < 64 → (addFlags e.v e.fl real).flag l = c.flags l
  trap : fpTrapLanes v e.fl real = 0
  preds : ∀ p l, l < 64 → (e.v.pred p).getLsbD l = c.preds p l
  bases : ∀ i : Nat, e.v.bases.toList[i]? = c.bases i
  fpen : e.v.fpen = c.fpen
  rng : (if e.rs then e.v.rng + 1 else e.v.rng) = c.rng
  cap : e.v.tickCap = c.cap
  paths : e.v.paths = v.paths

theorem advance_lanes (a : Slot) : a.advance (a.mask &&& ~~~a.stepped) = slotAfter a := by
  unfold Slot.advance slotAfter
  have h : a.mask &&& ~~~(a.stepped ||| a.mask &&& ~~~a.stepped) = 0 := by
    apply BitVec.eq_of_getLsbD_eq
    intro i hi
    simp only [BitVec.getLsbD_and, BitVec.getLsbD_not, BitVec.getLsbD_or, hi, decide_true, Bool.true_and]
    cases a.mask.getLsbD i <;> cases a.stepped.getLsbD i <;> simp
  simp only [h, ↓reduceIte]
  rfl

theorem onlyWave_putWave (s : State) (w : Nat) (u : Wave) : OnlyWave s (s.putWave w u) w u := by
  unfold OnlyWave State.putWave State.wave?
  refine ⟨rfl, by simp, fun k hk => kget_kput_other _ _ hk⟩

theorem onlyWave_modWave {s : State} {w : Nat} {v : Wave} (hw : s.wave? w = some v) (f : Wave → Wave) :
    OnlyWave s (s.modWave w f) w (f v) := by
  unfold OnlyWave State.modWave State.wave? at *
  refine ⟨rfl, by simp [hw], fun k hk => kget_kmod_other _ _ hk⟩

theorem onlyWave_trans {s t u : State} {w : Nat} {v v' : Wave} (h : OnlyWave s t w v) (k : OnlyWave t u w v') : OnlyWave s u w v' := by
  obtain ⟨h1, h2, h3⟩ := h
  obtain ⟨k1, k2, k3⟩ := k
  refine ⟨?_, k2, fun n hn => by rw [k3 n hn, h3 n hn]⟩
  rw [← h1, ← k1]

theorem onlyWave_watch {s t : State} {w : Nat} {u : Wave} (h : OnlyWave s t w u) : t.watch = s.watch :=
  (congrArg State.watch h.1 : _)

theorem wave_slot_eq (v : Wave) {sl : Nat} (h : sl < 2) (x : Slot) : (v.setSlot sl x).slot sl = x ∧ (v.setSlot sl x).slot (1 - sl) = v.slot (1 - sl) := by
  unfold Wave.setSlot Wave.slot
  have : sl = 0 ∨ sl = 1 := by omega
  rcases this with rfl | rfl <;> simp

theorem unwatched_congr {s t : State} {v u : Wave} (h : Unwatched s v) (hw : t.watch = s.watch) (hp : u.place = v.place)
    (hc : u.ctx = v.ctx) : Unwatched t u := by
  unfold Unwatched watchUnit at *
  rw [hw, hp, hc]; exact h

/-- A word ends silently where no watch unit and no gang halt follows the wave. -/
theorem ends_silent {s t : State} {w sl : Nat} {v u : Wave} (hI : Issues s w sl v) {i : Iss} (hi : i.w = w)
    (ht : t.wave? w = some u) (hw : t.watch = s.watch) (hp : u.place = v.place) (hc : u.ctx = v.ctx) (hg : u.gangHalt = v.gangHalt)
    (k : Seen) : countGangHalt (watchWord i t k) i = t := by
  subst hi
  unfold watchWord
  rw [watchWave_silent ht (unwatched_congr hI.quiet hw hp hc), countGangHalt_free ht (hg.trans hI.free)]

/-- The wave after a register word: what the word gained, and its slot past the word. -/
def retired (u e : Wave) (sl : Nat) (lanes : Mask) : Wave :=
  { u.withRegs e with lastSlot := sl }.modSlot sl (·.advance lanes)

theorem advance_onlyWave {s1 : State} {w sl : Nat} {v u : Wave} (hu : s1.wave? w = some u) (o : Op) (x : Body) (e : Wave) :
    OnlyWave s1 (advance (issOf o x w sl v) (s1.modWave w fun a => a.withRegs e)) w (retired u e sl (lanesIn v sl)) := by
  have h1 := onlyWave_modWave hu (fun a => a.withRegs e)
  have h2 := onlyWave_modWave h1.2.1 (fun a => { a with lastSlot := sl }.modSlot sl (·.advance (lanesIn v sl)))
  exact onlyWave_trans h1 h2

/-- The registers that a word leaves. -/
def regsAfter (x : Body) (i : Iss) (s : State) (e : Eff) : Wave :=
  let v1 := keepWrites x i s (addFlags e.v e.fl i.real)
  if e.rs then { v1 with rng := v1.rng + 1 } else v1

/-- What holds a wave's loads and stores back is not there. -/
theorem memHeld_of_may {s : State} {w sl : Nat} {v : Wave} (h : MayAccess s w sl v) {i : Iss} (hw : i.w = w) (hs : i.sl = sl)
    (hv : i.v = v) : memHeld s i = false := by
  obtain ⟨h1, h2, h3⟩ := h
  unfold memHeld otherCloses otherCommits acqHeld fencedOut Iss.other
  rw [hw, hs, hv]
  simp only [Bool.or_eq_false_iff]
  refine ⟨⟨?_, ?_⟩, ?_, ?_⟩
  · by_cases hl : (v.slot (1 - sl)).live = true
    · simp [h1 hl]
    · simp [hl]
  · by_cases hl : (v.slot (1 - sl)).live = true
    · obtain ⟨he, hh⟩ := h1 hl
      simp only [hl, he, Option.isSome_none, Bool.false_and, Bool.false_or, Bool.true_and]
    · simp [hl]
  · rw [List.any_eq_false]
    intro r hr
    by_cases hw : r.wave = w
    · simp [h2 r hr hw]
    · simp [hw]
  · rw [List.any_eq_false]
    intro y hy
    by_cases hw : y.2.wave = w
    · cases hf : y.2.fenced
      · simp
      · split
        · rename_i items trk hk
          have := h3 y hy hw hf items trk hk
          have : (items.any LoadItem.unread) = false := by
            rw [List.any_eq_false]
            intro it hit
            rcases this it hit with h | h
            · unfold LoadItem.unread
              cases hd : it.data with
              | none => exact absurd hd h
              | some d => simp
            · simp [LoadItem.unread, h]
          simp [this]
        · simp
    · simp [hw]

/-- What a word stores at level S enters the wave buffer: nothing is stored, or nothing holds the store back and there is room. -/
def Fits (s : State) (w sl : Nat) (v : Wave) (bytes : List (Nat × Byte)) : Prop :=
  bytes = [] ∨ (MayAccess s w sl v ∧ bufLines (bufPut v true bytes) ≤ 128)

theorem retire_wave {s : State} {w sl : Nat} {v : Wave} (hI : Issues s w sl v) (o : Op) (x : Body) (e : Eff)
    (htrap : fpTrapLanes v e.fl (realIn v sl x) = 0)
    (hfit : realIn v sl x = 0 ∨ Fits s w sl v (sBytes e.sst)) :
    ∃ h, (e.sst = [] ∨ realIn v sl x = 0 → h = v.hash) ∧
    OnlyWave s (retire x (issOf o x w sl v) s e) w
      (retired { v with bufS := putAll v.bufS (if realIn v sl x = 0 then [] else sBytes e.sst), hash := h }
        (regsAfter x (issOf o x w sl v) s e) sl (lanesIn v sl)) := by
  have hreal : (issOf o x w sl v).real = realIn v sl x := rfl
  unfold retire
  rw [if_neg (by rw [hreal]; simpa [issOf] using htrap)]
  unfold sStore
  rw [hreal]
  by_cases hc : e.sst = [] ∨ realIn v sl x = 0
  · refine ⟨v.hash, fun _ => rfl, ?_⟩
    rw [if_pos (by simpa using hc)]
    have hb : (if realIn v sl x = 0 then [] else sBytes e.sst) = [] := by
      rcases hc with hc | hc
      · rw [hc]; split <;> rfl
      · rw [if_pos hc]
    rw [hb]
    have h1 := advance_onlyWave hI.wave o x (v := v) (sl := sl)
      (regsAfter x (issOf o x w sl v) s e)
    exact (congrArg (OnlyWave s · w _) (ends_silent hI rfl h1.2.1 (onlyWave_watch h1) (by simp [retired]) (by simp [retired])
      (by simp [retired]) _)).mpr h1
  · have hs : e.sst ≠ [] := fun h => hc (.inl h)
    have hr : realIn v sl x ≠ 0 := fun h => hc (.inr h)
    rw [if_neg (by simpa using hc), if_neg hr]
    have hfit' : MayAccess s w sl v ∧ bufLines (bufPut v true (sBytes e.sst)) ≤ 128 := by
      rcases hfit with h | h | h
      · exact absurd h hr
      · exfalso
        cases he : e.sst with
        | nil => exact hs he
        | cons a t => rw [he] at h; simp [sBytes, bytesAt, leBytes] at h
      · exact h
    obtain ⟨hmay, hfit'⟩ := hfit'
    rw [if_neg (by rw [memHeld_of_may hmay rfl rfl rfl]; simp)]
    refine ⟨hashStores v.hash true ((lanesOf (realIn v sl x)).map fun _ =>
      (((e.sst.head?).map Prod.fst).getD 0, (sBytes e.sst).map Prod.snd)), fun h => absurd h hc, ?_⟩
    have hst : storeBytes s w true (sBytes e.sst) = .ok (s.putWave w (bufPut v true (sBytes e.sst))) := by
      unfold storeBytes
      rw [hI.wave]
      simp only [hfit', ↓reduceIte]
    have hw : (issOf o x w sl v).w = w := rfl
    have hv : (issOf o x w sl v).v = v := rfl
    simp only [bufStore, hw, hst, hv, hfit', ↓reduceIte]
    have h0 := onlyWave_putWave s w (bufPut v true (sBytes e.sst))
    have h1 := onlyWave_trans h0 (onlyWave_modWave h0.2.1 fun a => { a with
      hash := hashStores a.hash true ((lanesOf (realIn v sl x)).map fun _ =>
        (((e.sst.head?).map Prod.fst).getD 0, (sBytes e.sst).map Prod.snd)) })
    have h2 := onlyWave_trans h1 (advance_onlyWave h1.2.1 o x (v := v) (sl := sl)
      (regsAfter x (issOf o x w sl v) s e))
    exact (congrArg (OnlyWave s · w _) (ends_silent hI rfl h2.2.1 (onlyWave_watch h2) (by simp [retired, bufPut])
      (by simp [retired, bufPut]) (by simp [retired, bufPut]) _)).mpr h2

theorem sBytes_eq_nil {l : List (Nat × Word)} : sBytes l = [] ↔ l = [] := by
  cases l with
  | nil => simp [sBytes]
  | cons a t => simp [sBytes, bytesAt, leBytes]

theorem regsAfter_eq (x : Body) (i : Iss) (s : State) (e : Eff) :
    ∃ m f, regsAfter x i s e = { e.v with ents := m, flags := f, rng := if e.rs then e.v.rng + 1 else e.v.rng } ∧
      m = (keepWrites x i s (addFlags e.v e.fl i.real)).ents ∧ f = (addFlags e.v e.fl i.real).flags := by
  obtain ⟨f, hf⟩ := addFlags_same e.v e.fl i.real
  obtain ⟨m, hm⟩ := keepWrites_same x i s (addFlags e.v e.fl i.real)
  have hk : keepWrites x i s (addFlags e.v e.fl i.real) = { e.v with ents := m, flags := f } := by rw [hm, hf]
  refine ⟨m, f, ?_, by rw [hk], by rw [hf]⟩
  unfold regsAfter
  simp only [hk]
  split <;> rfl

theorem retire_does {s : State} {w sl : Nat} {v : Wave} (hI : Issues s w sl v) {ins : Instr} {o : Op} {x : Body} {e : Eff} {c : Change}
    (hrun : Machine.exec ins s = .next (retire x (issOf o x w sl v) s e)) (he : EffIs e x v (exIn v sl x) (realIn v sl x) c)
    (hop : (opOf ins).map Prod.fst = some o) (hfit : Fits s w sl v (storedS v x (exIn v sl x) c)) : Does ins x s w sl v c := by
  have hst := storedS_eq v x (exIn v sl x) c
  have hr : exIn v sl x &&& ~~~v.helper = realIn v sl x := rfl
  rw [hr, ← he.sst] at hst
  obtain ⟨m, f, hreg, hm, hf⟩ := regsAfter_eq x (issOf o x w sl v) s e
  have hreal : (issOf o x w sl v).real = realIn v sl x := rfl
  rw [hreal] at hm hf
  have hfit' : realIn v sl x = 0 ∨ Fits s w sl v (sBytes e.sst) := by
    by_cases h0 : realIn v sl x = 0
    · exact .inl h0
    · rw [if_neg h0] at hst
      rw [← hst]; exact .inr hfit
  obtain ⟨h, hh, ho⟩ := retire_wave hI o x e he.trap hfit'
  rw [hreg, ← hst] at ho
  have hsl := hI.slot
  have hcell (a : Wave) (ha : a.ents = m) (n l : Nat) (hl : l < 64) : a.cell n l = cellAfter ins s v x (exIn v sl x) c n l := by
    have h1 : a.cell n l = (keepWrites x (issOf o x w sl v) s (addFlags e.v e.fl (realIn v sl x))).cell n l := by
      unfold Wave.cell; rw [ha, hm]
    obtain ⟨f', hf'⟩ := addFlags_same e.v e.fl (realIn v sl x)
    have h2 : (addFlags e.v e.fl (realIn v sl x)).cell n l = dstCell v x.d c.lanes c.ds n l := by
      rw [← he.cells n l hl, hf']; rfl
    rw [h1, keepWrites_cell _ _ _ _ _ _ hl]
    have hk (k : KeepSel) : keptWord ins s v x k l = keepVal s v o x k l := by
      unfold keptWord
      cases ho : opOf ins with
      | none => rw [ho] at hop; cases hop
      | some y => rw [ho] at hop; cases hop; rfl
    unfold cellAfter
    rw [h2]
    simp only [hk]
    rfl
  have hslot : sl = 0 ∨ sl = 1 := by omega
  refine ⟨_, _, hrun, ho, ?_, ?_, fun n l hl => hcell _ ?_ n l hl, ?_, ?_, ?_, ?_, ?_, ?_, ?_, ?_, ?_⟩
  · rcases hslot with rfl | rfl <;> exact advance_lanes _
  · rcases hslot with rfl | rfl <;> rfl
  · rcases hslot with rfl | rfl <;> rfl
  · rcases hslot with rfl | rfl <;> rfl
  · intro h0
    rw [h0] at hst
    have : h = v.hash := by
      apply hh
      by_cases hz : realIn v sl x = 0
      · exact .inr hz
      · rw [if_neg hz] at hst
        exact .inl (sBytes_eq_nil.1 hst.symm)
    rcases hslot with rfl | rfl <;> exact this
  · intro p l hl
    rw [← he.preds p l hl]
    rcases hslot with rfl | rfl <;> rfl
  · intro i
    rw [← he.bases i]
    rcases hslot with rfl | rfl <;> rfl
  · intro l hl
    rw [← he.flags l hl]
    have : ∀ a : Wave, a.flags = f → a.flag l = (addFlags e.v e.fl (realIn v sl x)).flag l := by
      intro a ha; unfold Wave.flag; rw [ha, hf]
    rcases hslot with rfl | rfl <;> exact this _ rfl
  · rw [← he.fpen]; rcases hslot with rfl | rfl <;> rfl
  · rw [← he.rng]; rcases hslot with rfl | rfl <;> rfl
  · rw [← he.cap]; rcases hslot with rfl | rfl <;> rfl
  · have hp := he.paths
    rcases hslot with rfl | rfl
    · simp [retired, Wave.withRegs, Wave.modSlot, Wave.setSlot, Wave.slot, hp]
    · simp [retired, Wave.withRegs, Wave.modSlot, Wave.setSlot, Wave.slot, hp]

/-! ### The effects of register words -/

theorem effOn_get (m : Mask) (f : Nat → LaneVal) (l : Nat) :
    (match ((lanesOf m).map fun l => (l, f l)).find? fun y => y.1 = l with | some y => y.2.ws | none => []) =
      if l ∈ lanesOf m then (f l).ws else [] := by
  generalize lanesOf m = ls
  induction ls with
  | nil => rfl
  | cons a t ih =>
    by_cases h : a = l
    · subst h; simp
    · have h' : ¬ l = a := fun e => h e.symm
      simp only [List.map_cons, List.find?_cons, h, decide_false, List.mem_cons, h', false_or]
      exact ih

theorem dstCell_congr (v : Wave) (d : Option Opd) (m : Mask) {f g : Nat → List Word} (h : ∀ l, l ∈ lanesOf m → f l = g l)
    (e l : Nat) (hl : l < 64) : dstCell v d m f e l = dstCell v d m g e l := by
  have hw : dstWord d m f e l = dstWord d m g e l := by
    unfold dstWord
    split
    · split
      · rename_i hm; rw [h _ (lowLane_mem hm.1)]
      · rfl
    · split
      · split
        · rename_i hm; rw [h l ((mem_lanesOf m l).2 ⟨hl, hm.1⟩)]
        · rfl
      · rfl
    · rfl
  unfold dstCell
  rw [hw]

theorem effOn_is (x : Body) (i : Iss) (m : Mask) (rs : Bool) (f : Nat → LaneVal) (real : Mask) (n : Nat)
    (hn : ∀ l, l ∈ lanesOf m → (f l).ws.length ≤ n) (h8 : n ≤ 64) (hr : DRoom x n)
    (ht : NoFpTrap i.v (m &&& real) fun l => (f l).fl) (ex : Mask) :
    EffIs (effOn x i m rs f) x i.v ex real
      { (Change.words i.v m fun l => (f l).ws).withFlags (m &&& real) fun l => (f l).fl with
        rng := if rs then i.v.rng + 1 else i.v.rng } := by
  obtain ⟨k, hk⟩ := writeD_same i.v x.d m fun l => if l ∈ lanesOf m then (f l).ws else []
  have hget : (fun l => (match ((lanesOf m).map fun l => (l, f l)).find? fun y => y.1 = l with | some y => y.2.ws | none => [])) =
      fun l => if l ∈ lanesOf m then (f l).ws else [] := funext (effOn_get m f)
  have hv : (effOn x i m rs f).v = (writeD i.v x.d m fun l => if l ∈ lanesOf m then (f l).ws else []).v := by
    rw [← hget]; rfl
  have hsst : (effOn x i m rs f).sst = (writeD i.v x.d m fun l => if l ∈ lanesOf m then (f l).ws else []).sst := by
    rw [← hget]; rfl
  have hfl : (effOn x i m rs f).fl = (lanesOf m).filterMap fun l => if (f l).fl = 0 then none else some (l, (f l).fl) := by
    unfold effOn
    simp only [List.filterMap_map]
    rfl
  have hflag (l : Nat) (hl : l < 64) (u : Wave) (hu : u.flags = i.v.flags) : (addFlags u (effOn x i m rs f).fl real).flag l =
      if (m &&& real).getLsbD l = true then i.v.flag l ||| (f l).fl else i.v.flag l := by
    rw [hfl, addFlags_flag u (fun l => (f l).fl) _ (nodup_lanesOf m)]
    have : u.flag l = i.v.flag l := by unfold Wave.flag; rw [hu]
    simp only [mem_lanesOf, hl, true_and, BitVec.getLsbD_and, Bool.and_eq_true, this]
  constructor
  · intro e l hl
    rw [hv]
    rw [writeD_cell i.v x m _ n (fun l => by split; exact hn l ‹_›; simp) h8 hr e l hl]
    exact dstCell_congr _ _ _ (fun l hl => by rw [if_pos hl]; rfl) _ _ hl
  · rw [hsst, writeD_sst]
    unfold sWords
    split
    · rename_i y _
      by_cases hm : m = 0
      · rw [if_pos hm, if_pos (show ({ (Change.words i.v m fun l => (f l).ws).withFlags (m &&& real) fun l => (f l).fl with
          rng := if rs then i.v.rng + 1 else i.v.rng } : Change).lanes = 0 from hm)]
      · rw [if_neg hm, if_neg (show ¬ ({ (Change.words i.v m fun l => (f l).ws).withFlags (m &&& real) fun l => (f l).fl with
          rng := if rs then i.v.rng + 1 else i.v.rng } : Change).lanes = 0 from hm)]
        simp only [lowLane_mem hm, ↓reduceIte]
        rfl
    · rfl
  · intro l hl
    exact hflag l hl _ (by rw [hv, hk])
  · unfold fpTrapLanes
    rw [maskOf_eq_zero]
    intro l hl
    by_cases hreal : real.getLsbD l = true
    · rw [hreal, Bool.true_and]
      rw [hfl]
      by_cases hm : l ∈ lanesOf m
      · have h0 := ht l hl (by simp [hreal, ((mem_lanesOf m l).1 hm).2])
        have hg : ∀ ls : List Nat, kgetD (ls.filterMap fun l => if (f l).fl = 0 then none else some (l, (f l).fl)) l 0 = (f l).fl ∨
            kgetD (ls.filterMap fun l => if (f l).fl = 0 then none else some (l, (f l).fl)) l 0 = 0 := by
          intro ls
          induction ls with
          | nil => exact .inr rfl
          | cons a t ih =>
            by_cases ha : (f a).fl = 0
            · simpa [ha] using ih
            · simp only [List.filterMap_cons, ha, ↓reduceIte]
              by_cases hal : a = l
              · subst hal; left; simp [kgetD, kget]
              · unfold kgetD at *; simp only [kget, hal, ↓reduceIte]; exact ih
        rcases hg (lanesOf m) with hg | hg
        · rw [hg, h0]; simp
        · rw [hg]; simp
      · have hg : ∀ ls : List Nat, l ∉ ls → kget (ls.filterMap fun l => if (f l).fl = 0 then none else some (l, (f l).fl)) l = none := by
          intro ls
          induction ls with
          | nil => intro _; rfl
          | cons a t ih =>
            intro hla
            have hla' : l ≠ a ∧ l ∉ t := by simpa using hla
            by_cases ha : (f a).fl = 0
            · simpa [ha] using ih hla'.2
            · simp only [List.filterMap_cons, ha, ↓reduceIte, kget]
              rw [if_neg (fun h => hla'.1 h.symm)]; exact ih hla'.2
        unfold kgetD; rw [hg _ hm]; simp
    · simp [hreal]
  · intro p l _; rw [hv, hk]; rfl
  · intro j; rw [hv, hk]; rfl
  · rw [hv, hk]; rfl
  · rw [hv, hk]; rfl
  · rw [hv, hk]; rfl
  · rw [hv, hk]

/-- An effect that also writes a predicate. -/
theorem effIs_setPred {e : Eff} {x : Body} {v : Wave} {ex real : Mask} {c : Change} (h : EffIs e x v ex real c) (p : Fin 8)
    (m : Mask) (f : Nat → Bool) (b : Mask) (hb : ∀ l, l < 64 → m.getLsbD l = true → b.getLsbD l = f l) :
    EffIs { e with v := e.v.setPred p.val m b } x v ex real (c.withPred p m f) := by
  obtain ⟨P, hP⟩ : ∃ P, e.v.setPred p.val m b = { e.v with preds := P } := by
    unfold Wave.setPred
    split
    · exact ⟨_, rfl⟩
    · exact ⟨e.v.preds, rfl⟩
  have hfl : (addFlags (e.v.setPred p.val m b) e.fl real).flags = (addFlags e.v e.fl real).flags := by
    rw [hP]
    unfold addFlags
    have : ∀ (fl : KMap FFlags) (u u' : Wave), u.flags = u'.flags →
        (fl.foldl (fun v x => if real.getLsbD x.1 then v.setFlags x.1 (v.flag x.1 ||| x.2) else v) u).flags =
        (fl.foldl (fun v x => if real.getLsbD x.1 then v.setFlags x.1 (v.flag x.1 ||| x.2) else v) u').flags := by
      intro fl
      induction fl with
      | nil => intro u u' hu; exact hu
      | cons a t ih =>
        intro u u' hu
        simp only [List.foldl_cons]
        apply ih
        split
        · unfold Wave.setFlags Wave.flag; simp only [hu]
        · exact hu
    exact this _ _ _ rfl
  constructor
  · intro n l hl
    show (e.v.setPred p.val m b).cell n l = dstCell v x.d c.lanes c.ds n l
    rw [← h.cells n l hl, hP]; rfl
  · exact h.sst
  · intro l hl
    show (addFlags (e.v.setPred p.val m b) e.fl real).flag l = c.flags l
    rw [← h.flags l hl]; unfold Wave.flag; rw [hfl]
  · exact h.trap
  · intro q l hl
    simp only [Change.withPred]
    unfold Wave.setPred
    have hq := h.preds q l hl
    split
    · rename_i hp
      unfold Wave.pred at hq ⊢
      by_cases hqp : q = p.val
      · subst hqp
        simp only [hp, ↓reduceDIte, Vector.getElem_set_self, true_and, BitVec.getLsbD_or, BitVec.getLsbD_and, BitVec.getLsbD_not, hl,
          decide_true, Bool.true_and] at hq ⊢
        by_cases hm : m.getLsbD l = true
        · simp [hm, hb l hl hm]
        · simp [hm, hq]
      · split
        · rename_i hq7
          rw [dif_pos hq7] at hq
          simp only [Vector.getElem_set_ne _ _ (Ne.symm hqp), hq, hqp, false_and, ↓reduceIte]
        · rename_i hq7
          rw [dif_neg hq7] at hq
          simp only [hq, hqp, false_and, ↓reduceIte]
    · rename_i hp
      rw [hq, if_neg (by rintro ⟨rfl, h7, _⟩; exact hp h7)]
  · intro k
    show (e.v.setPred p.val m b).bases.toList[k]? = c.bases k
    rw [← h.bases k, hP]
  · show (e.v.setPred p.val m b).fpen = c.fpen
    rw [← h.fpen, hP]
  · show (if e.rs then (e.v.setPred p.val m b).rng + 1 else (e.v.setPred p.val m b).rng) = c.rng
    rw [← h.rng, hP]
  · show (e.v.setPred p.val m b).tickCap = c.cap
    rw [← h.cap, hP]
  · show (e.v.setPred p.val m b).paths = v.paths
    rw [← h.paths, hP]

end Sys2Proof.Laws
end

