-- ==== Sys2Proof/Laws/Words.lean ====
section
/-! SUPPORT. The shapes of register words: what a lane-wise word, a word that only changes the wave and a floating-point
word do, in the terms of the claims. -/

namespace Sys2Proof.Laws

open Sys2Proof Sys2Proof.Machine Sys2Proof.Safety

/-! ### Room in the wave buffer -/

theorem kput_keys {α : Type} (m : KMap α) (m' : KMap α) (k : Nat) (v v' : α) (h : m.map Prod.fst = m'.map Prod.fst) :
    (kput m k v).map Prod.fst = (kput m' k v').map Prod.fst := by
  induction m generalizing m' with
  | nil =>
    cases m' with
    | nil => rfl
    | cons a t => simp at h
  | cons a t ih =>
    cases m' with
    | nil => simp at h
    | cons b u =>
      obtain ⟨j, x⟩ := a
      obtain ⟨j', x'⟩ := b
      simp only [List.map_cons, List.cons.injEq] at h
      obtain ⟨rfl, ht⟩ := h
      simp only [kput]
      split
      · simp [ht]
      · split
        · simp [ht]
        · simp [ih u ht]

theorem putAll_keys (m m' : KMap Byte) (l l' : List (Nat × Byte)) (h : m.map Prod.fst = m'.map Prod.fst)
    (hl : l.map Prod.fst = l'.map Prod.fst) : (putAll m l).map Prod.fst = (putAll m' l').map Prod.fst := by
  unfold putAll
  induction l generalizing m m' l' with
  | nil =>
    cases l' with
    | nil => exact h
    | cons a t => simp at hl
  | cons a t ih =>
    cases l' with
    | nil => simp at hl
    | cons b u =>
      simp only [List.map_cons, List.cons.injEq] at hl
      simp only [List.foldl_cons]
      apply ih
      · rw [hl.1]; exact kput_keys _ _ _ _ _ h
      · exact hl.2

theorem bytesAt_keys (pa n v : Nat) : (bytesAt pa n v).map Prod.fst = (List.range n).map (pa + ·) := by
  have h : ∀ (n v k : Nat), ((leBytes n v).zipIdx k).map (fun x => pa + x.2) = (List.range' k n).map (pa + ·) := by
    intro n
    induction n with
    | zero => intro v k; rfl
    | succ n ih => intro v k; simp only [leBytes, List.zipIdx_cons, List.map_cons, ih, List.range'_succ]
  unfold bytesAt
  rw [List.map_map, List.range_eq_range']
  exact h n v 0

theorem sBytes_keys (i : Nat) (ws : List Word) :
    (sBytes (ws.zipIdx.map fun y => (4 * (i + y.2), y.1))).map Prod.fst = (List.range (4 * ws.length)).map (4 * i + ·) := by
  have h : ∀ (ws : List Word) (k : Nat), (sBytes ((ws.zipIdx k).map fun y => (4 * (i + y.2), y.1))).map Prod.fst =
      (List.range' (4 * k) (4 * ws.length)).map (4 * i + ·) := by
    intro ws
    induction ws with
    | nil => intro k; rfl
    | cons a t ih =>
      intro k
      have hc : sBytes (((a :: t).zipIdx k).map fun y => (4 * (i + y.2), y.1)) =
          bytesAt (4 * (i + k)) 4 a.toNat ++ sBytes ((t.zipIdx (k + 1)).map fun y => (4 * (i + y.2), y.1)) := rfl
      rw [hc, List.map_append, ih, bytesAt_keys]
      have hr : List.range' (4 * k) (4 * (a :: t).length) = List.range' (4 * k) 4 ++ List.range' (4 * (k + 1)) (4 * t.length) := by
        have h4 : 4 * (a :: t).length = 4 + 4 * t.length := by simp only [List.length_cons]; omega
        rw [h4, show 4 * (k + 1) = 4 * k + 1 * 4 by omega, List.range'_append]
      rw [hr, List.map_append]
      congr 1
      simp only [List.range_eq_range', List.range', List.map_cons, List.map_nil]
      simp only [List.cons.injEq, and_true]
      omega
  rw [List.range_eq_range']
  exact h ws 0

theorem fits_of_room {s : State} {w sl : Nat} {v : Wave} {x : Body} {n : Nat} (h : Room s w sl v x n) (ex : Mask) (c : Change)
    (hn : ∀ l, l ∈ lanesOf c.lanes → (c.ds l).length = n) : Fits s w sl v (storedS v x ex c) := by
  unfold Fits storedS
  split
  · rename_i i hd
    have h2 := h.2
    rw [hd] at h2
    split
    · exact .inl rfl
    · rename_i hc
      refine .inr ⟨h2.1, ?_⟩
      replace h2 := h2.2
      have hl := hn _ (lowLane_mem fun h0 => hc (.inl h0))
      have hk : ((bufPut v true (sBytes ((c.ds (lowLane c.lanes)).zipIdx.map fun y => (4 * (i.val + y.2), y.1)))).bufS).map Prod.fst =
          ((bufPut v true ((List.range (4 * n)).map fun k => (4 * i.val + k, 0))).bufS).map Prod.fst := by
        unfold bufPut
        simp only [↓reduceIte]
        apply putAll_keys _ _ _ _ rfl
        rw [sBytes_keys, hl, List.map_map]
        rfl
      unfold bufLines at h2 ⊢
      rw [hk]
      exact h2
  · exact .inl rfl

/-! ### Lane-wise words -/

theorem withFlags_none (c : Change) (m : Mask) : c.withFlags m (fun _ => 0) = c := by
  unfold Change.withFlags
  simp

theorem noFpTrap_zero (v : Wave) (m : Mask) : NoFpTrap v m fun _ => 0 := by
  intro l _ _; simp

theorem plainEff_is (x : Body) (i : Iss) (m : Mask) (f : Nat → List Word) (real : Mask) (n : Nat)
    (hn : ∀ l, l ∈ lanesOf m → (f l).length = n) (h8 : n ≤ 64) (hr : DRoom x n) (ex : Mask) :
    EffIs (effOn x i m false fun l => .plain (f l)) x i.v ex real (Change.words i.v m f) := by
  have h := effOn_is x i m false (fun l => .plain (f l)) real n (fun l hl => Nat.le_of_eq (hn l hl)) h8 hr
    (noFpTrap_zero i.v _) ex
  have hc : ({ (Change.words i.v m fun l => (LaneVal.plain (f l)).ws).withFlags (m &&& real) fun l => (LaneVal.plain (f l)).fl with
      rng := if false = true then i.v.rng + 1 else i.v.rng } : Change) = Change.words i.v m f := by
    have : (fun l => (LaneVal.plain (f l)).fl) = fun _ => 0 := rfl
    rw [this, withFlags_none]
    rfl
  rw [hc] at h
  exact h

theorem plain_does {s : State} {w sl : Nat} {v : Wave} (hI : Issues s w sl v) {ins : Instr} {o : Op} {x : Body} {n : Nat}
    (f : Iss → Nat → List Word) (hrun : Machine.exec ins s = plainOp o x s f) (hop : (opOf ins).map Prod.fst = some o)
    (hs : SourcesFull o x v sl)
    (hn : ∀ l, (f (issOf o x w sl v) l).length = n) (h8 : n ≤ 64) (hr : Room s w sl v x n) :
    Does ins x s w sl v (Change.words v (exIn v sl x) (f (issOf o x w sl v))) := by
  refine retire_does hI (o := o) (e := laneEff x (issOf o x w sl v) false fun l => .plain (f (issOf o x w sl v) l)) ?_ ?_ hop ?_
  · rw [hrun]; exact wordOp_issues hI _ hs
  · exact plainEff_is x (issOf o x w sl v) (exIn v sl x) _ (realIn v sl x) n (fun l _ => hn l) h8 hr.1 _
  · exact fits_of_room hr _ _ fun l _ => hn l

/-- A plain word has the shape of the claims. -/
theorem laneWord_plain {mk : Body → Instr} {o : Op} {n : Body → Nat} {Q : Body → Prop}
    {P : State → Wave → Body → Mask → Nat → List Word → Prop} (f : Body → State → Iss → Nat → List Word)
    (hrun : ∀ x s, Machine.exec (mk x) s = plainOp o x s (f x s)) (hop : ∀ x, (opOf (mk x)).map Prod.fst = some o)
    (h8 : ∀ x, n x ≤ 64)
    (hn : ∀ x s i l, Q x → (f x s i l).length = n x)
    (hP : ∀ x s w sl v l, Q x → l < 64 → P s v x (exIn v sl x) l (f x s (issOf o x w sl v) l)) : LaneWord mk o n Q P := by
  intro s w sl v x hI hQ hs hr
  exact ⟨_, fun l hl => hP x s w sl v l hQ hl, plain_does hI _ (hrun x s) (hop x) hs (fun l => hn x s _ l hQ) (h8 x) hr⟩

/-! ### Words that only change the wave -/

theorem dstCell_none (v : Wave) (d : Option Opd) (e l : Nat) : dstCell v d 0 (fun _ => []) e l = v.cell e l := by
  unfold dstCell dstWord
  split
  · rename_i w h
    exfalso
    split at h
    · simp at h
    · split at h
      · simp at h
      · simp at h
    · simp at h
  · rfl

theorem effNone_is (x : Body) (i : Iss) (ex real : Mask) : EffIs (Eff.none i) x i.v ex real (Change.none i.v) := by
  constructor
  · intro n l _; exact (dstCell_none i.v x.d n l).symm
  · unfold sWords
    split
    · rfl
    · rfl
  · intro l _; rfl
  · unfold fpTrapLanes
    rw [maskOf_eq_zero]
    intro l _
    have : kgetD (Eff.none i).fl l 0 = 0 := rfl
    rw [this]; simp
  · intro p l _; rfl
  · intro k; rfl
  · rfl
  · rfl
  · rfl
  · rfl

theorem fits_none (s : State) (w sl : Nat) (v : Wave) (x : Body) (ex : Mask) (c : Change) (h : c.lanes = 0) :
    Fits s w sl v (storedS v x ex c) := by
  left
  unfold storedS
  split
  · rw [if_pos (.inl h)]
  · rfl

/-- A word that only changes the wave completes with the change that its effect makes. -/
theorem wave_does {s : State} {w sl : Nat} {v : Wave} (hI : Issues s w sl v) {ins : Instr} {o : Op} {x : Body}
    (f : Iss → Wave) (hrun : Machine.exec ins s = waveOp o x s f) (hop : (opOf ins).map Prod.fst = some o)
    (hs : SourcesFull o x v sl) {c : Change}
    (he : EffIs { Eff.none (issOf o x w sl v) with v := f (issOf o x w sl v) } x v (exIn v sl x) (realIn v sl x) c)
    (hc : c.lanes = 0) : Does ins x s w sl v c := by
  refine retire_does hI (o := o) (e := { Eff.none (issOf o x w sl v) with v := f (issOf o x w sl v) }) ?_ he hop (fits_none s w sl v _ _ _ hc)
  rw [hrun]; exact wordOp_issues hI _ hs

/-- A word that writes one predicate. -/
theorem pred_does {s : State} {w sl : Nat} {v : Wave} (hI : Issues s w sl v) {ins : Instr} {o : Op} {x : Body} {f : Iss → Wave}
    (hrun : Machine.exec ins s = waveOp o x s f) (hop : (opOf ins).map Prod.fst = some o) (hs : SourcesFull o x v sl) (p : Fin 8) (m b : Mask) (g : Nat → Bool)
    (hf : f (issOf o x w sl v) = v.setPred p.val m b) (hb : ∀ l, l < 64 → m.getLsbD l = true → b.getLsbD l = g l) :
    Does ins x s w sl v ((Change.none v).withPred p m g) := by
  refine wave_does hI f hrun hop hs ?_ rfl
  rw [hf]
  exact effIs_setPred (effNone_is x (issOf o x w sl v) (exIn v sl x) (realIn v sl x)) p m g b hb

/-- A lane-wise word that writes words and one predicate. -/
theorem words_pred_does {s : State} {w sl : Nat} {v : Wave} (hI : Issues s w sl v) {ins : Instr} {o : Op} {x : Body} {k : Iss → State}
    (hrun : Machine.exec ins s = wordOp o x s k) (hop : (opOf ins).map Prod.fst = some o) (hs : SourcesFull o x v sl) (f : Nat → List Word) (n : Nat) (p : Fin 8) (b : Mask)
    (g : Nat → Bool)
    (hk : k (issOf o x w sl v) = retire x (issOf o x w sl v) s { laneEff x (issOf o x w sl v) false fun l => .plain (f l) with
      v := (laneEff x (issOf o x w sl v) false fun l => .plain (f l)).v.setPred p.val (exIn v sl x) b })
    (hn : ∀ l, (f l).length = n) (h8 : n ≤ 64) (hr : Room s w sl v x n)
    (hb : ∀ l, l < 64 → (exIn v sl x).getLsbD l = true → b.getLsbD l = g l) :
    Does ins x s w sl v ((Change.words v (exIn v sl x) f).withPred p (exIn v sl x) g) := by
  have h := effIs_setPred (plainEff_is x (issOf o x w sl v) (exIn v sl x) f (realIn v sl x) n (fun l _ => hn l) h8 hr.1 (exIn v sl x))
    p (exIn v sl x) g b hb
  exact retire_does hI (o := o) (by rw [hrun, wordOp_issues hI _ hs, hk]; rfl) h hop (fits_of_room hr _ _ fun l _ => hn l)

/-! ### Floating-point words -/

theorem fp_does {s : State} {w sl : Nat} {v : Wave} (hI : Issues s w sl v) {ins : Instr} {o : Op} {x : Body} {rs : Bool} {n : Nat}
    (f : Iss → Nat → LaneVal) (hrun : Machine.exec ins s = fpWord o x s rs f) (hop : (opOf ins).map Prod.fst = some o)
    (hs : SourcesFull o x v sl)
    (hn : ∀ l, (f (issOf o x w sl v) l).ws.length = n) (h8 : n ≤ 64) (hr : Room s w sl v x n)
    (ht : NoFpTrap v (realIn v sl x) fun l => (f (issOf o x w sl v) l).fl) :
    Does ins x s w sl v { (Change.words v (exIn v sl x) fun l => (f (issOf o x w sl v) l).ws).withFlags (realIn v sl x)
      fun l => (f (issOf o x w sl v) l).fl with rng := if rs then v.rng + 1 else v.rng } := by
  have hm : exIn v sl x &&& realIn v sl x = realIn v sl x := by
    unfold realIn
    apply BitVec.eq_of_getLsbD_eq
    intro i _
    simp
  have h := effOn_is x (issOf o x w sl v) (exIn v sl x) rs (f (issOf o x w sl v)) (realIn v sl x) n
    (fun l _ => Nat.le_of_eq (hn l)) h8 hr.1 (by rw [hm]; exact ht) (exIn v sl x)
  rw [hm] at h
  refine retire_does hI (o := o) (e := laneEff x (issOf o x w sl v) rs (f (issOf o x w sl v))) ?_ h hop ?_
  · rw [hrun]; exact wordOp_issues hI _ hs
  · exact fits_of_room hr _ _ fun l _ => hn l

/-- A floating-point word has the shape of the claims. -/
theorem fpWord_shape {mk : Body → Instr} {o : Op} {n : Body → Nat} {draws : Body → Bool}
    {val : State → Iss → Body → Nat → List Word × BitVec 6} (h8 : ∀ x, n x ≤ 64)
    (hop : ∀ x, (opOf (mk x)).map Prod.fst = some o)
    (hrun : ∀ x s, ∃ (rs : Bool) (f : Iss → Nat → LaneVal), Machine.exec (mk x) s = fpWord o x s rs f ∧ rs = draws x ∧
      (∀ i l, (f i l).ws = (val s i x l).1) ∧ ∀ i l, (f i l).fl = (val s i x l).2) :
    FpWord mk o n draws val := by
  intro s w sl v x hI hs hr i hn ht
  obtain ⟨rs, f, hf, rfl, hw, hfl⟩ := hrun x s
  have h := fp_does hI f hf (hop x) hs (fun l => by rw [hw]; exact hn l) (h8 x) hr (by
    intro l hl hm
    simp only [hfl]
    exact ht l hl hm)
  simp only [hw, hfl] at h
  exact h

end Sys2Proof.Laws
end

