-- ==== Sys2Proof/Laws/Control.lean ====
section
/-! SUPPORT. How control words end: traces that are off, words that move the PC, and the entry into a trap handler. -/

namespace Sys2Proof.Laws

open Sys2Proof.Machine Sys2Proof.Safety

theorem trace_off {s : State} {c kind : Nat} (h : Untraced s c kind) (aux : Nat) (place iss pc : Word) (data : Nat) :
    trace s c kind aux place iss pc data = s := by
  unfold trace
  cases hc : s.ctx? c with
  | none => rfl
  | some x => simp [h x hc]

theorem traceWave_off {s : State} {w kind : Nat} {v : Wave} (hw : s.wave? w = some v) (h : Untraced s v.ctx kind) (aux lane : Nat)
    (pc : Word) (data : Nat) : traceWave s w kind aux lane pc data = s := by
  unfold traceWave; rw [hw]; exact trace_off h _ _ _ _ _

theorem untraced_congr {s t : State} {c k : Nat} (h : Untraced s c k) (e : t.ctxs = s.ctxs) : Untraced t c k := by
  unfold Untraced State.ctx? at *; rw [e]; exact h

theorem onlyWave_ctxs {s t : State} {w : Nat} {u : Wave} (h : OnlyWave s t w u) : t.ctxs = s.ctxs :=
  (congrArg State.ctxs h.1 : _)

/-- A word that changes its wave alone and then ends. -/
theorem becomes_of {s t : State} {w sl : Nat} {v u : Wave} (hI : Issues s w sl v) {i : Instr} {j : Iss} {k : Seen}
    (hj : j.w = w) (he : Machine.exec i s = .next (countGangHalt (watchWord j t k) j)) (ht : OnlyWave s t w u)
    (hp : u.place = v.place) (hc : u.ctx = v.ctx) (hg : u.gangHalt = v.gangHalt) : WaveBecomes i s w u := by
  refine ⟨t, ?_, ht⟩
  rw [he, ends_silent hI hj ht.2.1 (onlyWave_watch ht) hp hc hg]

theorem setSlot_lastSlot (v : Wave) (sl n : Nat) (x : Slot) :
    { v with lastSlot := n }.setSlot sl x = { v.setSlot sl x with lastSlot := n } := by
  unfold Wave.setSlot; split <;> rfl

theorem slot_lastSlot (v : Wave) (sl n : Nat) : ({ v with lastSlot := n } : Wave).slot sl = v.slot sl := by
  unfold Wave.slot; split <;> rfl

theorem jump_onlyWave {s : State} {w : Nat} {u : Wave} (hu : s.wave? w = some u) (i : Iss) (hi : i.w = w) (pc : Word) :
    OnlyWave s (jump i s pc) w (jumped u i.sl pc) := by
  have h := onlyWave_modWave hu fun v => { v with lastSlot := i.sl }.modSlot i.sl (·.goTo pc)
  unfold jump
  rw [hi]
  refine (congrArg (OnlyWave s _ w) ?_).mpr h
  by_cases h0 : i.sl = 0 <;> simp only [jumped, Wave.modSlot, Wave.setSlot, Wave.slot, slotAfter, h0, ↓reduceIte] <;> rfl

theorem advance_is {s : State} {w : Nat} {u : Wave} (hu : s.wave? w = some u) (i : Iss) (hi : i.w = w)
    (hl : i.lanes = (u.slot i.sl).mask &&& ~~~(u.slot i.sl).stepped) : OnlyWave s (advance i s) w (moved u i.sl) := by
  have h := onlyWave_modWave hu fun v => { v with lastSlot := i.sl }.modSlot i.sl (·.advance i.lanes)
  unfold advance
  rw [hi]
  refine (congrArg (OnlyWave s _ w) ?_).mpr h
  rw [hl]
  by_cases h0 : i.sl = 0 <;>
    simp only [moved, jumped, Wave.modSlot, Wave.setSlot, Wave.slot, h0, ↓reduceIte, advance_lanes] <;> rfl

@[simp] theorem setSlot_place (v : Wave) (sl : Nat) (x : Slot) : (v.setSlot sl x).place = v.place := by unfold Wave.setSlot; split <;> rfl
@[simp] theorem setSlot_ctx' (v : Wave) (sl : Nat) (x : Slot) : (v.setSlot sl x).ctx = v.ctx := by unfold Wave.setSlot; split <;> rfl
@[simp] theorem setSlot_gangHalt' (v : Wave) (sl : Nat) (x : Slot) : (v.setSlot sl x).gangHalt = v.gangHalt := by unfold Wave.setSlot; split <;> rfl
@[simp] theorem jumped_place (v : Wave) (sl : Nat) (pc : Word) : (jumped v sl pc).place = v.place := by simp [jumped]
@[simp] theorem jumped_ctx (v : Wave) (sl : Nat) (pc : Word) : (jumped v sl pc).ctx = v.ctx := by simp [jumped]
@[simp] theorem jumped_gangHalt (v : Wave) (sl : Nat) (pc : Word) : (jumped v sl pc).gangHalt = v.gangHalt := by simp [jumped]

/-- A word that only moves on. -/
theorem moves_on {s : State} {w sl : Nat} {v : Wave} (hI : Issues s w sl v) {i : Instr} {o : Op} {x : Body} {k : Seen}
    (he : Machine.exec i s = .next (countGangHalt (watchWord (issOf o x w sl v) (advance (issOf o x w sl v) s) k) (issOf o x w sl v))) :
    WaveBecomes i s w (moved v sl) :=
  becomes_of hI rfl he (advance_is hI.wave (issOf o x w sl v) rfl rfl) (by simp [moved]) (by simp [moved]) (by simp [moved])

/-- A branch whose trace is off. -/
theorem branches {s : State} {w sl : Nat} {v : Wave} (hI : Issues s w sl v) {i : Instr} {o : Op} {x : Body} {k : Seen}
    {aux data : Nat} {pc : Word} (ht : Untraced s v.ctx 3)
    (he : Machine.exec i s = .next (countGangHalt (watchWord (issOf o x w sl v)
      (traceBranch (issOf o x w sl v) (jump (issOf o x w sl v) s pc) aux data) k) (issOf o x w sl v))) :
    WaveBecomes i s w (jumped v sl pc) := by
  have hj := jump_onlyWave hI.wave (issOf o x w sl v) rfl pc
  have htr : traceBranch (issOf o x w sl v) (jump (issOf o x w sl v) s pc) aux data = jump (issOf o x w sl v) s pc := by
    unfold traceBranch
    exact traceWave_off hj.2.1 (by simpa [issOf] using untraced_congr ht (onlyWave_ctxs hj)) _ _ _ _
  rw [htr] at he
  exact becomes_of hI rfl he hj (by simp [issOf]) (by simp [issOf]) (by simp [issOf])

theorem guardOver_all {o : Op} {x : Body} {w sl : Nat} {v : Wave} (h : exIn v sl x = lanesIn v sl) :
    guardOver (issOf o x w sl v) = some true := by unfold guardOver issOf; simp [h]
theorem guardOver_none {o : Op} {x : Body} {w sl : Nat} {v : Wave} (h : exIn v sl x ≠ lanesIn v sl) (h0 : exIn v sl x = 0) :
    guardOver (issOf o x w sl v) = some false := by unfold guardOver issOf; simp only; rw [if_neg h, if_pos h0]
theorem guardOver_differs {o : Op} {x : Body} {w sl : Nat} {v : Wave} (h : exIn v sl x ≠ lanesIn v sl) (h0 : exIn v sl x ≠ 0) :
    guardOver (issOf o x w sl v) = none := by unfold guardOver issOf; simp only; rw [if_neg h, if_neg h0]

end Sys2Proof.Laws
end

