-- ==== Sys2Proof/Laws/Memory.lean ====
section
/-! SUPPORT. What the operations over device memory do: each keeps memory's canonical form and changes only what its lemma
names. -/

namespace Sys2Proof.Machine

/-- Memory lists nothing at reset, which is in canonical form. -/
theorem reset_mem_wf : Memory.wf State.reset.mem = true := rfl

/-! ### One byte -/

theorem rawWrite_wf (key : Nat) {s : State} (pa : Nat) (b : Byte) (h : Memory.wf s.mem = true) :
    Memory.wf (rawWrite key s pa b).mem = true := memPut_wf pa b h

theorem rawWrite_memGet (key : Nat) (s : State) (pa : Nat) (b : Byte) (a : Nat) :
    memGet (rawWrite key s pa b).mem a = if a = pa then b else memGet s.mem a := memGet_memPut s.mem pa a b

/-- A byte written under a key is a byte of that key. -/
theorem rawWrite_memKey (key : Nat) (s : State) (pa : Nat) (b : Byte) (a : Nat) :
    kget (rawWrite key s pa b).memKey a = if a = pa then (if key = 0 then none else some key) else kget s.memKey a := by
  unfold rawWrite
  simp only []
  split <;> simp [kget_kdel, kget_kput]

/-- Nothing but memory and its keys changes. -/
theorem rawWrite_frame (key : Nat) (s : State) (pa : Nat) (b : Byte) :
    { rawWrite key s pa b with
      mem := s.mem, memKey := s.memKey } = s := rfl

/-! ### An entry -/

@[simp] theorem healEcc_mem (s : State) (pas : List Nat) : (healEcc s pas).mem = s.mem := by
  unfold healEcc; split <;> rfl

/-- Only the list of words that read with an error changes. -/
theorem healEcc_frame (s : State) (pas : List Nat) :
    { healEcc s pas with
      mods := s.mods } = s := by
  unfold healEcc; split <;> rfl

@[simp] theorem devConflicts_mem (s : State) (own : Option Nat) (pas : List Nat) : (devConflicts s own pas).mem = s.mem := by
  unfold devConflicts; split <;> simp

/-- Only the tracked sets of waves change, and the list of words that read with an error. -/
theorem devConflicts_frame (s : State) (own : Option Nat) (pas : List Nat) :
    { devConflicts s own pas with
      waves := s.waves
      mods := s.mods } = s := by
  unfold devConflicts healEcc
  split
  · rfl
  · split <;> rfl

@[simp] theorem setQueue_mem (s : State) (q : Nat) (f : Queue → Queue) : (setQueue s q f).mem = s.mem := by
  unfold setQueue; rfl

@[simp] theorem queueError_mem (s : State) (q code : Nat) : (queueError s q code).mem = s.mem := by
  unfold queueError
  split
  · rfl
  · split
    · rfl
    · simp only []; split <;> rfl

@[simp] theorem overrunCheck_mem (s : State) (q : Nat) : (overrunCheck s q).mem = s.mem := by
  unfold overrunCheck
  split
  · rfl
  · split
    · exact queueError_mem s q 2
    · rfl

@[simp] theorem wake_mem (s : State) (q c : Nat) (v : Word) : (wake s q c v).mem = s.mem := by
  unfold wake
  split
  · rfl
  · split
    · rfl
    · simp only []
      split <;> simp <;> split <;> rfl

theorem foldl_keeps {α β γ : Type} (p : β → γ) (f : β → α → β) (h : ∀ s x, p (f s x) = p s) (l : List α) (s : β) :
    p (l.foldl f s) = p s := by
  induction l generalizing s with
  | nil => rfl
  | cons a t ih => rw [List.foldl_cons, ih, h]

theorem foldl_inv {α β : Type} (P : β → Prop) (f : β → α → β) (h : ∀ s x, P s → P (f s x)) (l : List α) (s : β) (hs : P s) :
    P (l.foldl f s) := by
  induction l generalizing s with
  | nil => exact hs
  | cons a t ih => exact ih _ (h s a hs)

/-- An entry into the device level keeps the canonical form. -/
theorem devEntry_wf {s : State} (c : Nat) (own : Option Nat) (bytes : List (Nat × Byte)) (h : Memory.wf s.mem = true) :
    Memory.wf (devEntry s c own bytes).mem = true := by
  unfold devEntry
  have hw := foldl_keeps State.mem (fun (s : State) (x : Nat × Word) => wake s x.1 c x.2) (fun s x => wake_mem s x.1 c x.2)
  rw [devConflicts_mem, hw]
  refine foldl_inv (fun s => Memory.wf s.mem = true) _ ?_ bytes s h
  intro s x hs
  split
  · exact rawWrite_wf _ _ _ hs
  · exact rawWrite_wf _ _ _ hs
  · exact hs

theorem rawWrites_wf {s : State} (key : Nat) (bytes : List (Nat × Byte)) (h : Memory.wf s.mem = true) :
    Memory.wf (bytes.foldl (fun s x => rawWrite key s x.1 x.2) s).mem = true :=
  foldl_inv (fun s => Memory.wf s.mem = true) _ (fun _ _ hs => rawWrite_wf _ _ _ hs) bytes s h

theorem foreignEntry_wf {s : State} (bytes : List (Nat × Byte)) (h : Memory.wf s.mem = true) :
    Memory.wf (foreignEntry s bytes).mem = true := by
  unfold foreignEntry
  rw [devConflicts_mem]
  exact rawWrites_wf 0 _ h

theorem plainEntry_wf {s : State} (bytes : List (Nat × Byte)) (h : Memory.wf s.mem = true) :
    Memory.wf (plainEntry s bytes).mem = true := by
  unfold plainEntry
  rw [devConflicts_mem]
  exact rawWrites_wf 0 _ h

/-- Losing the vaults changes no listed byte. -/
@[simp] theorem loseVault_mem (s : State) : (loseVault s).mem = s.mem := rfl

/-- Placing a word keeps the canonical form. -/
theorem withFetchWord_wf {s : State} (nbits w : Nat) (h : Memory.wf s.mem = true) :
    Memory.wf (s.withFetchWord nbits w).mem = true :=
  foldl_inv (fun s => Memory.wf s.mem = true) _ (fun _ _ hs => rawWrite_wf _ _ _ hs) _ s h

end Sys2Proof.Machine
end

