-- ==== Sys2Proof/Laws/PerInstr.lean ====
section
/-! SUPPORT. What holds of every instruction as syntax: a word stands in the opcode map under its own OP and FN, and is the
instruction that its name and fields make. -/

namespace Sys2Proof.Laws.Named

open Sys2Proof.Machine

/-- A named word stands among the words of its OP and FN, and its name and fields make the instruction. -/
def Statement (i : Instr) : Prop :=
  ∀ o x, opOf i = some (o, x) → mkInstr o x = i ∧ (opsAt (64 * (opFn o).1.toNat + (opFn o).2.toNat)).contains o = true

theorem of_word {i : Instr} {o : Op} {x : Body} (h : opOf i = some (o, x)) (hm : mkInstr o x = i)
    (ho : (opsAt (64 * (opFn o).1.toNat + (opFn o).2.toNat)).contains o = true) : Statement i := by
  intro o' x' h'
  rw [h] at h'
  cases h'
  exact ⟨hm, ho⟩

theorem of_event {i : Instr} (h : opOf i = none) : Statement i := by
  intro o x h'
  rw [h] at h'
  cases h'

theorem nop (x : Body) : Statement (.nop x) := of_word rfl rfl (by decide)
theorem bra (x : Body) : Statement (.bra x) := of_word rfl rfl (by decide)
theorem brd (x : Body) : Statement (.brd x) := of_word rfl rfl (by decide)
theorem join (x : Body) : Statement (.join x) := of_word rfl rfl (by decide)
theorem call (x : Body) : Statement (.call x) := of_word rfl rfl (by decide)
theorem ret (x : Body) : Statement (.ret x) := of_word rfl rfl (by decide)
theorem jmpx (x : Body) : Statement (.jmpx x) := of_word rfl rfl (by decide)
theorem exit (x : Body) : Statement (.exit x) := of_word rfl rfl (by decide)
theorem seam (x : Body) : Statement (.seam x) := of_word rfl rfl (by decide)
theorem yield (x : Body) : Statement (.yield x) := of_word rfl rfl (by decide)
theorem voteAny (x : Body) : Statement (.voteAny x) := of_word rfl rfl (by decide)
theorem voteAll (x : Body) : Statement (.voteAll x) := of_word rfl rfl (by decide)
theorem voteBal (x : Body) : Statement (.voteBal x) := of_word rfl rfl (by decide)
theorem voteEq (x : Body) : Statement (.voteEq x) := of_word rfl rfl (by decide)
theorem iadd (x : Body) : Statement (.iadd x) := of_word rfl rfl (by decide)
theorem isub (x : Body) : Statement (.isub x) := of_word rfl rfl (by decide)
theorem iaddc (x : Body) : Statement (.iaddc x) := of_word rfl rfl (by decide)
theorem imul (x : Body) : Statement (.imul x) := of_word rfl rfl (by decide)
theorem imulh (x : Body) : Statement (.imulh x) := of_word rfl rfl (by decide)
theorem imad (x : Body) : Statement (.imad x) := of_word rfl rfl (by decide)
theorem imin (x : Body) : Statement (.imin x) := of_word rfl rfl (by decide)
theorem imax (x : Body) : Statement (.imax x) := of_word rfl rfl (by decide)
theorem iabs (x : Body) : Statement (.iabs x) := of_word rfl rfl (by decide)
theorem iclamp (x : Body) : Statement (.iclamp x) := of_word rfl rfl (by decide)
theorem and (x : Body) : Statement (.and x) := of_word rfl rfl (by decide)
theorem or (x : Body) : Statement (.or x) := of_word rfl rfl (by decide)
theorem xor (x : Body) : Statement (.xor x) := of_word rfl rfl (by decide)
theorem andn (x : Body) : Statement (.andn x) := of_word rfl rfl (by decide)
theorem shl (x : Body) : Statement (.shl x) := of_word rfl rfl (by decide)
theorem shr (x : Body) : Statement (.shr x) := of_word rfl rfl (by decide)
theorem sar (x : Body) : Statement (.sar x) := of_word rfl rfl (by decide)
theorem rot (x : Body) : Statement (.rot x) := of_word rfl rfl (by decide)
theorem bfx (x : Body) : Statement (.bfx x) := of_word rfl rfl (by decide)
theorem bfi (x : Body) : Statement (.bfi x) := of_word rfl rfl (by decide)
theorem popc (x : Body) : Statement (.popc x) := of_word rfl rfl (by decide)
theorem clz (x : Body) : Statement (.clz x) := of_word rfl rfl (by decide)
theorem brev (x : Body) : Statement (.brev x) := of_word rfl rfl (by decide)
theorem mov (x : Body) : Statement (.mov x) := of_word rfl rfl (by decide)
theorem movw (x : Body) : Statement (.movw x) := of_word rfl rfl (by decide)
theorem movq (x : Body) : Statement (.movq x) := of_word rfl rfl (by decide)
theorem ldi (x : Body) : Statement (.ldi x) := of_word rfl rfl (by decide)
theorem lda (x : Body) : Statement (.lda x) := of_word rfl rfl (by decide)
theorem aadd (x : Body) : Statement (.aadd x) := of_word rfl rfl (by decide)
theorem amov (x : Body) : Statement (.amov x) := of_word rfl rfl (by decide)
theorem pset (x : Body) : Statement (.pset x) := of_word rfl rfl (by decide)
theorem plog (x : Body) : Statement (.plog x) := of_word rfl rfl (by decide)
theorem pmovPv (x : Body) : Statement (.pmovPv x) := of_word rfl rfl (by decide)
theorem pmovVp (x : Body) : Statement (.pmovVp x) := of_word rfl rfl (by decide)
theorem pmovSave (x : Body) : Statement (.pmovSave x) := of_word rfl rfl (by decide)
theorem pmovLoad (x : Body) : Statement (.pmovLoad x) := of_word rfl rfl (by decide)
theorem sel (x : Body) : Statement (.sel x) := of_word rfl rfl (by decide)
theorem prisel (x : Body) : Statement (.prisel x) := of_word rfl rfl (by decide)
theorem xlXor (x : Body) : Statement (.xlXor x) := of_word rfl rfl (by decide)
theorem xlUp (x : Body) : Statement (.xlUp x) := of_word rfl rfl (by decide)
theorem xlDown (x : Body) : Statement (.xlDown x) := of_word rfl rfl (by decide)
theorem xlIdx (x : Body) : Statement (.xlIdx x) := of_word rfl rfl (by decide)
theorem qxH (x : Body) : Statement (.qxH x) := of_word rfl rfl (by decide)
theorem qxV (x : Body) : Statement (.qxV x) := of_word rfl rfl (by decide)
theorem qxD (x : Body) : Statement (.qxD x) := of_word rfl rfl (by decide)
theorem rstep (x : Body) : Statement (.rstep x) := of_word rfl rfl (by decide)
theorem red (x : Body) : Statement (.red x) := of_word rfl rfl (by decide)
theorem scan (x : Body) : Statement (.scan x) := of_word rfl rfl (by decide)
theorem srd (x : Body) : Statement (.srd x) := of_word rfl rfl (by decide)
theorem swr (x : Body) : Statement (.swr x) := of_word rfl rfl (by decide)
theorem fadd (x : Body) : Statement (.fadd x) := of_word rfl rfl (by decide)
theorem fsub (x : Body) : Statement (.fsub x) := of_word rfl rfl (by decide)
theorem fmul (x : Body) : Statement (.fmul x) := of_word rfl rfl (by decide)
theorem ffma (x : Body) : Statement (.ffma x) := of_word rfl rfl (by decide)
theorem fmin (x : Body) : Statement (.fmin x) := of_word rfl rfl (by decide)
theorem fmax (x : Body) : Statement (.fmax x) := of_word rfl rfl (by decide)
theorem fminProp (x : Body) : Statement (.fminProp x) := of_word rfl rfl (by decide)
theorem fmaxProp (x : Body) : Statement (.fmaxProp x) := of_word rfl rfl (by decide)
theorem fcmp (x : Body) : Statement (.fcmp x) := of_word rfl rfl (by decide)
theorem fclass (x : Body) : Statement (.fclass x) := of_word rfl rfl (by decide)
theorem frnd (x : Body) : Statement (.frnd x) := of_word rfl rfl (by decide)
theorem fscale (x : Body) : Statement (.fscale x) := of_word rfl rfl (by decide)
theorem hadd2 (x : Body) : Statement (.hadd2 x) := of_word rfl rfl (by decide)
theorem hmul2 (x : Body) : Statement (.hmul2 x) := of_word rfl rfl (by decide)
theorem hfma2 (x : Body) : Statement (.hfma2 x) := of_word rfl rfl (by decide)
theorem dot4 (x : Body) : Statement (.dot4 x) := of_word rfl rfl (by decide)
theorem idot4 (x : Body) : Statement (.idot4 x) := of_word rfl rfl (by decide)
theorem cvt (x : Body) : Statement (.cvt x) := of_word rfl rfl (by decide)
theorem cvts (x : Body) : Statement (.cvts x) := of_word rfl rfl (by decide)
theorem pack (x : Body) : Statement (.pack x) := of_word rfl rfl (by decide)
theorem unpk (x : Body) : Statement (.unpk x) := of_word rfl rfl (by decide)
theorem bscale (x : Body) : Statement (.bscale x) := of_word rfl rfl (by decide)
theorem qnt (x : Body) : Statement (.qnt x) := of_word rfl rfl (by decide)
theorem dqnt (x : Body) : Statement (.dqnt x) := of_word rfl rfl (by decide)
theorem rcp (x : Body) : Statement (.rcp x) := of_word rfl rfl (by decide)
theorem rsq (x : Body) : Statement (.rsq x) := of_word rfl rfl (by decide)
theorem sqrt (x : Body) : Statement (.sqrt x) := of_word rfl rfl (by decide)
theorem exp2 (x : Body) : Statement (.exp2 x) := of_word rfl rfl (by decide)
theorem log2 (x : Body) : Statement (.log2 x) := of_word rfl rfl (by decide)
theorem sin (x : Body) : Statement (.sin x) := of_word rfl rfl (by decide)
theorem cos (x : Body) : Statement (.cos x) := of_word rfl rfl (by decide)
theorem tanh (x : Body) : Statement (.tanh x) := of_word rfl rfl (by decide)
theorem wupd (x : Body) : Statement (.wupd x) := of_word rfl rfl (by decide)
theorem wmrg (x : Body) : Statement (.wmrg x) := of_word rfl rfl (by decide)
theorem wfin (x : Body) : Statement (.wfin x) := of_word rfl rfl (by decide)
theorem rng (x : Body) : Statement (.rng x) := of_word rfl rfl (by decide)
theorem ld (x : Body) : Statement (.ld x) := of_word rfl rfl (by decide)
theorem ldTrk (x : Body) : Statement (.ldTrk x) := of_word rfl rfl (by decide)
theorem lds (x : Body) : Statement (.lds x) := of_word rfl rfl (by decide)
theorem ldt (x : Body) : Statement (.ldt x) := of_word rfl rfl (by decide)
theorem pref (x : Body) : Statement (.pref x) := of_word rfl rfl (by decide)
theorem st (x : Body) : Statement (.st x) := of_word rfl rfl (by decide)
theorem sts (x : Body) : Statement (.sts x) := of_word rfl rfl (by decide)
theorem commitBlk (x : Body) : Statement (.commitBlk x) := of_word rfl rfl (by decide)
theorem commitGang (x : Body) : Statement (.commitGang x) := of_word rfl rfl (by decide)
theorem commitDev (x : Body) : Statement (.commitDev x) := of_word rfl rfl (by decide)
theorem commitSys (x : Body) : Statement (.commitSys x) := of_word rfl rfl (by decide)
theorem commitChkBlk (x : Body) : Statement (.commitChkBlk x) := of_word rfl rfl (by decide)
theorem commitChkGangDev (x : Body) : Statement (.commitChkGangDev x) := of_word rfl rfl (by decide)
theorem commitChkSys (x : Body) : Statement (.commitChkSys x) := of_word rfl rfl (by decide)
theorem abortWave (x : Body) : Statement (.abortWave x) := of_word rfl rfl (by decide)
theorem abortBlk (x : Body) : Statement (.abortBlk x) := of_word rfl rfl (by decide)
theorem abortGang (x : Body) : Statement (.abortGang x) := of_word rfl rfl (by decide)
theorem fence (x : Body) : Statement (.fence x) := of_word rfl rfl (by decide)
theorem atomAdd (x : Body) : Statement (.atomAdd x) := of_word rfl rfl (by decide)
theorem atomFadd (x : Body) : Statement (.atomFadd x) := of_word rfl rfl (by decide)
theorem atomMin (x : Body) : Statement (.atomMin x) := of_word rfl rfl (by decide)
theorem atomMax (x : Body) : Statement (.atomMax x) := of_word rfl rfl (by decide)
theorem atomAnd (x : Body) : Statement (.atomAnd x) := of_word rfl rfl (by decide)
theorem atomOr (x : Body) : Statement (.atomOr x) := of_word rfl rfl (by decide)
theorem atomXor (x : Body) : Statement (.atomXor x) := of_word rfl rfl (by decide)
theorem atomXchg (x : Body) : Statement (.atomXchg x) := of_word rfl rfl (by decide)
theorem atomCas (x : Body) : Statement (.atomCas x) := of_word rfl rfl (by decide)
theorem atomIncw (x : Body) : Statement (.atomIncw x) := of_word rfl rfl (by decide)
theorem atomdAdd (x : Body) : Statement (.atomdAdd x) := of_word rfl rfl (by decide)
theorem atomdFadd (x : Body) : Statement (.atomdFadd x) := of_word rfl rfl (by decide)
theorem atomdMin (x : Body) : Statement (.atomdMin x) := of_word rfl rfl (by decide)
theorem atomdMax (x : Body) : Statement (.atomdMax x) := of_word rfl rfl (by decide)
theorem atomdAnd (x : Body) : Statement (.atomdAnd x) := of_word rfl rfl (by decide)
theorem atomdOr (x : Body) : Statement (.atomdOr x) := of_word rfl rfl (by decide)
theorem atomdXor (x : Body) : Statement (.atomdXor x) := of_word rfl rfl (by decide)
theorem atomdXchg (x : Body) : Statement (.atomdXchg x) := of_word rfl rfl (by decide)
theorem atomdCas (x : Body) : Statement (.atomdCas x) := of_word rfl rfl (by decide)
theorem atomdIncw (x : Body) : Statement (.atomdIncw x) := of_word rfl rfl (by decide)
theorem redsAdd (x : Body) : Statement (.redsAdd x) := of_word rfl rfl (by decide)
theorem redsFadd (x : Body) : Statement (.redsFadd x) := of_word rfl rfl (by decide)
theorem redsMin (x : Body) : Statement (.redsMin x) := of_word rfl rfl (by decide)
theorem redsMax (x : Body) : Statement (.redsMax x) := of_word rfl rfl (by decide)
theorem redsAnd (x : Body) : Statement (.redsAnd x) := of_word rfl rfl (by decide)
theorem redsOr (x : Body) : Statement (.redsOr x) := of_word rfl rfl (by decide)
theorem redsXor (x : Body) : Statement (.redsXor x) := of_word rfl rfl (by decide)
theorem dphaseOpen (x : Body) : Statement (.dphaseOpen x) := of_word rfl rfl (by decide)
theorem dphaseClose (x : Body) : Statement (.dphaseClose x) := of_word rfl rfl (by decide)
theorem wcnt (x : Body) : Statement (.wcnt x) := of_word rfl rfl (by decide)
theorem cpyw (x : Body) : Statement (.cpyw x) := of_word rfl rfl (by decide)
theorem bara (x : Body) : Statement (.bara x) := of_word rfl rfl (by decide)
theorem barw (x : Body) : Statement (.barw x) := of_word rfl rfl (by decide)
theorem bars (x : Body) : Statement (.bars x) := of_word rfl rfl (by decide)
theorem gbar (x : Body) : Statement (.gbar x) := of_word rfl rfl (by decide)
theorem xbar (x : Body) : Statement (.xbar x) := of_word rfl rfl (by decide)
theorem cpy (x : Body) : Statement (.cpy x) := of_word rfl rfl (by decide)
theorem cpyq (x : Body) : Statement (.cpyq x) := of_word rfl rfl (by decide)
theorem vsred (x : Body) : Statement (.vsred x) := of_word rfl rfl (by decide)
theorem vsrd (x : Body) : Statement (.vsrd x) := of_word rfl rfl (by decide)
theorem vscl (x : Body) : Statement (.vscl x) := of_word rfl rfl (by decide)
theorem mres (x : Body) : Statement (.mres x) := of_word rfl rfl (by decide)
theorem mrel (x : Body) : Statement (.mrel x) := of_word rfl rfl (by decide)
theorem mld (x : Body) : Statement (.mld x) := of_word rfl rfl (by decide)
theorem mma (x : Body) : Statement (.mma x) := of_word rfl rfl (by decide)
theorem mza (x : Body) : Statement (.mza x) := of_word rfl rfl (by decide)
theorem mpred (x : Body) : Statement (.mpred x) := of_word rfl rfl (by decide)
theorem msig (x : Body) : Statement (.msig x) := of_word rfl rfl (by decide)
theorem mwait (x : Body) : Statement (.mwait x) := of_word rfl rfl (by decide)
theorem mloopDec (x : Body) : Statement (.mloopDec x) := of_word rfl rfl (by decide)
theorem mloopJmp (x : Body) : Statement (.mloopJmp x) := of_word rfl rfl (by decide)
theorem mloopSet (x : Body) : Statement (.mloopSet x) := of_word rfl rfl (by decide)
theorem mloopAdd (x : Body) : Statement (.mloopAdd x) := of_word rfl rfl (by decide)
theorem mst (x : Body) : Statement (.mst x) := of_word rfl rfl (by decide)
theorem mend (x : Body) : Statement (.mend x) := of_word rfl rfl (by decide)
theorem obst (x : Body) : Statement (.obst x) := of_word rfl rfl (by decide)
theorem acrd (x : Body) : Statement (.acrd x) := of_word rfl rfl (by decide)
theorem trap (x : Body) : Statement (.trap x) := of_word rfl rfl (by decide)
theorem rtt (x : Body) : Statement (.rtt x) := of_word rfl rfl (by decide)
theorem halt (x : Body) : Statement (.halt x) := of_word rfl rfl (by decide)
theorem icinv (x : Body) : Statement (.icinv x) := of_word rfl rfl (by decide)
theorem sleept (x : Body) : Statement (.sleept x) := of_word rfl rfl (by decide)
theorem wpset (x : Body) : Statement (.wpset x) := of_word rfl rfl (by decide)
theorem wpclr (x : Body) : Statement (.wpclr x) := of_word rfl rfl (by decide)
theorem wprd (x : Body) : Statement (.wprd x) := of_word rfl rfl (by decide)
theorem hrd (x : Body) : Statement (.hrd x) := of_word rfl rfl (by decide)
theorem hwr (x : Body) : Statement (.hwr x) := of_word rfl rfl (by decide)
theorem hstep (x : Body) : Statement (.hstep x) := of_word rfl rfl (by decide)
theorem hrun (x : Body) : Statement (.hrun x) := of_word rfl rfl (by decide)
theorem hstat (x : Body) : Statement (.hstat x) := of_word rfl rfl (by decide)
theorem dbmw (x : Body) : Statement (.dbmw x) := of_word rfl rfl (by decide)
theorem dbmr (x : Body) : Statement (.dbmr x) := of_word rfl rfl (by decide)
theorem rmark (x : Body) : Statement (.rmark x) := of_word rfl rfl (by decide)
theorem seamWaitEnd a b : Statement (.seamWaitEnd a b) := of_event rfl
theorem seatGrant a b : Statement (.seatGrant a b) := of_event rfl
theorem sleeptExpiry a b : Statement (.sleeptExpiry a b) := of_event rfl
theorem hstepWaitTimeout a b : Statement (.hstepWaitTimeout a b) := of_event rfl
theorem drowsyBankWake a b : Statement (.drowsyBankWake a b) := of_event rfl
theorem sysStageReceive a b c : Statement (.sysStageReceive a b c) := of_event rfl
theorem sysApplyReceive a b : Statement (.sysApplyReceive a b) := of_event rfl
theorem remoteCarryShare a b : Statement (.remoteCarryShare a b) := of_event rfl
theorem stewardAccess a b c : Statement (.stewardAccess a b c) := of_event rfl
theorem hostPostedWrite a b c : Statement (.hostPostedWrite a b c) := of_event rfl
theorem hostRead a b c : Statement (.hostRead a b c) := of_event rfl
theorem wakeStore a b c : Statement (.wakeStore a b c) := of_event rfl
theorem gangPlace a b : Statement (.gangPlace a b) := of_event rfl
theorem gangRestore a b : Statement (.gangRestore a b) := of_event rfl
theorem castling a b : Statement (.castling a b) := of_event rfl
theorem pageoutComplete a b : Statement (.pageoutComplete a b) := of_event rfl
theorem pageinComplete a b : Statement (.pageinComplete a b) := of_event rfl
theorem engineStop a b : Statement (.engineStop a b) := of_event rfl
theorem eccUncorrectable a b : Statement (.eccUncorrectable a b) := of_event rfl
theorem sensorSample a b c : Statement (.sensorSample a b c) := of_event rfl
theorem hardTrip a b : Statement (.hardTrip a b) := of_event rfl
theorem lrailOff a b : Statement (.lrailOff a b) := of_event rfl
theorem lrailMv a b : Statement (.lrailMv a b) := of_event rfl
theorem portTrainingDone a b c : Statement (.portTrainingDone a b c) := of_event rfl
theorem tickSync a : Statement (.tickSync a) := of_event rfl
theorem stopctlArm a : Statement (.stopctlArm a) := of_event rfl
theorem gateAdmit a b : Statement (.gateAdmit a b) := of_event rfl
theorem replayIssuerTimeout a b : Statement (.replayIssuerTimeout a b) := of_event rfl
theorem chunkCloseTimeout a b : Statement (.chunkCloseTimeout a b) := of_event rfl
theorem stewardBringup a : Statement (.stewardBringup a) := of_event rfl
theorem registerWrite a b : Statement (.registerWrite a b) := of_event rfl
theorem apauxRequest a b : Statement (.apauxRequest a b) := of_event rfl
theorem illegalWordIssue a : Statement (.illegalWordIssue a) := of_event rfl
theorem producerDataArrival : Statement .producerDataArrival := of_event rfl
theorem unseat : Statement .unseat := of_event rfl
theorem forcedUnseat : Statement .forcedUnseat := of_event rfl
theorem parklimitExpiry : Statement .parklimitExpiry := of_event rfl
theorem courierLine : Statement .courierLine := of_event rfl
theorem carriedArrival : Statement .carriedArrival := of_event rfl
theorem porterServe : Statement .porterServe := of_event rfl
theorem matrixComplete : Statement .matrixComplete := of_event rfl
theorem acrdDelivery : Statement .acrdDelivery := of_event rfl
theorem sysStageAck : Statement .sysStageAck := of_event rfl
theorem sysApplyAck : Statement .sysApplyAck := of_event rfl
theorem innkeeperSweepGroup : Statement .innkeeperSweepGroup := of_event rfl
theorem queryallPacket : Statement .queryallPacket := of_event rfl
theorem signal : Statement .signal := of_event rfl
theorem waitval : Statement .waitval := of_event rfl
theorem waitvalRecheck : Statement .waitvalRecheck := of_event rfl
theorem launchPacket : Statement .launchPacket := of_event rfl
theorem nopPacket : Statement .nopPacket := of_event rfl
theorem waveSave : Statement .waveSave := of_event rfl
theorem blockSave : Statement .blockSave := of_event rfl
theorem gangSaveComplete : Statement .gangSaveComplete := of_event rfl
theorem evictionWithdraw : Statement .evictionWithdraw := of_event rfl
theorem kernelComplete : Statement .kernelComplete := of_event rfl
theorem xbarDieArrival : Statement .xbarDieArrival := of_event rfl
theorem xbarIodieComplete : Statement .xbarIodieComplete := of_event rfl
theorem barrierTreeRelease : Statement .barrierTreeRelease := of_event rfl
theorem faultRingCopy : Statement .faultRingCopy := of_event rfl
theorem faultRingPoll : Statement .faultRingPoll := of_event rfl
theorem qidleExpiry : Statement .qidleExpiry := of_event rfl
theorem qpageageExpiry : Statement .qpageageExpiry := of_event rfl
theorem roomGrant : Statement .roomGrant := of_event rfl
theorem drainComplete : Statement .drainComplete := of_event rfl
theorem unmapComplete : Statement .unmapComplete := of_event rfl
theorem keySlotFault : Statement .keySlotFault := of_event rfl
theorem emergencyRailRemoval : Statement .emergencyRailRemoval := of_event rfl
theorem railsRestore : Statement .railsRestore := of_event rfl
theorem railTargetPass : Statement .railTargetPass := of_event rfl
theorem clqreqSet : Statement .clqreqSet := of_event rfl
theorem clqreqClear : Statement .clqreqClear := of_event rfl
theorem quiesceComplete : Statement .quiesceComplete := of_event rfl
theorem retsaveGo : Statement .retsaveGo := of_event rfl
theorem retsaveComplete : Statement .retsaveComplete := of_event rfl
theorem clkgateSet : Statement .clkgateSet := of_event rfl
theorem clkgateClear : Statement .clkgateClear := of_event rfl
theorem railOffReached : Statement .railOffReached := of_event rfl
theorem clwakeWake : Statement .clwakeWake := of_event rfl
theorem railSettled : Statement .railSettled := of_event rfl
theorem retloadComplete : Statement .retloadComplete := of_event rfl
theorem porten : Statement .porten := of_event rfl
theorem portfence : Statement .portfence := of_event rfl
theorem portTrainingTimeout : Statement .portTrainingTimeout := of_event rfl
theorem portLaneFail : Statement .portLaneFail := of_event rfl
theorem portIdleTimeout : Statement .portIdleTimeout := of_event rfl
theorem portReplayLimit : Statement .portReplayLimit := of_event rfl
theorem flitCrcError : Statement .flitCrcError := of_event rfl
theorem linkwaitExpiry : Statement .linkwaitExpiry := of_event rfl
theorem stopTickReached : Statement .stopTickReached := of_event rfl
theorem stopctlResume : Statement .stopctlResume := of_event rfl
theorem cntsnap : Statement .cntsnap := of_event rfl
theorem cntclr : Statement .cntclr := of_event rfl
theorem moduleReset : Statement .moduleReset := of_event rfl
theorem innkeeperVerify : Statement .innkeeperVerify := of_event rfl
theorem computeRailRaise : Statement .computeRailRaise := of_event rfl
theorem mgmtReady : Statement .mgmtReady := of_event rfl
theorem status : Statement .status := of_event rfl
theorem flashwrite : Statement .flashwrite := of_event rfl
theorem attest : Statement .attest := of_event rfl
theorem ctxcreate : Statement .ctxcreate := of_event rfl
theorem ctxreset : Statement .ctxreset := of_event rfl
theorem ctxdestroy : Statement .ctxdestroy := of_event rfl
theorem ctxhalt : Statement .ctxhalt := of_event rfl
theorem ctxrelease : Statement .ctxrelease := of_event rfl
theorem ctxresume : Statement .ctxresume := of_event rfl
theorem stopread : Statement .stopread := of_event rfl
theorem evread : Statement .evread := of_event rfl
theorem partassign : Statement .partassign := of_event rfl
theorem partadd : Statement .partadd := of_event rfl
theorem partremove : Statement .partremove := of_event rfl
theorem partrelease : Statement .partrelease := of_event rfl
theorem setroot : Statement .setroot := of_event rfl
theorem inval : Statement .inval := of_event rfl
theorem replay : Statement .replay := of_event rfl
theorem deny : Statement .deny := of_event rfl
theorem traceset : Statement .traceset := of_event rfl
theorem recset : Statement .recset := of_event rfl
theorem createq : Statement .createq := of_event rfl
theorem mapq : Statement .mapq := of_event rfl
theorem unmapq : Statement .unmapq := of_event rfl
theorem drainq : Statement .drainq := of_event rfl
theorem resetq : Statement .resetq := of_event rfl
theorem destroyq : Statement .destroyq := of_event rfl
theorem queryallCmd : Statement .queryallCmd := of_event rfl
theorem clgate : Statement .clgate := of_event rfl
theorem clungate : Statement .clungate := of_event rfl
theorem benchClock : Statement .benchClock := of_event rfl
theorem railSlew : Statement .railSlew := of_event rfl
theorem linkstRead : Statement .linkstRead := of_event rfl
theorem unknownOpcodeCommand : Statement .unknownOpcodeCommand := of_event rfl

end Sys2Proof.Laws.Named
end

