-- ==== Sys2Proof/Tests/Slice0.lean ====
section
/-! SUPPORT. Tests: words written out from the encoding tables, ill-formed words, and for each statement a concrete state and
operands that meet its hypotheses together. -/

namespace Sys2Proof.Tests

open Sys2Proof.Machine Sys2Proof.Safety

/-! ### A small state and small words -/

/-- The block of one wave that these tests place. -/
def block1 : Block := newBlock probeGrid 0 0 0 0 0 (0, 0, 0, 0) [0]

/-- A context whose tables, at 2^16, 2^17 and 3 × 2^16, map the addresses below 2^42 on themselves with every right. -/
def ctx1 : Ctx := { probeCtx with root := some (65536, 0) }
def tables : KMap Byte := [(65536, 128), (65538, 2), (131072, 128), (131074, 3), (196608, 254)]

/-- One context, one block of one wave `v` of kernel `g`, whose slot 0 has the turn; device memory at its own addresses. -/
def oneOf (g : Grid) (v : Wave) : State := { State.reset with
  ctxs := [(0, ctx1)], mem := tables, grids := [(0, g)], gangs := [(0, { Gang.new 0 0 0 with st := .resident, blocks := [0] })]
  blocks := [(0, block1)], waves := [(0, v)]
  mods := { ModRegs.reset with railsOff := false }, cur := .wave 0 0 (~~~(v.slot 0).stepped) false }

/-- The same of the kernel of a placed word, which has no trap handler. -/
def one (v : Wave) : State := oneOf probeGrid v

/-- A kernel that has one. -/
def trapGrid : Grid := { probeGrid with desc := { probeGrid.desc with hasTrap := true, trapOff := 256 } }

/-- A word's fields, under p7, without KEEP and caret. -/
def bd (d a b c : Option Opd) (ty : Fmt := .u32) (md : BitVec 4 := 0) (aux : Aux := .z) : Body :=
  ⟨⟨false, 7⟩, d, a, b, c, none, 0, ty, md, aux⟩

/-- The same under the guard that holds nowhere in a new wave. -/
def off (x : Body) : Body := { x with guard := ⟨false, 0⟩ }

theorem one_issues (v : Wave) (h1 : v.st ≠ .ended) (h2 : v.slot0.live = true) (h3 : v.gangHalt = none) : Issues (one v) 0 0 v :=
  ⟨by decide, rfl, rfl, h1, h2, fun _ _ => .inl (by simp only [watchUnit, one, oneOf, State.reset, kgetD, kget, Option.getD_none]; decide), h3⟩

theorem pw_issues : Issues (one probeWave) 0 0 probeWave := one_issues _ (by decide) rfl rfl

/-- What a trap needs, in a kernel with a handler and in one without. -/
theorem trap_hyps {v : Wave} (hc : v.ctx = 0) (hg : v.grid = 0) (hi : v.inHandler = false) :
    Untraced (one v) v.ctx 4 ∧ Untraced (oneOf trapGrid v) v.ctx 4 ∧
    (∃ d, descOf (oneOf trapGrid v) v.grid = some d ∧ d.hasTrap = true ∧ v.inHandler = false) ∧
    ∃ d, descOf (one v) v.grid = some d ∧ (d.hasTrap = false ∨ v.inHandler = true) := by
  rw [hc, hg]
  refine ⟨?_, ?_, ⟨trapGrid.desc, rfl, rfl, hi⟩, probeGrid.desc, rfl, .inl rfl⟩ <;>
  · intro x hx
    cases hx
    rfl

theorem untraced {v : Wave} (hc : v.ctx = 0) (k : Nat) : Untraced (one v) v.ctx k := by
  rw [hc]
  intro x hx
  cases hx
  simp [ctx1, probeCtx, newCtx, Trace.off]

theorem unrecorded {v : Wave} (hc : v.ctx = 0) : Unrecorded (one v) v.ctx := by
  rw [hc]
  intro x hx
  cases hx
  rfl

/-- An operand that names no H or N entry. -/
def high (o : Option Opd) : Bool := match o.bind opdEnt with | some e => decide (40 ≤ e) | none => true

theorem needOf_high {l : Option Lv} {o : Option Opd} {m : Mask} {c : Bool} (h : high o = true) :
    ∀ k ∈ needOf l o m c, 40 ≤ k.ent := by
  intro k hk
  unfold needOf at hk
  split at hk
  · split at hk
    · rename_i p _ e he
      simp only [List.mem_singleton] at hk
      subst hk
      simpa [high, he] using h
    · simp at hk
  · simp at hk

/-- Entries of M and W of a wave that has written none are FULL. -/
theorem high_readable {v : Wave} (hv : v.ents = []) {l : List Need} (h : ∀ k ∈ l, 40 ≤ k.ent) : Readable v l := by
  intro k hk n _ _ j _
  have := h k hk
  simp [Wave.cell, hv, kgetD, kget, show ¬ k.ent + j < 40 by omega]

theorem sources {v : Wave} (hv : v.ents = []) {x : Body} (h : (high x.a && high x.b && high x.c) = true) (o : Op) (sl : Nat) :
    SourcesFull o x v sl := by
  simp only [Bool.and_eq_true] at h
  apply high_readable hv
  intro k hk
  simp only [needs, List.mem_append] at hk
  rcases hk with (hk | hk) | hk
  · exact needOf_high h.1.1 k hk
  · exact needOf_high h.1.2 k hk
  · exact needOf_high h.2 k hk

theorem no_fp_trap {v : Wave} (h : v.fpen = 0) (m : Mask) (f : Nat → BitVec 6) : NoFpTrap v m f := by
  intro l _ _
  simp [h]

theorem uniform_preds {v : Wave} {x : Body} (h : uniformDst x = false) (m : Mask) (ps : List Nat) : UniformPreds v x m ps :=
  fun h' => by simp [h] at h'

/-- What a floating-point word needs of its results. -/
theorem fp_hyps {o : Op} {x : Body} {n : Body → Nat} {val : State → Iss → Body → Nat → List Word × BitVec 6}
    (hs : (high x.a && high x.b && high x.c) = true) (hr : Room (one probeWave) 0 0 probeWave x (n x))
    (h : ∀ l, (val (one probeWave) (issOf o x 0 0 probeWave) x l).1.length = n x) :
    Issues (one probeWave) 0 0 probeWave ∧ SourcesFull o x probeWave 0 ∧ Room (one probeWave) 0 0 probeWave x (n x) ∧
      (∀ l, (val (one probeWave) (issOf o x 0 0 probeWave) x l).1.length = n x) ∧
      NoFpTrap probeWave (realIn probeWave 0 x) (fun l => (val (one probeWave) (issOf o x 0 0 probeWave) x l).2) :=
  ⟨pw_issues, sources rfl hs o 0, hr, h, no_fp_trap rfl _ _⟩

/-! Translation depends on neither waves, levels, requests nor the turn. -/

theorem walkGo_same (s : State) (ws : KMap Wave) (bs : KMap Block) (gs : KMap Gang) (ps : KMap Machine.Prod) (cs : KMap SysCommit)
    (hl : List Req) (cp : KMap Copy)    (u : Issuer) (o va : Nat) (l : List (Nat × Nat × Bool × Bool)) : ∀ b,
    walkGo { s with waves := ws, blocks := bs, gangs := gs, prods := ps, sysCommits := cs, hall := hl, copies := cp, cur := u } o va l b = walkGo s o va l b := by
  induction l with
  | nil => exact fun _ => rfl
  | cons x t ih =>
    intro b
    obtain ⟨lo, n, p, q⟩ := x
    simp only [walkGo]
    rw [ih]
    rfl

theorem xlate_same (s : State) (ws : KMap Wave) (bs : KMap Block) (gs : KMap Gang) (ps : KMap Machine.Prod) (cs : KMap SysCommit)
    (hl : List Req) (cp : KMap Copy)    (u : Issuer) (c va : Nat) (k : Acc) :
    xlate { s with waves := ws, blocks := bs, gangs := gs, prods := ps, sysCommits := cs, hall := hl, copies := cp, cur := u } c va k = xlate s c va k := by
  have h (o va b) := walkGo_same s ws bs gs ps cs hl cp u o va walkLevels b
  simp only [xlate, walk]
  have hc : ∀ c, ({ s with waves := ws, blocks := bs, gangs := gs, prods := ps, sysCommits := cs, hall := hl, copies := cp, cur := u } : State).ctx? c = s.ctx? c := fun _ => rfl
  rw [hc]
  simp only [h]
  rfl
/-- An address below 2^42 translates to itself. -/
theorem hits (v : Wave) (va : Nat) (k : Acc) (h : xlate (one probeWave) 0 va k = .hit va) : xlate (one v) 0 va k = .hit va :=
  (xlate_same (one probeWave) _ _ _ _ _ _ _ _ 0 va k).trans h

/-- N0 := f(#1, M2, W3). -/
def x1 : Body := bd (some (.n 0)) (some (.lit 1)) (some (.m 2)) (some (.w 3))

/-! ### Witnesses: register words -/

theorem witness_integer_words :
    Issues (one probeWave) 0 0 probeWave ∧ (∀ o, SourcesFull o x1 probeWave 0) ∧ IntTy x1 ∧ Room (one probeWave) 0 0 probeWave x1 (tyWords x1) ∧
    UniformPreds probeWave x1 (exIn probeWave 0 x1) [x1.aux.pPa.val] :=
  ⟨pw_issues, fun o => sources rfl rfl o 0, .inl rfl, ⟨trivial, trivial⟩, uniform_preds rfl _ _⟩

theorem witness_predicate_words :
    Issues (one probeWave) 0 0 probeWave ∧ (∀ o, SourcesFull o x1 probeWave 0) ∧ Room (one probeWave) 0 0 probeWave x1 1 ∧ Room (one probeWave) 0 0 probeWave x1 (tyWords x1) ∧
    (∀ ps, UniformPreds probeWave x1 (exIn probeWave 0 x1) ps) ∧ Readable probeWave (selNeeds x1 (issOf .sel x1 0 0 probeWave)) := by
  refine ⟨pw_issues, fun o => sources rfl rfl o 0, ⟨trivial, trivial⟩, ⟨trivial, trivial⟩, fun _ => uniform_preds rfl _ _, high_readable rfl ?_⟩
  intro k hk
  simp only [selNeeds, List.mem_append] at hk
  rcases hk with hk | hk
  · exact needOf_high (o := x1.a) rfl k hk
  · exact needOf_high (o := x1.b) rfl k hk

theorem witness_moves_and_system_registers :
    Issues (one probeWave) 0 0 probeWave ∧ (∀ o m, Readable probeWave (needs o x1 m)) ∧ Room (one probeWave) 0 0 probeWave x1 (tyWords x1) ∧
    Room (one probeWave) 0 0 probeWave x1 4 ∧ Room (one probeWave) 0 0 probeWave x1 3 ∧ x1.a = some (.lit 1) ∧
    (∀ r ∈ [0x000#12, 0x020#12], let x : Body := { x1 with aux := .g r }
      SourcesFull .srd x probeWave 0 ∧ Room (one probeWave) 0 0 probeWave x 1 ∧
      x.aux.gReg ∈ [0x000, 0x001, 0x002, 0x003, 0x004, 0x008, 0x009, 0x010, 0x011, 0x020]) ∧
    (∀ r ∈ [0x008#12, 0x009#12], let x : Body := { x1 with aux := .g r }
      SourcesFull .swr x probeWave 0 ∧ (x.aux.gReg = 0x008 ∨ x.aux.gReg = 0x009)) := by
  refine ⟨pw_issues, fun o m => ?_, ⟨trivial, trivial⟩, ⟨trivial, trivial⟩, ⟨trivial, trivial⟩, rfl, ?_, ?_⟩
  · apply high_readable rfl
    intro k hk
    simp only [needs, List.mem_append] at hk
    rcases hk with (hk | hk) | hk
    · exact needOf_high (o := x1.a) rfl k hk
    · exact needOf_high (o := x1.b) rfl k hk
    · exact needOf_high (o := x1.c) rfl k hk
  · intro r hr x
    refine ⟨sources rfl rfl .srd 0, ⟨trivial, trivial⟩, ?_⟩
    simp only [List.mem_cons, List.not_mem_nil, or_false] at hr
    rcases hr with rfl | rfl <;> decide
  · intro r hr x
    refine ⟨sources rfl rfl .swr 0, ?_⟩
    simp only [List.mem_cons, List.not_mem_nil, or_false] at hr
    rcases hr with rfl | rfl <;> decide

theorem witness_lanes_combine :
    Issues (one probeWave) 0 0 probeWave ∧ (∀ o, SourcesFull o x1 probeWave 0) ∧ DRoom x1 2 ∧ (∀ i, x1.d ≠ some (.s i)) ∧
    Room (one probeWave) 0 0 probeWave x1 1 ∧ (∀ f, NoFpTrap probeWave (realIn probeWave 0 x1) f) ∧ x1.ty = .u32 :=
  ⟨pw_issues, fun o => sources rfl rfl o 0, trivial, fun _ => by simp [x1, bd], ⟨trivial, trivial⟩, no_fp_trap rfl _, rfl⟩

/-- N0 := f(M1, M2, W3) on F32. -/
def xf : Body := bd (some (.n 0)) (some (.m 1)) (some (.m 2)) (some (.w 3)) .f32

/-- What every word of one F32 result needs, for whatever it computes. -/
def Fp1 (o : Op) (x : Body) : Prop := ∀ val : State → Iss → Body → Nat → Nat × BitVec 6,
  let f : State → Iss → Body → Nat → List Word × BitVec 6 := fun s i x l => one32 (val s i x l)
  Issues (one probeWave) 0 0 probeWave ∧ SourcesFull o x probeWave 0 ∧ Room (one probeWave) 0 0 probeWave x 1 ∧
    (∀ l, (f (one probeWave) (issOf o x 0 0 probeWave) x l).1.length = 1) ∧
    NoFpTrap probeWave (realIn probeWave 0 x) (fun l => (f (one probeWave) (issOf o x 0 0 probeWave) x l).2)

theorem fp1_xf (o : Op) : Fp1 o xf := fun val => fp_hyps (x := xf) (n := fun _ => 1) (val := fun s i x l => one32 (val s i x l)) rfl ⟨trivial, trivial⟩ fun _ => rfl

theorem witness_float_arithmetic : ∀ o ∈ [Op.fadd, .fsub, .fmul, .ffma, .fscale, .frnd], Fp1 o xf := fun o _ => fp1_xf o

theorem witness_round_to_nearest : isFloat .f16 = true ∧ 0 < 3 ∧ (roundTo (.fin false 1 3) .f16 0 false 0).2 &&& fOF = 0 := by decide

theorem witness_float_selection_and_packed_words :
    (∀ o ∈ [Op.fmin, .fmax, .fminProp, .fmaxProp, .dot4], Fp1 o xf) ∧
    (Issues (one probeWave) 0 0 probeWave ∧ (∀ o, SourcesFull o xf probeWave 0) ∧ Room (one probeWave) 0 0 probeWave xf 1 ∧
      ∀ f, NoFpTrap probeWave (realIn probeWave 0 xf) f) ∧
    (∀ o ∈ [Op.hadd2, .hmul2, .hfma2], ∀ (ws : Nat → Word) (fl : Nat → List (Nat × BitVec 6)),
      let f : State → Iss → Body → Nat → List Word × BitVec 6 := fun _ _ _ l => packed [ws l] (fl l);
      SourcesFull o { xf with ty := .f16 } probeWave 0 ∧ ∀ l, (f (one probeWave) (issOf o xf 0 0 probeWave) xf l).1.length = 1) ∧
    (SourcesFull .idot4 { x1 with ty := .i8 } probeWave 0 ∧ Room (one probeWave) 0 0 probeWave { x1 with ty := .i8 } 1) :=
  ⟨fun o _ => fp1_xf o, ⟨pw_issues, fun o => sources rfl rfl o 0, ⟨trivial, trivial⟩, no_fp_trap rfl _⟩,
    fun o _ _ _ => ⟨sources rfl rfl o 0, fun _ => rfl⟩, sources rfl rfl .idot4 0, trivial, trivial⟩

theorem witness_fclass_and_idot4 :
    Issues (one probeWave) 0 0 probeWave ∧ SourcesFull .fclass xf probeWave 0 ∧ Room (one probeWave) 0 0 probeWave xf 1 ∧
    ∀ t ∈ [Fmt.i8, .u8], let x : Body := { x1 with ty := t }
      (x.ty = .i8 ∨ x.ty = .u8) ∧ SourcesFull .idot4 x probeWave 0 ∧ Room (one probeWave) 0 0 probeWave x 1 := by
  refine ⟨pw_issues, sources rfl rfl _ 0, ⟨trivial, trivial⟩, ?_⟩
  intro t ht x
  exact ⟨by simpa using ht, sources rfl rfl _ 0, trivial, trivial⟩

theorem witness_conversion_and_scaling :
    (∀ r : Nat → Nat × BitVec 6, 
      let f : State → Iss → Body → Nat → List Word × BitVec 6 := fun _ _ x l => (wordsOf (fmt64 x.ty) (r l).1, (r l).2);
      ∀ o ∈ [Op.cvt, .cvts, .qnt, .dqnt], Issues (one probeWave) 0 0 probeWave ∧ SourcesFull o xf probeWave 0 ∧ Room (one probeWave) 0 0 probeWave xf (tyWords xf) ∧
        (∀ l, (f (one probeWave) (issOf o xf 0 0 probeWave) xf l).1.length = tyWords xf) ∧
        NoFpTrap probeWave (realIn probeWave 0 xf) (fun l => (f (one probeWave) (issOf o xf 0 0 probeWave) xf l).2)) ∧
    (let x : Body := { xf with aux := .f .f16 };
      SourcesFull .unpk x probeWave 0 ∧ Room (one probeWave) 0 0 probeWave x (unpkSpan x.ty x.aux.fFmt) ∧
      ∀ es, (packGroups x.ty (perEntry x.ty) (unpkSpan x.ty x.aux.fFmt) es).length = unpkSpan x.ty x.aux.fFmt) ∧
    ∀ g ∈ [16#9, 32#9, 64#9], let x : Body := { xf with b := some (.lit g) };
      SourcesFull .bscale x probeWave 0 ∧ Room (one probeWave) 0 0 probeWave x 2 ∧ x.b = some (.lit g) := by
  refine ⟨fun r o _ => fp_hyps (x := xf) (n := tyWords) (val := fun _ _ x l => (wordsOf (fmt64 x.ty) (r l).1, (r l).2)) rfl ⟨trivial, trivial⟩ fun _ => rfl, ⟨sources rfl rfl _ 0, ⟨trivial, trivial⟩, fun es => ?_⟩, ?_⟩
  · simp [packGroups, unpkSpan, perEntry, xf, bd, Aux.fFmt]
  · intro g _ x
    exact ⟨sources rfl rfl _ 0, ⟨trivial, trivial⟩, rfl⟩

theorem witness_special_and_statistics :
    (∀ o ∈ [Op.rcp, .rsq, .exp2, .log2, .sin, .cos, .tanh, .sqrt, .rng], Fp1 o xf) ∧
    (let x : Body := bd (some (.m 0)) (some (.m 8)) (some (.m 2)) none .f32;
      Issues (one probeWave) 0 0 probeWave ∧ Room (one probeWave) 0 0 probeWave x 3 ∧ Room (one probeWave) 0 0 probeWave x 2 ∧ SourcesFull .wfin x probeWave 0 ∧
      (∀ o : Op, Readable probeWave (needOf (sig o x.ty x.md x.aux).d x.d (exIn probeWave 0 x) false ++ needs o x (exIn probeWave 0 x))) ∧
      ∀ f, NoFpTrap probeWave (realIn probeWave 0 x) f) := by
  refine ⟨fun o _ => fp1_xf o, pw_issues, ⟨by simp [DRoom, bd], trivial⟩, ⟨by simp [DRoom, bd], trivial⟩, sources rfl rfl _ 0, fun o => ?_, no_fp_trap rfl _⟩
  intro k hk
  rcases List.mem_append.1 hk with hk | hk
  · exact high_readable rfl (needOf_high rfl) k hk
  · exact sources rfl rfl o 0 k hk

/-! ### Witnesses: control, seams, traps -/

/-- A wave whose p0 holds in lane 0 alone. -/
def vp : Wave := { probeWave with preds := Vector.replicate 7 1 }
/-- A word with A, under p0. -/
def xp (a : Option Opd) : Body := { bd none a none none with guard := ⟨false, 0⟩ }
/-- The same wave with a second slot and a full divergence stack. -/
def vpFull : Wave := { vp with slot1 := .at_ 32 1, stack := List.replicate 255 ⟨1, 0, 0⟩ }

theorem full_stack : stackLimit (one vpFull) vpFull ≤ vpFull.stack.length := by
  show stackLimit (one vpFull) vpFull ≤ (List.replicate 255 _).length
  rw [List.length_replicate]
  decide

theorem witness_control_words :
    Issues (one probeWave) 0 0 probeWave ∧ (∀ o, SourcesFull o x1 probeWave 0) ∧
    (exIn probeWave 0 (off x1) ≠ lanesIn probeWave 0 ∧ exIn probeWave 0 (off x1) = 0) ∧
    (let x := bd none (some (.lit 16)) none none;
      exIn probeWave 0 x = lanesIn probeWave 0 ∧ Untraced (one probeWave) probeWave.ctx 3 ∧ lanesIn probeWave 0 ≠ 0 ∧
      (∀ l, src (one probeWave) probeWave x.a l = 16) ∧ (16 : Word).toNat % 16 = 0 ∧
      ∀ o, Readable probeWave (needs o x (lanesIn probeWave 0))) ∧
    (Issues (one vp) 0 0 vp ∧ exIn vp 0 (xp none) ≠ lanesIn vp 0 ∧ exIn vp 0 (xp none) ≠ 0) ∧
    (let x := bd none (some (.k .lane)) none none;
      exIn probeWave 0 x = lanesIn probeWave 0 ∧ (lanesIn probeWave 0).getLsbD 0 = true ∧ (lanesIn probeWave 0).getLsbD 1 = true ∧
      src (one probeWave) probeWave x.a 0 ≠ src (one probeWave) probeWave x.a 1 ∧ SourcesFull .ret x probeWave 0) ∧
    (let x := bd none (some (.lit 8)) none none;
      (∀ l, src (one probeWave) probeWave x.a l = 8) ∧ (8 : Word).toNat % 16 ≠ 0 ∧ SourcesFull .jmpx x probeWave 0) ∧
    (Issues (one vpFull) 0 0 vpFull ∧ exIn vpFull 0 (xp none) ≠ lanesIn vpFull 0 ∧ exIn vpFull 0 (xp none) ≠ 0 ∧
      (vpFull.slot 1).live = true ∧ stackLimit (one vpFull) vpFull ≤ vpFull.stack.length) ∧
    Untraced (one vp) vp.ctx 4 ∧ ∃ d, descOf (one vp) vp.grid = some d ∧ (d.hasTrap = false ∨ vp.inHandler = true) :=
  ⟨pw_issues, fun o => sources rfl rfl o 0, by decide,
    ⟨by decide, untraced rfl 3, by decide, fun _ => by rfl, by decide, fun o => sources (x := bd none (some (.lit 16)) none none) rfl rfl o 0⟩,
    ⟨one_issues _ (by decide) rfl rfl, by decide, by decide⟩, ⟨by decide, by decide, by decide, by decide, sources rfl rfl _ 0⟩,
    ⟨fun _ => by rfl, by decide, sources rfl rfl _ 0⟩,
    ⟨one_issues _ (by decide) rfl rfl, by decide, by decide, by decide, full_stack⟩, (trap_hyps rfl rfl rfl).1, (trap_hyps rfl rfl rfl).2.2.2⟩

/-- Both slots, the other one held at the JOIN of this one, and one entry on the stack. -/
def vj (o : Slot) (st : List StkEntry) : Wave := { probeWave with slot1 := o, stack := st }

theorem witness_lanes_split_and_regroup :
    (Issues (one vp) 0 0 vp ∧ Untraced (one vp) vp.ctx 3 ∧ exIn vp 0 (xp none) ≠ lanesIn vp 0 ∧ exIn vp 0 (xp none) ≠ 0 ∧
      (vp.slot 1).live = false) ∧
    (let v : Wave := { vp with slot1 := .at_ 32 1 };
      Issues (one v) 0 0 v ∧ exIn v 0 (xp none) ≠ lanesIn v 0 ∧ exIn v 0 (xp none) ≠ 0 ∧ (v.slot 1).live = true ∧
      v.stack.length < stackLimit (one v) v) ∧
    (let v := vj { Slot.at_ 0 2 with hold := .join } [⟨1, 64, 128⟩];
      Issues (one v) 0 0 v ∧ (v.slot 1).live = true ∧ (v.slot 1).hold = .join ∧ (v.slot 1).pc = (v.slot 0).pc) ∧
    (Issues (one probeWave) 0 0 probeWave ∧ (probeWave.slot 1).live = false ∧ probeWave.stack = []) ∧
    (∀ st ∈ [[], [⟨1, 0, 0⟩], [⟨1, 16, 0⟩], [⟨1, 0, 16⟩]], let v := vj (.at_ 32 2) st;
      Issues (one v) 0 0 v ∧ (v.slot 1).live = true ∧ ((v.slot 1).hold ≠ .join ∨ (v.slot 1).pc ≠ (v.slot 0).pc) ∧
      (v.slot 0).mask &&& ~~~(exIn v 0 (bd none none none none)) = 0) ∧
    (vp.slot 0).mask &&& ~~~(exIn vp 0 (xp none)) ≠ 0 ∧
    ((probeWave.slot 0).mask &&& ~~~(exIn probeWave 0 (bd none none none none)) = 0 ∧ (probeWave.slot (1 - 0)).live = false) := by
  refine ⟨⟨one_issues _ (by decide) rfl rfl, untraced rfl 3, by decide, by decide, rfl⟩,
    ⟨one_issues _ (by decide) rfl rfl, by decide, by decide, by decide, by decide⟩, ⟨one_issues _ (by decide) rfl rfl, by decide⟩,
    ⟨pw_issues, by decide, rfl⟩, fun st _ => ⟨one_issues _ (show probeWave.st ≠ .ended by decide) rfl rfl, rfl, .inl (show Hold.none ≠ Hold.join by decide), ?_⟩, by decide, by decide⟩
  show probeWave.slot0.mask &&& ~~~(exIn (vj (.at_ 32 2) []) 0 (bd none none none none)) = 0
  decide

theorem witness_seams :
    Issues (one probeWave) 0 0 probeWave ∧ exIn probeWave 0 (off x1) = 0 ∧ exIn probeWave 0 x1 ≠ 0 ∧
    (∀ o, SourcesFull o x1 probeWave 0) ∧ (one probeWave).block? probeWave.blk = some block1 :=
  ⟨pw_issues, by decide, by decide, fun o => sources rfl rfl o 0, rfl⟩

theorem witness_traps_halts_sleep_and_return :
    Issues (one probeWave) 0 0 probeWave ∧ exIn probeWave 0 (off x1) = 0 ∧ exIn probeWave 0 x1 ≠ 0 ∧ x1.aux.iBrk = false ∧
    probeWave.st ≠ .halted ∧ Untraced (one probeWave) probeWave.ctx 6 ∧ ({ x1 with aux := .i 7 true } : Body).aux.iBrk = true ∧
    (∀ o, SourcesFull o x1 probeWave 0) ∧ probeWave.inHandler = false ∧
    (let v : Wave := { probeWave with inHandler := true, frame := [(0x18, 1), (0x28, 1)] };
      Issues (one v) 0 0 v ∧ exIn v 0 x1 ≠ 0 ∧ v.inHandler = true ∧
      (∀ k, k < 2 → frameNat v.frame (0x28 + k) 1 % 2 = 1 → BitVec.ofNat 64 (frameNat v.frame (0x18 + 8 * k) 8) ≠ 0#64) ∧
      frameNat v.frame 0x29 1 % 2 ≠ 1) ∧
    (let v : Wave := { probeWave with inHandler := true, frame := [(0x28, 1)] };
      Issues (one v) 0 0 v ∧ exIn v 0 x1 ≠ 0 ∧ v.inHandler = true ∧ Untraced (one v) v.ctx 4 ∧ ((one v).grid? v.grid).isSome = true ∧
      frameNat v.frame 0x28 1 % 2 = 1 ∧ BitVec.ofNat 64 (frameNat v.frame 0x18 8) = 0#64) ∧
    Untraced (one probeWave) probeWave.ctx 4 ∧ Untraced (oneOf trapGrid probeWave) probeWave.ctx 4 ∧
    (∃ d, descOf (oneOf trapGrid probeWave) probeWave.grid = some d ∧ d.hasTrap = true ∧ probeWave.inHandler = false) ∧
    ∃ d, descOf (one probeWave) probeWave.grid = some d ∧ (d.hasTrap = false ∨ probeWave.inHandler = true) :=
  ⟨pw_issues, by decide, by decide, rfl, by decide, untraced rfl 6, rfl, fun o => sources rfl rfl o 0, rfl,
    ⟨one_issues _ (by decide) rfl rfl, by decide, rfl, by decide, by decide⟩,
    ⟨one_issues _ (by decide) rfl rfl, by decide, rfl, untraced rfl 4, rfl, by decide, by decide⟩, trap_hyps rfl rfl rfl⟩

/-- The lanes of an entry in a state, where nothing else is written: M2 in lane 5. -/
def vs (st : CellSt) : Wave := { probeWave with ents := [(64 * 42 + 5, ⟨0, st⟩)] }

theorem witness_sources_in_order :
    (∀ st ∈ [CellSt.lost, .empty 0], Issues (one (vs st)) 0 0 (vs st)) ∧
    NeedLane (vs .lost) (needs .iadd x1 (exIn (vs .lost) 0 x1)) (fun _ c => c matches .lost) 5 ∧
    (let v := vs (.empty 0); let l := needs .iadd { x1 with eb := 2 } (exIn v 0 x1);
      NeedLane v l (fun k c => k.caret && c matches .empty _) 5 ∧
      (∀ k ∈ l, ∀ n, n < 64 → ∀ j, j < k.n → (v.cell (k.ent + j) n).st ≠ .lost)) ∧
    (let v := vs (.empty 0); let l := needs .iadd x1 (exIn v 0 x1);
      NeedLane v l (fun _ c => c matches .empty _) 5 ∧ ∀ k ∈ l, k.caret = false) := by
  have h1 : needs .iadd x1 (exIn (vs .lost) 0 x1) = [⟨42, 1, BitVec.allOnes 64, false⟩] := by decide
  have h2 : needs .iadd { x1 with eb := 2 } (exIn (vs (.empty 0)) 0 x1) = [⟨42, 1, BitVec.allOnes 64, true⟩] := by decide
  have h3 : needs .iadd x1 (exIn (vs (.empty 0)) 0 x1) = [⟨42, 1, BitVec.allOnes 64, false⟩] := by decide
  refine ⟨fun st _ => one_issues _ (show probeWave.st ≠ .ended by decide) rfl rfl, ?_, ?_, ?_⟩
  · rw [h1]; exact ⟨_, List.mem_singleton.2 rfl, by decide, 0, by decide, by decide⟩
  · simp only [h2]
    refine ⟨⟨_, List.mem_singleton.2 rfl, by decide, 0, by decide, by decide⟩, ?_⟩
    decide
  · simp only [h3]
    exact ⟨⟨_, List.mem_singleton.2 rfl, by decide, 0, by decide, by decide⟩, by simp⟩

/-! ### Witnesses: seats, homes, wakes, trees -/

theorem device_here {s : State} (h : s.cfg = CfgRec.default) {a : Nat} (ha : a < 0x9000000000) : isDevice s a = true := by
  have : a % 2 ^ 48 = a := Nat.mod_eq_of_lt (by omega)
  have h2 : a / 2 ^ 48 % 256 = 0 := by omega
  simp only [isDevice, homeOf, this, h, h2, CfgRec.default]
  simp [ha]

theorem device_range {s : State} (h : s.cfg = CfgRec.default) {a n : Nat} (ha : a + n ≤ 0x9000000000) : DeviceRange s a n :=
  fun i hi => device_here h (by omega)

theorem plain_range {s : State} (h : s.cfg = CfgRec.default) (h1 : s.staged = []) (h2 : s.sysCommits = []) {a n : Nat}
    (ha : a + n ≤ 0x9000000000) : PlainRange s a n :=
  fun i hi => ⟨device_here h (by omega), by simp [stagedByte, h1, h2]⟩

/-- Waves on bench 0, by number. -/
def bench (ws : KMap Wave) : State := { one probeWave with waves := ws, cur := .none }

def vReady : Wave := { probeWave with st := .ready, seat := none }
def vWait : Wave := { probeWave with st := .seatwait, waitSince := 5, slot0 := { probeWave.slot0 with hold := .seam .ready } }
def full4 : State := bench [(0, vWait), (1, { probeWave with seat := some 1 }), (2, { probeWave with seat := some 2 }),
  (3, { probeWave with seat := some 3 }), (4, vReady)]
/-- A fault record on which a slot of wave 0 waits. -/
def rec1 : FaultRec := ⟨1, 0, 0, 1, 0, 0, 0, false, 0, false, false, 0, [.slot 0 0]⟩
def parked : State := { bench [(0, { probeWave with parkTime := some 100001, st := .parked })] with fbuf := [rec1] }
/-- An inspector in wave 1 whose step of slot 0 of wave 0 waits. -/
def stepping : State := { bench [(0, probeWave), (1, { probeWave with slot0 := { probeWave.slot0 with hold := .inspect 0 0 none none 1 0 } })] with
  tick := 65536 }

theorem witness_seats_and_benches :
    ((bench [(0, vReady)]).wave? 0 = some vReady ∧ Untraced (bench [(0, vReady)]) vReady.ctx 5 ∧
      (∀ k ∈ [0, 3], ∀ y ∈ benchWaves (bench [(0, vReady)]) (benchOf vReady.place), y.2.seat ≠ some k) ∧
      refillPick (bench [(0, vReady)]) (benchOf vReady.place) = some 0 ∧ ctxLive (bench [(0, vReady)]) vReady.ctx = true) ∧
    ((0, vWait) ∈ benchWaves full4 0 ∧ vWait.st = .seatwait ∧ vWait.stack = [] ∧ ctxLive full4 vWait.ctx = true ∧
      (∀ y ∈ benchWaves full4 0, y ≠ (0, vWait) → y.2.st ≠ .seatwait) ∧
      ((benchWaves full4 0).filter fun y => y.2.seat.isSome).length = 4 ∧ (4, vReady) ∈ benchWaves full4 0 ∧ vReady.st = .ready ∧ ctxLive full4 vReady.ctx = true) ∧
    (let v : Wave := { probeWave with slot0 := { probeWave.slot0 with starved := true, starveClocks := 4097 } };
      (bench [(0, v)]).wave? 0 = some v ∧ v.seat.isSome = true ∧ v.st = .seated ∧ ctxLive (bench [(0, v)]) v.ctx = true ∧
      (v.slot 0).live = true ∧ 4096 < (v.slot 0).starveClocks) ∧
    (let v : Wave := { probeWave with slot0 := { probeWave.slot0 with clocks := 4096 } };
      v.waiting = false ∧ (v.slot 0).live = true ∧ 4096 ≤ (v.slot 0).clocks ∧ (v.slot 1).live = false) ∧
    (wavePages parked 0 = true ∧ ctxHalted parked 0 = false ∧ parked.cfg.parklimit < 100001) ∧
    ((vWait.slot 0).hold = .seam .ready ∧ vWait.alive = true ∧ vWait.st ≠ .saved ∧ vWait.st ≠ .halted ∧
      ctxLive (bench [(0, vWait)]) vWait.ctx = true ∧ condHolds (bench [(0, vWait)]) vWait .ready = true ∧ evictHere (bench [(0, vWait)]) vWait = false ∧ inspectorsOf (bench [(0, vWait)]) 0 0 = []) ∧
    (let v : Wave := { probeWave with slot0 := { probeWave.slot0 with hold := .sleep 0 } };
      (bench [(0, v)]).wave? 0 = some v ∧ (v.slot 0).hold = .sleep 0 ∧ 0 ≤ (bench [(0, v)]).tick.toNat) ∧
    (inspectorsOf stepping 0 0 = [(1, 0)] ∧ (stepping.wave? 1).map (fun y => (y.slot 0).hold) = some (.inspect 0 0 none none 1 0) ∧
      0 + 65536 ≤ stepping.tick.toNat) ∧
    (clockRuns (bench [(0, probeWave)]) 0 = true ∧
      (benchChoice (bench [(0, probeWave)]) 0 (readyWaves (bench [(0, probeWave)]) 0)).isSome = true ∧
      (chooseWave (bench [(0, probeWave)]) 0 (readyWaves (bench [(0, probeWave)]) 0)).isSome = true) ∧
    (clockRuns { bench [] with unit := 5 } 0 = true ∧ benchWaves { bench [] with unit := 5 } 5 = []) := by
  refine ⟨⟨rfl, fun x hx => by cases hx; rfl, by decide, by decide, by decide⟩, ⟨by decide, by decide, by decide, by decide, by decide, by decide, by decide, by decide, by decide⟩,
    ⟨rfl, by decide⟩, by decide, by decide, by decide, ⟨rfl, by decide⟩, by decide, by decide, by decide⟩

def c1 : SysCommit := ⟨0, 0, 0, 0, [(5, 7)], [(0x10000000000, 1)], [], [], false, false, false, 0, 0⟩

theorem witness_messages_at_homes :
    (let s : State := { one probeWave with staged := [⟨1, 2, [(5, 7)]⟩] };
      s.staged.find? (fun x => x.src = 1 && x.cid = 2) = some ⟨1, 2, [(5, 7)]⟩ ∧ ∀ x ∈ [((5 : Nat), (7 : Byte))], isDevice s x.1 = true) ∧
    (let s : State := { one probeWave with sysCommits := [(0, c1)] };
      kget s.sysCommits s.unit = some c1 ∧ c1.applied = false ∧ c1.check = false ∧ c1.finished = false ∧ ∀ m ∈ c1.homes, homeCut s m = false) ∧
    (let s : State := { one probeWave with sysCommits := [(0, { c1 with applied := true })] };
      kget s.sysCommits s.unit = some { c1 with applied := true } ∧ s.wave? c1.wave = some probeWave ∧ waveLives s c1.wave = true ∧
      ∀ x ∈ c1.host, ∃ a, homeOf s x.1 = .host a) ∧
    (∀ x ∈ [((5 : Nat), (7 : Byte))], isDevice (one probeWave) x.1 = true ∧ stagedByte (one probeWave) x.1 = false) ∧
    PlainRange (one probeWave) 0x8FFFFFFFF8 8 ∧ homeOf (one probeWave) 64 ≠ .power ∧ homeOf (one probeWave) 64 ≠ .mgmt ∧
    (let s := one probeWave;
      homeOf s (s.cfg.pwrBase + 0x1000 * 63 + 0x30) = .power ∧ s.cfg.pwrBase % 2 ^ 48 = s.cfg.pwrBase ∧ s.cfg.pwrBase + 2 ^ 36 < 2 ^ 48 ∧
      stagedByte s (s.cfg.pwrBase + 0x1000 * 63 + 0x30) = false) ∧
    (let s : State := { one probeWave with mods := { ModRegs.reset with h2dEn := true } };
      s.mods.h2dEn = true ∧ ctxLive s s.mods.h2dCtx = true ∧ PlainRange s (bar2Pa s 16) 4 ∧ s.cfg.wakeBase % 2 ^ 36 = 0 ∧
      0xC000000000 ≤ s.cfg.wakeBase ∧ s.cfg.wakeBase ≤ 0xFFFFFFFFFF ∧ s.cfg.modid < 256 ∧ s.cfg.vwin ≤ 24) := by
  refine ⟨⟨rfl, by decide⟩, ⟨rfl, rfl, rfl, rfl, by decide⟩, ⟨rfl, rfl, by decide, fun x hx => ?_⟩, by decide, plain_range rfl rfl rfl (by decide), by decide,
    by decide, by decide, ⟨rfl, by decide, plain_range rfl rfl rfl (by decide), by decide⟩⟩
  simp only [c1, List.mem_singleton] at hx
  subst hx
  exact ⟨0, by decide⟩

/-- A queue of context 0 in a state, with its ring of 16 packets at address 0. -/
def que (st : Nat) : Queue := { newQueue State.reset 0 4 0 0 with st }
/-- A module with one queue. -/
def withQ (x : Queue) : State := { one probeWave with queues := [(0, x)], cur := .none }

theorem witness_wakes_and_fault_records :
    (∀ st, kget (withQ (que st)).queues 0 = some (que st) ∧ (que st).st = st) ∧
    (∀ st, (16 - (que st).ridx).toNat ≤ 2 ^ (que st).logsize ∧ 2 ^ (que st).logsize < (17 - (que st).ridx).toNat) ∧
    (let s : State := { one probeWave with fbuf := [rec1] };
      s.fbuf.find? (fun y => !y.copied) = some rec1 ∧ (s.fwidx - s.fridx).toNat < 2046 ∧
      (∀ i, i < 32 → isDevice s (s.cfg.faultRing + 64 + 32 * (s.fwidx.toNat % 2046) + i) = true) ∧
      (∀ i, i < 4 → isDevice s (s.cfg.faultRing + i) = true) ∧ ∃ r ∈ s.fbuf, r.copied = false) :=
  ⟨fun _ => ⟨rfl, rfl⟩, fun st => ⟨show ((16 : Word) - 0).toNat ≤ 2 ^ 4 by decide, show 2 ^ 4 < ((17 : Word) - 0).toNat by decide⟩,
    rfl, by decide, fun i hi => device_here rfl (show 0 + 64 + 32 * 0 + i < _ by omega),
    fun i hi => device_here rfl (show 0 + i < _ by omega), rec1, by simp, rfl⟩

/-- Gangs of grid 0, block 0 in the first. -/
def gangsOf (gs : KMap Gang) (g : Grid) : State := { one probeWave with gangs := gs, grids := [(0, g)], cur := .none }
def gx : Gang := { Gang.new 0 0 0 with st := .resident, blocks := [0], xb := ⟨1, 1, 0⟩ }

theorem witness_tree_barriers :
    (let s := gangsOf [(0, gx)] { probeGrid with sync := true };
      s.gang? s.unit = some gx ∧ (s.grid? gx.grid).isSome = true ∧ gx.xbDie = false ∧ gx.xb.gmask ≠ 0 ∧ gx.xb.garr = gx.xb.gmask ∧ gx.st ≠ .retired ∧
      ∀ k ∈ [0], ∀ y, s.gang? k = some y → y.die = gx.die → k = s.unit) ∧
    (let s := gangsOf [(0, gx), (1, { gx with blocks := [] })] { probeGrid with sync := true, gangs := [0, 1] };
      (s.gang? 1).map (·.die) = some gx.die ∧ (1 : Nat) ∉ probeGrid.xbArr) ∧
    (let r : Grid := { probeGrid with sync := true, xbArr := [0], xbDies := [0] }; let s := gangsOf [(0, gx)] r;
      s.grid? s.unit = some r ∧ r.gangs ≠ [] ∧ (∀ k ∈ r.gangs, k ∈ r.xbArr) ∧ r.gangs.Nodup ∧
      (r.gangs.flatMap fun k => match s.gang? k with | some g => g.blocks | none => []).Nodup) ∧
    (∀ c ∈ [WaitCond.gbar 1, .xbar 1], let v : Wave := { vWait with slot0 := { probeWave.slot0 with hold := .seam c } }; let s := bench [(0, v)];
      s.wave? 0 = some v ∧ (kfind s.waves fun _ y => y.gang = s.unit) = [0] ∧ (v.slot 0).hold = .seam c ∧ condHolds s v c = true ∧ evictHere s v = false ∧
      (v.slot 1).hold = .none ∧ v.alive = true ∧ v.st ≠ .saved ∧ v.st ≠ .halted ∧ ctxLive s v.ctx = true ∧ inspectorsOf s 0 0 = []) ∧
    (Issues (one probeWave) 0 0 probeWave ∧ exIn probeWave 0 (bd none (some (.lit 1)) none none) ≠ 0 ∧
      SourcesFull .gbar (bd none (some (.lit 1)) none none) probeWave 0 ∧ probeWave.idx < 16 ∧ (one probeWave).block? probeWave.blk = some block1 ∧
      (∃ g, (one probeWave).gang? block1.gang = some g ∧ probeWave.blk ∈ g.blocks ∧ g.blocks.Nodup)) := by
  refine ⟨⟨rfl, rfl, rfl, by decide, rfl, by decide, fun k hk y h _ => ?_⟩, by decide, ⟨rfl, by decide, by decide, by decide, by decide⟩, ?_,
    pw_issues, by decide, sources rfl rfl _ 0, by decide, rfl, _, rfl, by decide, by decide⟩
  · exact (by simpa using hk : k = 0)
  · intro c hc
    simp only [List.mem_cons, List.not_mem_nil, or_false] at hc
    rcases hc with rfl | rfl <;> exact ⟨rfl, by decide⟩

/-! ### Witnesses: queues, packets, gangs -/

/-- A packet whose 64 bytes form a number. -/
def pkt (n : Nat) : List Byte := leBytes 64 n
/-- A queue in MAPPED with one packet pending, held by its lane or not. -/
def mappedQ (cur : Option (Nat × List Byte)) : Queue := { que 3 with widx := 1, room := some 2, cur }
/-- Its module, with a packet's bytes at its ring. -/
def withPkt (n : Nat) : State := { withQ (mappedQ none) with
  rooms := [(2, 0)], mem := ((pkt n).zipIdx.filterMap fun y => if y.1 = 0 then none else some (y.2, y.1)) ++ tables }

theorem witness_queues_move :
    (∀ st, kget (withQ (que st)).queues 0 = some (que st) ∧ (que st).after = 0 ∧ (que st).wakePend = false ∧ (que st).ridx = (que st).widx ∧
      (que st).busy = [] ∧ (que st).cur = none ∧ (que st).pinned = false ∧ (que st).ridx = (que st).drain ∧ (withQ (que st)).unit = 0) ∧
    (∀ st, ({ que st with wakePend := true } : Queue).wakePend = true) ∧
    (let s : State := { withQ (que 3) with tick := 10000000000 };
      (que 3).idle.toNat + s.cfg.qidle ≤ s.tick.toNat ∧ (que 1).tick.toNat + s.cfg.qpageage ≤ s.tick.toNat) ∧
    (kget (withQ (que 2)).rooms 0 = none ∧ ((que 2).widx - (que 2).ridx).toNat ≤ 2 ^ (que 2).logsize) ∧
    (∀ k, k < 64 → kget (withPkt 5).rooms (64 * (withPkt 5).unit + k) = if k = 2 then some 0 else none) ∧
    (let s := withPkt 5; let x := mappedQ none;
      kget s.queues 0 = some x ∧ ctxLive s x.ctx = true ∧ x.cur = none ∧ x.denied = none ∧ x.st = 3 ∧ x.ridx ≠ x.widx ∧
      xlate s x.ctx (x.ring.toNat + 64 * (x.ridx.toNat % 2 ^ x.logsize)) .read = .hit 0 ∧ PlainRange s 0 64 ∧
      pktBad ((List.range 64).map fun i => devByte s x.ctx (0 + i)) = false ∧ x.busy = []) := by
  refine ⟨fun _ => ⟨rfl, rfl, rfl, rfl, rfl, rfl, rfl, rfl, rfl⟩, fun _ => rfl, ⟨by decide +kernel, by decide +kernel⟩, ⟨rfl, by decide +kernel⟩, by decide +kernel,
    rfl, by decide +kernel, rfl, rfl, rfl, by decide +kernel, by decide +kernel, plain_range rfl rfl rfl (by decide +kernel), by decide +kernel, rfl⟩

/-- A descriptor of 1 × 1 × 1 block of 64 lanes, and a launch packet that names it at address 256. -/
def desc1 : Nat := 2 ^ 200 * 0x2220000000000000000 + 64 * 2 ^ 232 + 2 ^ 243 + 2 ^ 254
def launch1 : List Byte := pkt (4 + 2 ^ 32 + 2 ^ 48 + 2 ^ 64 + 256 * 2 ^ 128)
def launching : State := { withQ (mappedQ (some (0, launch1))) with
  mem := ((leBytes 64 desc1).zipIdx.filterMap fun y => if y.1 = 0 then none else some (256 + y.2, y.1)) ++ tables
  clusters := [(0, { Cluster.reset with part := some 0 })] }

theorem witness_packets :
    (∀ b, let x := mappedQ (some (0, b)); let s := withQ x;
      kget s.queues s.unit = some x ∧ x.cur = some (0, b) ∧ s.ctx? x.ctx = some ctx1 ∧ ctx1.st = .live ∧ x.ridx.toNat = 0 ∧
      x.st = 3 ∧ x.denied = none ∧ x.ridxAddr = 0) ∧
    (let x : Queue := { mappedQ (some (0, pkt 5)) with ridxAddr := 64 };
      pktNat (pkt 5) 0 1 = 5 ∧ x.ridxAddr ≠ 0 ∧ xlate (withQ x) x.ctx x.ridxAddr.toNat .write = .hit 64 ∧ PlainRange (withQ x) 64 4) ∧
    (∀ t ∈ [2, 3], let b := pkt (t + 64 * 2 ^ 128);
      pktNat b 0 1 = t ∧ xlate (withQ (mappedQ (some (0, b)))) 0 (pktNat b 16 9) .write = .hit 64 ∧
      xlate (withQ (mappedQ (some (0, b)))) 0 (pktNat b 16 9) .read = .hit 64) ∧
    (let b := pkt (1 + 64 * 2 ^ 64 + 64 * 2 ^ 128);
      pktNat b 0 1 = 1 ∧ (qSummary (withQ (mappedQ (some (0, b)))) none (pktNat b 8 4)).length = 64 ∧
      xlate (withQ (mappedQ (some (0, b)))) 0 (pktNat b 16 9) .write = .hit 64) ∧
    (let d := parseDesc desc1; let r : Grid := { probeGrid with desc := d, nx := 1, ny := 1, nz := 1 };
      pktNat launch1 0 1 = 4 ∧ pktNat launch1 2 1 = 0 ∧ xlate launching 0 (pktNat launch1 16 9) .read = .hit 256 ∧
      devNat launching 0 256 64 = desc1 ∧ descBad desc1 = false ∧ pktNat launch1 4 2 = 1 ∧ pktNat launch1 6 2 = 1 ∧ pktNat launch1 8 2 = 1 ∧
      gangCount r ≤ 262144 ∧ tooBig launching ctx1 r = false) ∧
    (let x : Queue := { que 3 with busy := [(0, .wait 64 1 true)] };
      xlate { withQ x with free := 1 } x.ctx 64 .read = .hit 64 ∧ PlainRange (withQ x) 64 8) := by
  refine ⟨fun b => ⟨rfl, rfl, rfl, rfl, rfl, rfl, rfl, rfl⟩, ⟨by decide +kernel, by decide +kernel, by decide +kernel, plain_range rfl rfl rfl (by decide +kernel)⟩, by decide +kernel,
    by decide +kernel, by decide +kernel, by decide +kernel, plain_range rfl rfl rfl (by decide +kernel)⟩

/-- A kernel that needs nothing but a lodging slot, to be placed on cluster 0. -/
def smallGrid : Grid := { probeGrid with desc := parseDesc desc1, st := .placing, pending := [0], gangs := [] }
def site1 : Placement := ⟨0, 0, 0, [⟨0, [(0, 0, 0)]⟩]⟩
def openCl : KMap Cluster := [(0, { Cluster.reset with part := some 0 })]
def placing : State := { one probeWave with
  grids := [(0, smallGrid)], gangs := [], blocks := [], waves := [], clusters := openCl, nextId := 1, cur := .none }

theorem witness_gangs_placed_and_complete :
    (placing.grid? 0 = some smallGrid ∧ smallGrid.st = .placing ∧ smallGrid.pending = [0] ∧ smallGrid.sync = false ∧
      ctxLive placing smallGrid.ctx = true ∧ earlierKernel placing 0 smallGrid = false ∧ savedFirst placing smallGrid.ctx = false ∧ urgentFirst placing smallGrid.ctx = false ∧
      clusterOpen placing (partOf placing smallGrid.ctx) 0 = true ∧
      siteOk placing smallGrid.desc site1 (gangBlocks smallGrid 0).length [] = true ∧ privsOk placing smallGrid.ctx site1 = true ∧
      SitePrivs placing smallGrid.ctx site1) ∧
    (∀ cpl ∈ [0, 64], let r : Grid := { smallGrid with st := .flushing, pending := [], cpl }; let s : State := { placing with grids := [(0, r)] };
      s.grid? s.unit = some r ∧ r.st = .flushing ∧ s.ctx? r.ctx = some ctx1 ∧ ctx1.st = .live ∧ ctx1.rec_.mode = 0 ∧
      gridFlushed s s.unit = true ∧ (cpl ≠ 0 → xlate s r.ctx r.cpl .write = .hit 64)) := by
  refine ⟨⟨rfl, rfl, rfl, rfl, by decide +kernel, by decide +kernel, by decide +kernel, by decide +kernel, by decide +kernel, by decide +kernel, by decide +kernel, ?_⟩, ?_⟩
  · intro b hb z hz
    simp only [site1, List.mem_singleton] at hb
    subst hb
    simp only [List.mem_singleton] at hz
    subst hz
    decide
  · intro cpl hc
    simp only [List.mem_cons, List.not_mem_nil, or_false] at hc
    rcases hc with rfl | rfl
    · exact ⟨rfl, rfl, rfl, rfl, rfl, by decide +kernel, by decide +kernel⟩
    · exact ⟨rfl, rfl, rfl, rfl, rfl, by decide +kernel, by decide +kernel⟩

/-- A gang of one block and one wave under a save, with its image at 2^24. -/
def gangIn (st : GangSt) : Gang := { Gang.new 0 0 0 with st, blocks := [0], image := some 0x1000000 }
def saving (g : Gang) (b : Block) (v : Wave) : State := { one probeWave with
  grids := [(0, { smallGrid with st := .placed, gangs := [0] })], gangs := [(0, g)], blocks := [(0, b)], waves := [(0, v)]
  clusters := [(0, { Cluster.reset with part := some 0, temp := some 8000 }), (1, { Cluster.reset with part := some 0, temp := some 0 })]
  nextId := 1, cur := .none }
def quietBlock : Block := { block1 with seq := { block1.seq with st := .ended } }

theorem witness_gangs_saved_restored_and_moved :
    (let g := gangIn .evicting; let s := saving g quietBlock vReady; let d := parseDesc desc1;
      s.wave? s.unit = some vReady ∧ s.gang? vReady.gang = some g ∧ g.st = .evicting ∧ vReady.alive = true ∧ emergencySave s vReady.gang g = false ∧ s.mods.railsOff = false ∧
      ctxLive s vReady.ctx = true ∧ vReady.stack = [] ∧ vReady.st = .ready ∧ Untraced s vReady.ctx 5 ∧ descOf s g.grid = some d ∧
      (∃ a, blockAt s g vReady.blk = some a ∧ DeviceRange s (a + waveSecAt d vReady.idx) (waveSecSize d))) ∧
    (let g := gangIn .evicting; let v : Wave := { vReady with st := .saved }; let s := saving g quietBlock v; let d := parseDesc desc1;
      s.block? s.unit = some quietBlock ∧ s.gang? quietBlock.gang = some g ∧ quietBlock.st = .resident ∧
      (∀ w ∈ quietBlock.waves, ∀ u, s.wave? w = some u → u.st = .saved) ∧ ctxLive s quietBlock.ctx = true ∧ quietBlock.seq.st ≠ .run ∧
      tilesSettled s s.unit quietBlock = true ∧ ∃ a, blockAt s g s.unit = some a ∧ DeviceRange s a (waveSecAt d 0)) ∧
    (let g := gangIn .evicting; let s := saving g { quietBlock with st := .saved } { vReady with st := .saved };
      gridSync s g.grid = false ∧ blocksSaved s g = true ∧ liveBlocks s g ≠ [] ∧ g.castle = none ∧ (∀ y ∈ s.ctxs, y.2.st ≠ .emergency) ∧
      g.image = some 0x1000000 ∧ DeviceRange s 0x1000000 6295552) ∧
    (let g := gangIn .saved; let v : Wave := { vReady with st := .saved }; let d := parseDesc desc1;
      let s : State := { saving g { quietBlock with st := .saved } v with mem := tables ++ [(0x1000FFF, 1)] }
      s.gang? 0 = some g ∧ descOf s g.grid = some d ∧ g.castle = none ∧ savedTurn s g = true ∧ ctxLive s g.ctx = true ∧ gridSync s g.grid = false ∧ imageWhole s g = true ∧
      clusterOpen s (partOf s g.ctx) 0 = true ∧ siteOk s d site1 (liveBlocks s g).length [] = true ∧ privOk s g.ctx v.priv = true ∧
      Untraced s v.ctx 5 ∧ (liveBlocks s g).Nodup ∧
      ((liveBlocks s g).flatMap fun b => match s.block? b with | some x => x.waves | none => []).Nodup) ∧
    (let g : Gang := { gangIn .evicting with evictTicks := 10000000 }; let s := saving g quietBlock vReady;
      s.gang? s.unit = some g ∧ gridSync s g.grid = false ∧ 10000000 ≤ g.evictTicks ∧ ctxLive s g.ctx = true ∧ blocksSaved s g = false ∧ sitesFree s g = true ∧
      ∀ w v, s.wave? w = some v → Untraced s v.ctx 5) ∧
    (let g := gangIn .resident; let s : State := { saving g quietBlock vReady with tick := 2000000 }; let pl : Placement := { site1 with cl := 1 };
      s.gang? 0 = some g ∧ (s.cluster (16 * g.die + g.cl)).temp = some 8000 ∧ (s.cluster 1).temp = some 0 ∧
      g.resident.toNat + 2000000 ≤ s.tick.toNat ∧ (s.cfg.castleTemp : Int) < (8000 : BitVec 16).toInt ∧
      (0 : BitVec 16).toInt + s.cfg.castleMargin ≤ (8000 : BitVec 16).toInt ∧ clusterOpen s (partOf s g.ctx) 1 = true ∧ imagesRoom s 0 g = true ∧
      siteOk s (parseDesc desc1) pl (liveBlocks s g).length [] = true) := by
  have hu (s : State) (h : s.ctxs = [(0, ctx1)]) : Untraced s 0 5 := by
    intro x hx
    rw [State.ctx?, h] at hx
    cases hx
    rfl
  refine ⟨⟨rfl, rfl, rfl, by decide +kernel, by decide +kernel, rfl, by decide +kernel, rfl, rfl, hu _ rfl, rfl, _, rfl, device_range rfl (by decide +kernel)⟩,
    ⟨rfl, rfl, rfl, fun w hw u hu' => ?_, by decide +kernel, by decide +kernel, by decide +kernel, _, rfl, device_range rfl (by decide +kernel)⟩,
    ⟨by decide +kernel, by decide +kernel, by decide +kernel, rfl, by decide +kernel, rfl, device_range rfl (by decide +kernel)⟩,
    ⟨rfl, rfl, rfl, by decide +kernel, by decide +kernel, by decide +kernel, by decide +kernel, by decide +kernel, by decide +kernel, by decide +kernel, hu _ rfl, by decide +kernel, by decide +kernel⟩,
    ⟨rfl, by decide +kernel, by decide +kernel, by decide +kernel, by decide +kernel, by decide +kernel, fun w v hw => ?_⟩, rfl, by decide +kernel, by decide +kernel, by decide +kernel, by decide +kernel, by decide +kernel, by decide +kernel, by decide +kernel, by decide +kernel⟩
  · have : w = 0 := by simpa [quietBlock, block1, newBlock] using hw
    subst this
    cases hu'
    rfl
  · have hw : kget [(0, vReady)] w = some v := hw
    simp only [kget] at hw
    split at hw
    · cases hw
      exact hu _ rfl
    · cases hw

/-! ### Witnesses: power, heat, ports, boot, commands -/

/-- A module with one cluster, and with one context. -/
def clus (y : Cluster) : State := { State.reset with clusters := [(0, y)], mods := { ModRegs.reset with railsOff := false }, ctxs := [(0, ctx1)] }
def cl (st : Nat) : Cluster := { Cluster.reset with st, part := none }

theorem witness_cluster_power :
    ((clus (cl 0)).unit = 0 ∧ ((clus { cl 2 with saving := true }).cluster 0).saving = true ∧
      (∀ st ∈ List.range 7, ((clus (cl st)).cluster 0).saving = false ∧ ((clus (cl st)).cluster 0).st = st) ∧
      ((clus (cl 0)).cluster (buddyOf 0)).st = 0 ∧ gangOn (clus (cl 0)) 0 = [] ∧ (clus (cl 0)).gangs = [] ∧
      (({ clus (cl 0) with clusters := [(0, cl 0), (1, cl 4)] } : State).cluster (buddyOf 0)).st ≠ 0) ∧
    (mvOk 505 = false ∧ mvOk 900 = true ∧ mvOk 500 = true ∧ clusterIdle (clus (cl 1)) 0 = true) ∧
    (let x := (clus { cl 5 with off := true, mvNow := 99 }).cluster 0; x.off = true ∧ x.mvNow < 100) ∧
    (let x := (clus { cl 6 with mv := 700, mvNow := 690, rlBusy := false }).cluster 0; x.st = 6 ∧ x.mv ≤ x.mvNow + 10 ∧ x.mvNow ≤ x.mv + 10 ∧ x.rlBusy = false) ∧
    (let x := (clus { cl 6 with rlBusy := true }).cluster 0; x.st = 6 ∧ x.rlBusy = true) ∧
    (let s := clus { cl 6 with mv := 700, mvNow := 650 }; s.mods.railsOff = false ∧ s.mods.stopped = false ∧ (s.cluster 0).mvNow ≠ (s.cluster 0).mv) ∧
    (((clus { cl 0 with temp := some 6400 }).cluster 0).temp = some 6400 ∧ ((clus { cl 0 with temp := some 6400 }).cluster 0).st = 0 ∧
      ((clus (cl 4)).cluster 0).st ≠ 0 ∧ ((clus { cl 0 with temp := none }).cluster 0).temp = none) := by decide

/-- An emergency with every context saved, and the same ten seconds after the rails went. -/
def hot (k : Nat) : State := { clus (cl 0) with ctxs := [(0, { ctx1 with st := .emergency, saved := k })] }

theorem witness_heat :
    ((clus (cl 0)).mods.stopped = false ∧ (7168 : BitVec 16).toInt = 112 * 64 ∧ (clus (cl 0)).ctx? 0 = some ctx1 ∧
      (0 : Nat) ≠ firmwareCtx ∧ ctx1.st ≠ .free ∧ ctx1.st ≠ .emergency ∧ (clus (cl 0)).mods.railsOff = false) ∧
    ((hot 2).mods.railsOff = false ∧ (∃ y ∈ (hot 2).ctxs, y.2.st = .emergency) ∧ ∀ y ∈ (hot 2).ctxs, y.2.st = .emergency → 2 ≤ y.2.saved) ∧
    (let s : State := { hot 2 with stage := 5, tick := 1000000000, mods := { ModRegs.reset with railsOff := true, coolSince := some 0 } };
      s.mods.coolSince = some 0 ∧ s.mods.railsOff = true ∧ 4 ≤ s.stage ∧ s.recovery = false ∧ 0 + 1000000000 ≤ s.tick.toNat ∧
      (∀ c, (s.cluster c).saving = false) ∧ (s.clusters.map Prod.fst).Nodup ∧ kget s.clusters 0 = some (cl 0)) := by
  refine ⟨by decide, by decide, by decide, by decide, by decide, by decide, by decide, fun c => ?_, by decide, by decide⟩
  cases c <;> rfl

/-- A port in a state, and a module with a path to module 1 over port 0. -/
def ported (y : Port) : State := { State.reset with
  ports := State.reset.ports.set 0 y, cfg := { CfgRec.default with paths := [(1, [0])] }, unit := 1, ctxs := [(0, ctx1)] }

theorem witness_ports_and_domain :
    ((clus (cl 0)).unit = (0 : Fin 16).val ∧ (∀ st, ((ported { Port.reset with st }).ports[(0 : Fin 16)]).st = st)) ∧
    (let s : State := { ported { Port.reset with st := 0 } with tick := 1000000000 };
      s.cfg.linkwait ≤ s.tick.toNat ∧ (∀ p ∈ (kget s.cfg.paths s.unit).getD [], (port s p).lostAt.toNat + s.cfg.linkwait ≤ s.tick.toNat) ∧
      hasPath s s.unit = false ∧ (kget s.cfg.paths s.unit).isSome = true ∧ s.unit ≠ s.cfg.modid ∧ s.unit ∉ s.unreach ∧ ctxsWaiting s s.unit = [] ∧
      (∀ y ∈ s.sysCommits, s.unit ∈ y.2.homes → y.2.applied = true)) ∧
    (let s : State := { ported { Port.reset with st := 0 } with
        tick := 1000000000, hall := [⟨0, 0, 0, 0, 0, 0, 0, 0, 0, .dev (2 ^ 48), .add, .u32, false, 1, 0, none, false, false, 0, 0⟩] };
      s.cfg.linkwait ≤ s.tick.toNat ∧ (∀ p ∈ (kget s.cfg.paths s.unit).getD [], (port s p).lostAt.toNat + s.cfg.linkwait ≤ s.tick.toNat) ∧
      hasPath s s.unit = false ∧ (kget s.cfg.paths s.unit).isSome = true ∧ s.unit ≠ s.cfg.modid ∧ s.unit ∉ s.unreach ∧
      0 ∈ (ctxsWaiting s s.unit).map Prod.fst ∧
      s.ctx? 0 = some ctx1 ∧ ctx1.st = .live) ∧
    (let s : State := { ported { Port.reset with st := 2 } with cfg := { CfgRec.default with modid := 1, paths := [(0, [0])] } };
      tickMaster s ≠ s.cfg.modid ∧ hasPath s (tickMaster s) = true ∧ s.mods.stopped = false) :=
  ⟨⟨rfl, fun _ => rfl⟩, by decide, by decide, by decide⟩

theorem witness_module_registers :
    (let s : State := { State.reset with mods := { ModRegs.reset with stopTick := 5 } };
      s.tick.toNat < s.mods.stopTick.toNat ∧ (State.reset).mods.stopTick.toNat ≤ (State.reset).tick.toNat) ∧
    (let s : State := { State.reset with mods := { ModRegs.reset with arm := true } };
      s.mods.arm = true ∧ s.tick = s.mods.stopTick ∧ s.mods.stopped = false) ∧
    ({ State.reset with mods := { ModRegs.reset with stopped := true } } : State).mods.stopped = true := by decide

theorem witness_stopped_module :
    let stop (t : Turn) : State := { State.reset with mods := { ModRegs.reset with stopped := true }, agenda := [t] };
    (∀ t, (stop t).mods.stopped = true ∧ (stop t).agenda = [t]) ∧
    (Instr.benchClock ∉ [.stopctlResume, .cntsnap, .cntclr, .linkstRead, .moduleReset, .portIdleTimeout] ∧ (∀ v, Instr.benchClock ≠ .stopctlArm v) ∧
      (∀ r v, Instr.benchClock ≠ .registerWrite r v) ∧ (∀ o l, Instr.benchClock ≠ .hostPostedWrite 0 o l) ∧ ∀ o n, Instr.benchClock ≠ .hostRead 0 o n) := by
  refine ⟨fun t => ⟨rfl, rfl⟩, by decide, ?_, ?_, ?_, ?_⟩ <;> simp

theorem witness_boot :
    (let at_ (k : Nat) : State := { State.reset with stage := k };
      ∀ k, (at_ k).recovery = false ∧ (at_ k).stage = k ∧ kget (at_ k).flash 2 = none ∧ (at_ k).cfg.porten = 0 ∧ kget (at_ k).sensors 5 = none ∧
        (at_ k).flash = []) ∧
    (let s : State := { State.reset with stage := 3, sensors := (List.range 256).map fun k => (k, 64) };
      s.recovery = false ∧ s.stage = 3 ∧ s.cfg.porten = 0 ∧ ∀ k, k < 256 → (kget s.sensors k).isSome = true) := by
  refine ⟨fun k => ⟨rfl, rfl, rfl, rfl, rfl, rfl⟩, rfl, rfl, rfl, by decide +kernel⟩

/-! A module whose command slot 0 holds `x`, with context 0, if any, as `y`, one queue and one cluster. -/

def cslot (op : Nat) (arg : KMap Byte) (phase : Nat := 0) : CmdSlot := ⟨op, if phase = 0 then 1 else 2, 0, 0, phase, arg⟩
def mdl (x : CmdSlot) (y : KMap Ctx := [(0, ctx1)]) (q : KMap Queue := []) (c : Cluster := cl 0) : State := { clus c with
  stage := 5, slots := [(0, x)], ctxs := y, queues := q }
theorem posted {x : CmdSlot} (h : argsBad x = false) (h2 : x.st = 1 ∨ x.st = 2) (y q c) : Posted (mdl x y q c) 0 x x.opcode :=
  ⟨rfl, by decide, rfl, rfl, h2, ⟨rfl, rfl⟩, h⟩

def recPend : FaultRec := { rec1 with seq := 0, pend := 0, copied := true }
def vParked : Wave := { probeWave with st := .parked, slot0 := { probeWave.slot0 with hold := .parked } }

theorem witness_module_commands :
    ((∀ a ∈ [cslot 0x01 [], cslot 0x02 [(16, 2)], cslot 0x03 [], cslot 0x18 [(24, 1)], cslot 0x19 [], cslot 0x1A [], cslot 0x1B [],
        cslot 0x30 [(18, 12)], cslot 0x30 [(18, 12), (19, 1)], cslot 0x31 [], cslot 0x31 [(18, 1)], cslot 0x22 [], cslot 0x23 []],
        argsBad a = false ∧ Posted (mdl a) 0 a a.opcode) ∧
      (let x := cslot 0x7F []; kget (mdl x).slots (mdl x).unit = some x ∧ x.st = 1 ∧ x.opcode ∉ knownOps) ∧
      (let x := cslot 0x10 [(48, 1)]; kget (mdl x).slots 0 = some x ∧ x.opcode = 0x10 ∧ x.st = 1 ∧ argsBad x = true ∧ (mdl x).stage = 5 ∧
        ({ mdl x with stage := 4 } : State).stage < 5)) ∧
    (argNat (cslot 0x02 [(16, 2)]) 16 1 ≤ 2 ∧ argNat (cslot 0x03 []) 48 8 % 64 = 0 ∧ DeviceRange (mdl (cslot 0x03 [])) 0 4096) ∧
    (let x := cslot 0x18 [(24, 1)]; let s := mdl x; kget s.parts (argNat x 16 1) = none ∧ argNat x 24 8 = 1 ∧ (s.cluster 0).part = none ∧ (s.cluster 0).st = 0) ∧
    (let s : State := { mdl (cslot 0x19 []) with parts := [(0, ())] };
      Posted s 0 (cslot 0x19 []) 0x19 ∧ (kget s.parts 0).isSome = true ∧ (s.cluster 0).part = none ∧ (s.cluster 0).st = 0) ∧
    (let s : State := { mdl (cslot 0x1A []) [] [] { cl 0 with part := some 0 } with parts := [(0, ())] };
      Posted s 0 (cslot 0x1A []) 0x1A ∧ (kget s.parts 0).isSome = true ∧ (∀ y ∈ s.clusters, y.2.leaving = false) ∧ (s.cluster 0).part = some 0 ∧
      partNamed s 0 = false ∧ 0 ∈ s.clusters.map Prod.fst ∧ gangOn s 0 = [] ∧ s.gangs = []) ∧
    (let s : State := { mdl (cslot 0x1B []) [] with parts := [(0, ())] };
      Posted s 0 (cslot 0x1B []) 0x1B ∧ (kget s.parts 0).isSome = true ∧ partNamed s 0 = false) ∧
    (∀ x, (mdl x).ctx? 0 = some ctx1 ∧ (∀ g ∈ (mdl x).grids, g.2.ctx = 0 → g.2.st = .done) ∧ DeviceRange (mdl x) 0 64) ∧
    (∀ (deny : Bool) (st : CtxSt), let x := cslot (if deny then 0x23 else 0x22) [];
      let s : State := { mdl x [(0, { ctx1 with st })] with fbuf := [{ recPend with holders := [.slot 0 0] }], waves := [(0, vParked)] };
      Posted s 0 x (if deny then 0x23 else 0x22) ∧ recPend.seq = argNat x 16 4 ∧ recPend.answered = false ∧ recPend.pend = 0 ∧
      s.ctx? recPend.ctx = some { ctx1 with st } ∧ s.wave? 0 = some vParked ∧ (vParked.slot 0).hold = .parked ∧ vParked.st = .parked) := by
  have hp {x : CmdSlot} (h : argsBad x = false) (h2 : x.st = 1) {s : State} (h3 : s.unit = 0) (h4 : s.slots = [(0, x)]) (h5 : s.stage = 5)
      (h6 : s.recovery = false) : Posted s 0 x x.opcode :=
    ⟨h3, by decide, by rw [h4]; rfl, rfl, .inl h2, ⟨h5, h6⟩, h⟩
  refine ⟨⟨fun a ha => ?_, by decide, by decide⟩, ⟨by decide, by decide, device_range rfl (by decide)⟩, by decide,
    ⟨hp rfl rfl rfl rfl rfl rfl, by decide⟩, ⟨hp rfl rfl rfl rfl rfl rfl, by decide⟩, ⟨hp rfl rfl rfl rfl rfl rfl, by decide⟩,
    fun x => ⟨rfl, by simp [mdl, clus, State.reset], device_range rfl (by decide)⟩, fun deny st => ?_⟩
  · have h : argsBad a = false ∧ a.st = 1 := by revert a; decide
    exact ⟨h.1, posted h.1 (.inl h.2) _ _ _⟩
  · cases deny <;> exact ⟨hp rfl rfl rfl rfl rfl rfl, rfl, rfl, rfl, rfl, rfl, rfl, rfl⟩

def ctxDesc1 : KMap Byte := [(20, 80), (41, 16)]

theorem witness_context_commands :
    (∀ a ∈ [cslot 0x10 [(16, 1), (20, 80), (41, 16)], cslot 0x10 ctxDesc1, cslot 0x11 [], cslot 0x12 [], cslot 0x13 [], cslot 0x14 [], cslot 0x15 [], cslot 0x16 [],
        cslot 0x17 [], cslot 0x20 [], cslot 0x21 [], cslot 0x21 [] 1], ∀ y, Posted (mdl a y) 0 a a.opcode) ∧
    (let x := cslot 0x10 [(16, 1), (20, 80), (41, 16)]; ctxDescBad (mdl x) (argNat x 16 32) = false ∧ argNat x 16 32 % 2 ^ 12 = 1 ∧ (mdl x).ctx? 1 = none) ∧
    (let x := cslot 0x10 ctxDesc1; ctxDescBad (mdl x) (argNat x 16 32) = false ∧ argNat x 16 32 % 2 ^ 12 = 0 ∧ (mdl x).ctx? 0 = some ctx1) ∧
    (∀ x st, (mdl x [(0, { ctx1 with st })]).ctx? 0 = some { ctx1 with st } ∧ (mdl x).queues = [] ∧ (mdl x).grids = [] ∧ (mdl x).fbuf = [] ∧
      ctx1.stops < ctx1.stopsPrev + 4096 ∧ transInUse (mdl x) 0 = false ∧ isDevice (mdl x) 0 = true) ∧
    (∀ x cause, let y : Ctx := { ctx1 with st := .halted, cause, faults := [] }; (mdl x [(0, y)]).ctx? 0 = some y ∧ y.st = .halted ∧ y.cause = cause ∧ y.faults = []) ∧
    (let x := cslot 0x21 [] 1; let s : State := { mdl x with hall := [⟨0, 0, 0, 0, 0, 0, 0, 0, 0, .dev 0, .add, .u32, false, 1, 0, none, false, false, 0, 0⟩] };
      transInUse s 0 = true ∧ x.phase = 1 ∧ Posted s 0 x 0x21) := by
  refine ⟨fun a ha y => ?_, by decide, by decide, fun x st => ⟨rfl, rfl, rfl, rfl, by decide, rfl, device_here rfl (by decide)⟩,
    fun x cause => ⟨rfl, rfl, rfl, rfl⟩, by decide, rfl, ⟨rfl, by decide, rfl, rfl, .inr rfl, ⟨rfl, rfl⟩, rfl⟩⟩
  have h : argsBad a = false ∧ (a.st = 1 ∨ a.st = 2) := by revert a; decide
  exact posted h.1 h.2 _ _ _

theorem witness_queue_commands :
    (∀ a ∈ [cslot 0x40 [(22, 4)], cslot 0x40 [(18, 16)], cslot 0x41 [(18, 16)], cslot 0x42 [(18, 16)], cslot 0x43 [(18, 16)], cslot 0x44 [(18, 16)],
        cslot 0x45 [(18, 16)], cslot 0x41 [], cslot 0x41 [] 1, cslot 0x42 [], cslot 0x42 [] 1, cslot 0x43 [], cslot 0x44 [], cslot 0x45 [],
        cslot 0x46 [(16, 64)], cslot 0x50 [], cslot 0x50 [] 1, cslot 0x50 [] 2, cslot 0x50 [] 3, cslot 0x50 [] 4, cslot 0x51 [], cslot 0x51 [] 1],
      (∀ y q c, Posted (mdl a y q c) 0 a a.opcode) ∧ (argNat a 16 4 = 0 ∨ 1048576 ≤ argNat a 16 4 ∨ a.opcode ∈ [0x40, 0x46])) ∧
    (argNat (cslot 0x40 [(22, 4)]) 16 4 = 0 ∧ argNat (cslot 0x40 [(18, 16)]) 16 4 = 1048576 ∧ argNat (cslot 0x46 [(16, 64)]) 16 4 = 64) ∧
    (let x := cslot 0x40 [(22, 4)]; kget (mdl x).queues 0 = none ∧ argNat x 20 2 < 4096 ∧ ctxLive (mdl x) (argNat x 20 2) = true ∧ 4 ≤ argNat x 22 1) ∧
    (∀ x st, kget (mdl x [(0, ctx1)] [(0, que st)]).queues 0 = some (que st) ∧ (que st).st = st ∧ (que st).ridxAddr = 0 ∧
      DeviceRange (mdl x) 0 64) ∧
    (∀ x, ((mdl x).cluster 0).part = none ∧ ((mdl x).cluster 0).pend = [] ∧ ((mdl x).cluster 0).buddy = false ∧ ((mdl x).cluster 0).order = false ∧
      (∀ c, (mdl x [] [] c).cluster 0 = c) ∧ (cl 5).st = 5 ∧ (cl 5).saving = false ∧ (cl 0).st % 16 = 0) ∧
    (let c : Cluster := { cl 3 with rsDone := true }; c.rsDone = true ∧ c.saving = false ∧ c.st = 3 ∧ c.gate = false ∧ c.off = false ∧ mvOk c.mv = true) := by
  refine ⟨fun a ha => ⟨fun y q c => ?_, ?_⟩, by decide, by decide, fun x st => ⟨rfl, rfl, rfl, device_range rfl (by decide)⟩,
    fun x => ⟨rfl, rfl, rfl, rfl, fun c => rfl, rfl, rfl, rfl⟩, by decide⟩
  · have h : argsBad a = false ∧ (a.st = 1 ∨ a.st = 2) := by revert a; decide
    exact posted h.1 h.2 _ _ _
  · revert a; decide

/-! ### Witnesses: contexts, gates, barriers, loads, stores, commits -/

def str1 : LogStream := ⟨0, 0, 0, [5], 0, 0, 0, 1, 2, 3, 0, 0, [(1, 5)], none, 1000000, none⟩
def logging (mode len : Nat) : State := { bench [(0, probeWave)] with
  ctxs := [(0, { ctx1 with rec_ := { RecMode.off with mode, len, streams := [str1] } })], tick := 1000000 }

theorem witness_context_faults_and_gates :
    (∀ st, let s : State := { bench [(0, probeWave)] with ctxs := [(0, { ctx1 with st })] };
      s.unit = 0 ∧ s.ctx? 0 = some { ctx1 with st } ∧ ctx1.stops < ctx1.stopsPrev + 4096 ∧
      DeviceRange s (ctx1.poolBase + 64 * (ctx1.stops % 4096)) 64 ∧ .wave 0 ∉ ctx1.stopped ∧ s.wave? 0 = some probeWave ∧ probeWave.alive = true) ∧
    (let s := logging 2 1;
      ∃ x, s.ctx? 0 = some x ∧ x.rec_.streams[0]? = some str1 ∧ x.st = .live ∧ x.rec_.mode = 2 ∧ x.rec_.diverged = false ∧ str1.admitted = none ∧
        str1.left ≠ 0 ∧ 1 < str1.headRun ∧ str1.waiting.find? (fun z => z.1 = str1.headIss) = some (str1.headIss, 5) ∧
        x.rec_.gateWait ≤ str1.missing ∧ str1.waiting.head? = some (1, 5)) ∧
    (∀ len ∈ [0, 1], let s := logging 1 len;
      ∃ x, s.ctx? 0 = some x ∧ x.rec_.streams[0]? = some str1 ∧ findStream x.rec_ str1.key str1.grid = some str1 ∧ str1.recs ≠ [] ∧
        str1.firstTick.toNat + 1000000 ≤ s.tick.toNat ∧ x.rec_.full = false) := by
  refine ⟨fun st => ⟨rfl, rfl, by decide, device_range rfl (by decide), by decide, rfl, by decide⟩,
    ⟨_, rfl, rfl, rfl, rfl, rfl, rfl, by decide, by decide, by decide, by decide, rfl⟩, fun len h => ?_⟩
  simp only [List.mem_cons, List.not_mem_nil, or_false] at h
  rcases h with rfl | rfl <;> exact ⟨_, rfl, rfl, rfl, by decide, by decide, rfl⟩

/-- A wave of a block of two waves. -/
def block2 : Block := newBlock probeGrid 0 0 0 0 0 (0, 0, 0, 0) [0, 1]
def two : State := { one probeWave with blocks := [(0, block2)] }
def xb (m : BitVec 9) : Body := bd none (some (.lit m)) none none

theorem witness_block_barriers :
    Issues two 0 0 probeWave ∧ exIn probeWave 0 (off (xb 0)) = 0 ∧ Unrecorded two probeWave.ctx ∧ two.block? probeWave.blk = some block2 ∧
    (∀ m, exIn probeWave 0 (xb m) ≠ 0 ∧ SourcesFull .bara (xb m) probeWave 0) ∧
    ArrivalBad block2 0 probeWave.idx ((src two probeWave (xb 0).a 0).extractLsb' 0 17) ∧
    (¬ ArrivalBad block2 0 probeWave.idx ((src two probeWave (xb 1).a 0).extractLsb' 0 17) ∧
      Completes block2.bars[(0 : Fin 16)] probeWave.idx ((src two probeWave (xb 1).a 0).extractLsb' 0 17)) ∧
    (¬ ArrivalBad block2 0 probeWave.idx ((src two probeWave (xb 3).a 0).extractLsb' 0 17) ∧
      ¬ Completes block2.bars[(0 : Fin 16)] probeWave.idx ((src two probeWave (xb 3).a 0).extractLsb' 0 17)) := by
  refine ⟨⟨by decide, rfl, rfl, by decide, rfl, fun _ _ => .inl (by simp only [watchUnit, two, one, oneOf, State.reset, kgetD, kget, Option.getD_none]; decide), rfl⟩,
    by decide, fun x hx => ?_, rfl, fun m => ⟨show exIn probeWave 0 (xb 0) ≠ 0 by decide, sources rfl rfl _ 0⟩, 
    .inl (by decide), ⟨?_, ?_⟩, ?_, ?_⟩
  · cases hx
    rfl
  all_goals
    first | unfold ArrivalBad | unfold Completes
    decide

/-- A memory word: destination N0, data #7, immediate, order and element words. -/
def xm (imm : BitVec 32) (sub : BitVec 7 := 0) (order : BitVec 3 := 0) (md : BitVec 4 := 0) (ty : Fmt := .u32) : Body :=
  bd (some (.n 0)) none (some (.lit 7)) none ty md (.m 0 imm false order sub)
/-- A wave whose A0 lies outside the context's mapping. -/
def vfar : Wave := { probeWave with bases := Vector.replicate 8 (2 ^ 50) }
/-- A wave whose buffer is full. -/
def vfull : Wave := { probeWave with bufD := (List.range 128).map fun k => (4096 + 64 * k, 1) }

theorem may_access {s : State} {v : Wave} (h : s.prods = []) (h2 : s.hall = []) (h1 : v.slot1.live = false) : MayAccess s 0 0 v :=
  ⟨fun h => by simp [Wave.slot, h1] at h, by simp [h2], by simp [h]⟩

theorem memory_free {v : Wave} (hc : v.ctx = 0) (h1 : v.slot1.live = false) : MemoryFree (one v) 0 0 v :=
  ⟨may_access rfl rfl h1, rfl, by rw [hc]; decide⟩

theorem loads_read {s : State} (h : s.prods = []) : LoadsRead s 0 := by simp [LoadsRead, h]

theorem lanes_all {m : Mask} {p : Nat → Prop} (h : ∀ n, p n) : LanesAre m m p := fun n _ => ⟨fun a => ⟨a, h n⟩, fun a => a.1⟩

theorem witness_loads :
    Issues (one probeWave) 0 0 probeWave ∧ MemoryFree (one probeWave) 0 0 probeWave ∧ (∀ k ∈ [0, 1], probeWave.path k < 4095) ∧
    (∀ i u, SourcesFull .ld (xm i u) probeWave 0 ∧ SourcesFull .lds (xm i u) probeWave 0 ∧ SourcesFull .ldTrk (xm i u) probeWave 0 ∧
      SourcesFull .ldt (xm i u) probeWave 0 ∧ exIn probeWave 0 (xm i u) ≠ 0 ∧ realIn probeWave 0 (xm i u) ≠ 0 ∧ exIn probeWave 0 (off (xm i u)) = 0) ∧
    LanesAre (realIn probeWave 0 (xm 2)) (realIn probeWave 0 (xm 2)) (fun n => laneEa (one probeWave) probeWave (xm 2) (o64m (xm 2).md) n % 4 ≠ 0) ∧
    LanesAre (realIn probeWave 0 (xm 0x1000000)) (realIn probeWave 0 (xm 0x1000000))
      (fun n => scratchSize (one probeWave) probeWave.grid < laneEa (one probeWave) probeWave (xm 0x1000000) false n + 4) ∧
    (∀ scratch, AddressesGood (one probeWave) probeWave (realIn probeWave 0 (xm 0x100000)) (laneEa (one probeWave) probeWave (xm 0x100000) false) 4 4 scratch) ∧
    ((xm 0x100000).d = some (.n 0) ∧ ∃ b, opdEnt (.n 0) = some b ∧ b < 552) ∧
    (∀ u ∈ [0, 1], ∃ l, l < 64 ∧ laneEa (one probeWave) probeWave (xm 2 u) false 0 % 4 ≠ 0 ∧
      (laneEa (one probeWave) probeWave (bd (some (.n 0)) none (some (.lit 64)) none .u32 0 (.m 0 64 false 0 u)) false 0 % 4 = 0 ∧
        (src (one probeWave) probeWave (bd (some (.n 0)) none (some (.lit 64)) none .u32 0 (.m 0 64 false 0 u)).b l).toNat % 4 = 0)) :=
  ⟨pw_issues, memory_free rfl rfl, by decide, fun i u => ⟨sources rfl rfl _ 0, sources rfl rfl _ 0, sources rfl rfl _ 0, sources rfl rfl _ 0,
    show exIn probeWave 0 x1 ≠ 0 by decide, show realIn probeWave 0 x1 ≠ 0 by decide, show exIn probeWave 0 (off x1) = 0 by decide⟩,
    lanes_all fun _ => show laneEa (one probeWave) probeWave (xm 2) false 0 % 4 ≠ 0 by decide,
    lanes_all fun _ => show scratchSize (one probeWave) 0 < laneEa (one probeWave) probeWave (xm 0x1000000) false 0 + 4 by decide,
    fun _ n _ _ => ⟨show laneEa (one probeWave) probeWave (xm 0x100000) false 0 % 4 = 0 by decide,
      fun _ => show laneEa (one probeWave) probeWave (xm 0x100000) false 0 + 4 ≤ scratchSize (one probeWave) 0 by decide⟩, ⟨rfl, _, rfl, by decide⟩, by
      intro u hu
      simp only [List.mem_cons, List.not_mem_nil, or_false] at hu
      rcases hu with rfl | rfl <;> exact ⟨0, by decide, by decide, by decide, by decide⟩⟩

theorem ea_any (s : State) (v : Wave) (h : v.bases = probeWave.bases) (x : Body) {o : BitVec 3} {u : BitVec 7} (hx : x.aux = .m 0 0x100000 false o u)
    (wide : Bool) (n : Nat) : laneEa s v x wide n = 0x100000 := by
  have : laneEa (one probeWave) probeWave (xm 0x100000) false 0 = 0x100000 := by decide
  rw [← this]
  simp only [laneEa, Wave.base, h, hx]
  rfl

theorem witness_stores :
    (∀ v ∈ [probeWave, vfar, vfull], Issues (one v) 0 0 v ∧ MemoryFree (one v) 0 0 v ∧ SourcesFull .st (xm 0x100000) v 0 ∧ SourcesFull .sts (xm 0x100000) v 0) ∧
    (∀ v ∈ [probeWave, vfull], ∀ scratch, AddressesGood (one v) v (realIn v 0 (xm 0x100000)) (laneEa (one v) v (xm 0x100000) false) 4 4 scratch) ∧
    (∀ v ∈ [probeWave, vfull], ∀ n, inFrame (one v) v (laneEa (one v) v (xm 0x100000) false n) = none ∧ (∀ i, i < 4 → inFrame (one v) v ((laneEa (one v) v (xm 0x100000) false n + i) % 2 ^ 72) = none) ∧
      (v.slot 0).denied.contains (pageOf (one v) v.ctx (laneEa (one v) v (xm 0x100000) false n)) = false ∧
      xlate (one v) v.ctx (laneEa (one v) v (xm 0x100000) false n) .write = .hit 0x100000) ∧
    bufLines { probeWave with bufD := putAll probeWave.bufD (laneStores (one probeWave) probeWave (xm 0x100000) (realIn probeWave 0 (xm 0x100000)) (laneEa (one probeWave) probeWave (xm 0x100000) false)) } ≤ 128 ∧
    bufLines { probeWave with bufS := putAll probeWave.bufS (laneStores (one probeWave) probeWave (xm 0x100000) (realIn probeWave 0 (xm 0x100000)) (laneEa (one probeWave) probeWave (xm 0x100000) false)) } ≤ 128 ∧
    (let bytes := laneStores (one vfull) vfull (xm 0x100000) (realIn vfull 0 (xm 0x100000)) (laneEa (one vfull) vfull (xm 0x100000) false);
      128 < bufLines { vfull with bufD := putAll vfull.bufD bytes } ∧ bytes ≠ [] ∧ escalates (one vfull) vfull.grid = false) ∧
    (AddressesGood (one vfar) vfar (realIn vfar 0 (xm 0x100000)) (laneEa (one vfar) vfar (xm 0x100000) false) 4 4 false ∧ realIn vfar 0 (xm 0x100000) ≠ 0 ∧
      (vfar.slot 0).denied = [] ∧ (∀ n, inFrame (one vfar) vfar (laneEa (one vfar) vfar (xm 0x100000) false n) = none) ∧
      LanesAre (realIn vfar 0 (xm 0x100000)) (realIn vfar 0 (xm 0x100000)) (fun n => xlate (one vfar) vfar.ctx (laneEa (one vfar) vfar (xm 0x100000) false n) .write = .xlate)) := by
  refine ⟨fun v hv => ?_, fun v hv scratch n _ _ => ?_, fun v hv n => ?_, by decide +kernel, by decide +kernel, by decide +kernel,
    fun n _ _ => ⟨show laneEa (one vfar) vfar (xm 0x100000) false 0 % 4 = 0 by decide, fun h => nomatch h⟩, by decide, rfl,
    fun n => show inFrame (one vfar) vfar (laneEa (one vfar) vfar (xm 0x100000) false 0) = none by decide, lanes_all fun n => ?_⟩
  · simp only [List.mem_cons, List.not_mem_nil, or_false] at hv
    rcases hv with rfl | rfl | rfl <;>
      exact ⟨one_issues _ (show probeWave.st ≠ .ended by decide) rfl rfl, memory_free rfl rfl, sources rfl rfl _ 0, sources rfl rfl _ 0⟩
  · simp only [List.mem_cons, List.not_mem_nil, or_false] at hv
    rcases hv with rfl | rfl <;> exact ⟨show laneEa (one probeWave) probeWave (xm 0x100000) false 0 % 4 = 0 by decide,
      fun _ => show laneEa (one probeWave) probeWave (xm 0x100000) false 0 + 4 ≤ scratchSize (one probeWave) 0 by decide⟩
  · have h : v.bases = probeWave.bases ∧ v.ctx = 0 ∧ v.slot0 = probeWave.slot0 ∧ v.priv = 0 := by
      simp only [List.mem_cons, List.not_mem_nil, or_false] at hv
      rcases hv with rfl | rfl <;> exact ⟨rfl, rfl, rfl, rfl⟩
    rw [ea_any _ _ h.1 _ rfl, h.2.1]
    have hp : privAddr (one v) v = 0 := by rw [privAddr, h.2.1, h.2.2.2]; rfl
    refine ⟨by simp only [inFrame, hp]; decide, fun i hi => ?_, ?_, hits v _ _ (by decide +kernel)⟩
    · simp only [inFrame, hp]
      revert i
      decide
    · rw [Wave.slot, if_pos rfl, h.2.2.1]
      rfl
  · show xlate (one vfar) 0 (laneEa (one vfar) vfar (xm 0x100000) false 0) .write = .xlate
    decide +kernel

theorem cut_here {s : State} {a : Nat} (h : isDevice s a = true) : cutOff s a = false := by
  unfold isDevice at h
  unfold cutOff
  split at h
  · rename_i h2
    rw [h2]
  · simp at h

def item1 : LoadItem := ⟨0, 8, false, 0x100000, List.replicate 4 none, .zext 4, none, false, false, false⟩
def bringing (q : Prod) (v : Wave) : State := { one v with prods := [(0, q)], cur := .none }
def vend : Wave := { probeWave with st := .ended }

theorem witness_producers :
    (∀ trk, let q : Prod := ⟨0, 0, 0, 0, 1, 0, .load [item1] trk, .none, false⟩; let s := bringing q probeWave;
      kget s.prods s.unit = some q ∧ s.wave? q.wave = some probeWave ∧ probeWave.alive = true ∧ Unwatched s probeWave ∧ probeWave.inHandler = false ∧
      probeWave.parkTime = none ∧ probeWave.haltDue = none ∧ probeWave.st ≠ .parked ∧ s.fbuf = [] ∧ s.fmiss = [] ∧ s.unreach = [] ∧
      (∀ g, s.gang? probeWave.gang = some g → g.st ≠ .saved ∧ g.st ≠ .restoring) ∧ (∀ y ∈ s.prods, ¬ y.1 < s.unit) ∧
      ItemReads s probeWave item1 ∧ probeWave.helper.getLsbD item1.lane = false) ∧
    (∀ lanes : Mask, let q : Prod := ⟨0, 0, 2, 0, lanes, 0, .value [(0, 9)] false 8, .none, false⟩; let s := bringing q probeWave;
      kget s.prods s.unit = some q ∧ s.wave? q.wave = some probeWave ∧ Unwatched s probeWave ∧
      ∀ l, l < 64 → ((1 : Mask).getLsbD l = true ↔ (kget [(0, (9 : DWord))] l).isSome = true)) ∧
    ((1 : Mask) &&& ~~~(1 : Mask) = 0 ∧ (3 : Mask) &&& ~~~(1 : Mask) ≠ 0) ∧
    (let q : Prod := ⟨0, 0, 0, 0, 1, 0, .load [item1] false, .none, false⟩; let s := bringing q vend;
      kget s.prods s.unit = some q ∧ s.fbuf = [] ∧ s.fmiss = [] ∧ ∀ v, s.wave? q.wave = some v → v.alive = false) := by
  have hu (q : Prod) : Unwatched (bringing q probeWave) probeWave := pw_issues.quiet
  refine ⟨fun trk => ⟨rfl, rfl, rfl, hu _, rfl, rfl, rfl, by decide, rfl, rfl, rfl, fun g hg => ?_, fun y _ h => absurd h (Nat.not_lt_zero _),
    ⟨by decide, rfl, rfl, rfl, rfl, rfl, fun i hi _ => ⟨?_, 0x100000 + i, (xlate_same (one probeWave) _ _ _ _ _ _ _ _ 0 _ .read).trans ?_, rfl, ?_⟩⟩, by decide⟩, fun lanes => ⟨rfl, rfl, hu _, by decide⟩, by decide, rfl, rfl, rfl, fun v hv => ?_⟩
  · cases hg
    exact ⟨show GangSt.resident ≠ .saved by decide, show GangSt.resident ≠ .restoring by decide⟩
  · show inFrame (one probeWave) probeWave (0x100000 + i) = none
    have hi : i < 4 := hi
    revert i
    decide
  · show xlate (one probeWave) 0 ((0x100000 + i) % 2 ^ 72) .read = .hit (0x100000 + i)
    have hi : i < 4 := hi
    revert i
    decide +kernel
  · exact cut_here (device_here (s := bringing _ probeWave) rfl (by have hi : i < 4 := hi; omega))
  · cases hv
    rfl

/-- A wave with one byte in its buffer, and with a tracked set. -/
def vc (t : Track) : Wave := { probeWave with bufD := [(64, 7)], trk := t }
/-- Its block, whose sequencer watches no snapshot. -/
def blockC : Block := { block1 with window := false }
def oneC (v : Wave) : State := { one v with blocks := [(0, blockC)] }
def gang1 : Gang := { Gang.new 0 0 0 with st := .resident, blocks := [0] }
/-- The same with a COMMIT.SYS of the wave that has had its last acknowledgement. -/
def sysDone (v : Wave) : State := { oneC v with sysCommits := [(5, ⟨0, 0, 0, 0, [], [], [], [], true, true, false, 0, 0⟩)] }

theorem commit_ready (t : Track) (scope : Nat) : CommitReady (oneC (vc t)) 0 (vc t) blockC gang1 scope id where
  block := rfl
  gang := rfl
  same := ⟨rfl, rfl⟩
  record := unrecorded rfl
  loads := loads_read rfl
  sys := rfl
  snapshot := by decide
  blockRoom := show lineCount [64] ≤ 2048 by decide
  gangRoom := fun _ => show lineCount [64] ≤ 65536 by decide
  requests := fun _ _ h => nomatch h
  hall := fun _ _ h => nomatch h
  bytes := fun _ y hy => by
    have hy : y ∈ [(64, (7 : Byte))] := hy
    simp only [List.mem_singleton] at hy
    subst hy
    exact ⟨rfl, (xlate_same (one probeWave) _ _ _ _ _ _ _ _ 0 64 .write).trans (by decide +kernel), device_here rfl (by decide), rfl⟩

theorem witness_commits_checks_and_aborts :
    (∀ t, Issues (oneC (vc t)) 0 0 (vc t) ∧ exIn (vc t) 0 x1 ≠ 0 ∧ exIn (vc t) 0 (off x1) = 0 ∧ Unrecorded (oneC (vc t)) (vc t).ctx ∧
      LoadsRead (oneC (vc t)) 0 ∧ (oneC (vc t)).sysCommits = [] ∧ ∀ scope, CommitReady (oneC (vc t)) 0 (vc t) blockC gang1 scope id) ∧
    (∀ t, Issues (sysDone (vc t)) 0 0 (vc t) ∧ SysFinished (sysDone (vc t)) 0 0 (vc t) 5 ∧ LoadsRead (sysDone (vc t)) 0) ∧
    (∀ scope ∈ [1, 2, 3], reasonOf (Wave.noTrack false) scope = 0 ∧ reasonOf { Wave.noTrack false with confBlk := true } scope ≠ 0) ∧
    (scopeOf 4 = 2 ∧ scopeOf 6 = 3 ∧ scopeOf 8 = 4) ∧
    (let t : Track := { Wave.noTrack false with bytes := [(64, 64)] }; ∀ y ∈ (vc t).trk.bytes, isDevice (oneC (vc t)) y.2 = true) ∧
    (let t : Track := { Wave.noTrack false with bytes := [(64, 2 ^ 48)], overflow := true };
      (∃ y ∈ (vc t).trk.bytes, ∃ m, homeOf (oneC (vc t)) y.2 = .module m) ∧ reasonOf t 3 ≠ 0) ∧
    (∀ o ∈ [0, 2, 3, 4], ∀ md ∈ [2, 4, 6, 8], let x : Body := { x1 with md, aux := .m 0 0 false o 0 };
      x.aux.mOrder = o ∧ exIn probeWave 0 x ≠ 0) := by
  refine ⟨fun t => ⟨⟨by decide, rfl, rfl, show probeWave.st ≠ .ended by decide, rfl, pw_issues.quiet, rfl⟩, show exIn probeWave 0 x1 ≠ 0 by decide,
    show exIn probeWave 0 (off x1) = 0 by decide, unrecorded rfl, loads_read rfl, rfl, commit_ready t⟩,
    fun t => ⟨⟨by decide, rfl, rfl, show probeWave.st ≠ .ended by decide, rfl, pw_issues.quiet, rfl⟩, ⟨_, rfl⟩, loads_read rfl⟩, by decide, by decide, by decide, ?_, by decide⟩
  exact ⟨⟨_, List.mem_cons_self, 1, by decide⟩, by decide⟩

/-! ### Witnesses: atomics, porters, phases, scalars, copies -/

/-- A memory word at 0x100000 by its AUX and MOD fields. -/
def xa (o : BitVec 3) (md : BitVec 4) (u : BitVec 7) : Body := xm 0x100000 u o md
def withSys (t : Track) (cs : KMap SysCommit) : State := { oneC (vc t) with sysCommits := cs }

theorem line_count_one {l : List Nat} {c : Nat} (h : ∀ a ∈ l, a / 64 = c) : lineCount l ≤ 1 := by
  unfold lineCount
  have h2 : ∀ a ∈ l.map (· / 64), a = c := by
    intro a ha
    obtain ⟨b, hb, rfl⟩ := List.mem_map.1 ha
    exact h b hb
  generalize l.map (· / 64) = k at h2
  cases k with
  | nil => simp
  | cons a t =>
    rw [List.eraseDups_cons]
    have : t.filter (fun b => !b == a) = [] := by
      rw [List.filter_eq_nil_iff]
      intro b hb
      simp [h2 b (List.mem_cons_of_mem _ hb), h2 a List.mem_cons_self]
    simp [this]

theorem hits_sys (t : Track) (cs : KMap SysCommit) (va : Nat) (k : Acc) (h : xlate (one probeWave) 0 va k = .hit va) :
    xlate (withSys t cs) 0 va k = .hit va := (xlate_same (one probeWave) _ _ _ _ _ _ _ _ 0 va k).trans h

theorem atom_ready (t : Track) (cs : KMap SysCommit) (o : BitVec 3) (md : BitVec 4) (u : BitVec 7) (size : Nat) (hs : size = 4 ∨ size = 8)
    (scratch reds : Bool) (op : AtomOp) : AtomReady (withSys t cs) 0 0 (vc t) (xa o md u) size scratch reds op id where
  free := ⟨may_access rfl rfl rfl, rfl, show (0 : Nat) ≠ firmwareCtx by decide⟩
  path := show probeWave.path 3 < 4095 by decide
  some_ := show realIn probeWave 0 x1 ≠ 0 by decide
  good := fun n _ _ => by
    rw [ea_any _ _ (show (vc t).bases = _ from rfl) _ rfl]
    have h : scratchSize (withSys t cs) (vc t).grid = 4194304 := rfl
    rcases hs with rfl | rfl <;> exact ⟨by decide, fun _ => by rw [h]; decide⟩
  loads := loads_read rfl
  hits := fun _ n _ _ => by
    dsimp only
    rw [ea_any _ _ (show (vc t).bases = _ from rfl) _ rfl]
    refine ⟨rfl, hits_sys t cs _ _ ?_, ?_⟩
    · cases reds <;> decide +kernel
    · cases op <;> rcases hs with rfl | rfl <;> rfl

theorem witness_atomics (t : Track) :
    let s := withSys t []; let v := vc t;
    (Issues s 0 0 v ∧ (∀ o x, x = xa 0 0 0 ∨ x = xm 2 → SourcesFull o x v 0) ∧ MemoryFree s 0 0 v ∧ realIn v 0 (off (xa 0 0 0)) = 0 ∧ v.path 3 < 4095) ∧
    (∀ size ∈ [4, 8], LanesAre (realIn v 0 (xm 2)) (realIn v 0 (xm 2)) (fun n => laneEa s v (xm 2) (o64c (xm 2).md) n % size ≠ 0) ∧ realIn v 0 (xm 2) ≠ 0 ∧
      LanesAre (realIn v 0 (xm 0x1000000 2)) (realIn v 0 (xm 0x1000000 2))
        (fun n => scratchSize s v.grid < laneEa s v (xm 0x1000000 2) (o64c (xm 0x1000000 2).md) n + size)) ∧
    (∀ o md u size, size = 4 ∨ size = 8 → ∀ scratch reds op, AtomReady s 0 0 v (xa o md u) size scratch reds op id) ∧
    (∀ md u, ReleasedFirst s s 0 0 v v (xa 0 md u).aux.mOrder (scopeOf md)) ∧
    (∀ u, let f := withSys t [(5, ⟨0, 0, 0, 0, [], [], [], [], true, true, false, 0, 0⟩)];
      ReleasedFirst f (withSys t []) 0 0 v v (xa 2 8 u).aux.mOrder (scopeOf 8) ∧ AtomReady f 0 0 v (xa 2 8 u) 4 false false .add id) ∧
    ((xa 0 2 2).aux.mSub.getLsbD 1 = true ∧ (xa 0 2 0).aux.mSub.getLsbD 1 = false ∧ (xa 0 2 1).aux.mSub.getLsbD 0 = true ∧
      (xa 0 2 1).d = some (.n 0)) ∧
    (scopeOf 2 = 1 ∧ scopeOf 4 = 2 ∧ scopeOf 8 = 4 ∧ ∀ w n, ∃ c, homeOf s (id (laneEa s v (xa 0 2 0) w n)) = .here c) ∧
    (s.block? v.blk = some blockC ∧ blockC.window = false ∧ blockC.saved.length ≤ 256 ∧ Unrecorded s v.ctx ∧ s.prods = []) ∧
    (∀ y ∈ laneOps s v (xa 0 2 0) .add false (realIn v 0 (xa 0 2 0)), ∀ j, j < 4 → ∃ p, xlate s v.ctx (y.at_ + j) .read = .hit p) ∧
    ∀ k : List Nat, (∀ a ∈ k, a ∈ blockC.pool.map Prod.fst ∨ ∃ y ∈ laneOps s v (xa 0 2 0) .add false (realIn v 0 (xa 0 2 0)), y.at_ ≤ a ∧ a < y.at_ + 4) →
      lineCount k ≤ 2048 := by
  have hl : ∀ y ∈ laneOps (withSys t []) (vc t) (xa 0 2 0) .add false (realIn (vc t) 0 (xa 0 2 0)), y.at_ = 0x100000 := by
    intro y hy
    obtain ⟨n, _, rfl⟩ := List.mem_map.1 hy
    exact ea_any (withSys t []) (vc t) rfl (xa 0 2 0) rfl _ n
  refine ⟨⟨⟨by decide, rfl, rfl, show probeWave.st ≠ .ended by decide, rfl, pw_issues.quiet, rfl⟩, fun o x hx => ?_,
      (atom_ready t [] 0 0 0 4 (.inl rfl) false false .add).free, show realIn probeWave 0 (off x1) = 0 by decide, show probeWave.path 3 < 4095 by decide⟩,
    fun size hs => ?_, fun o md u size hs scratch reds op => atom_ready t [] o md u size hs scratch reds op, fun md u => ⟨rfl, rfl⟩,
    fun u => ⟨⟨rfl, 5, ⟨_, rfl⟩, rfl⟩, atom_ready t _ 2 8 u 4 (.inl rfl) false false .add⟩, by decide,
    ⟨rfl, rfl, rfl, fun w n => ?_⟩, ⟨rfl, rfl, by decide, unrecorded rfl, rfl⟩, fun y hy j hj => ?_, fun k hk => ?_⟩
  · rcases hx with rfl | rfl <;> exact sources rfl rfl _ 0
  · simp only [List.mem_cons, List.not_mem_nil, or_false] at hs
    rcases hs with rfl | rfl
    · exact ⟨lanes_all fun _ => show laneEa (one probeWave) probeWave (xm 2) false 0 % 4 ≠ 0 by decide, show realIn probeWave 0 x1 ≠ 0 by decide,
        lanes_all fun _ => show scratchSize (one probeWave) 0 < laneEa (one probeWave) probeWave (xm 0x1000000) false 0 + 4 by decide⟩
    · exact ⟨lanes_all fun _ => show laneEa (one probeWave) probeWave (xm 2) false 0 % 8 ≠ 0 by decide, show realIn probeWave 0 x1 ≠ 0 by decide,
        lanes_all fun _ => show scratchSize (one probeWave) 0 < laneEa (one probeWave) probeWave (xm 0x1000000) false 0 + 8 by decide⟩
  · rw [ea_any _ _ (show (vc t).bases = _ from rfl) _ rfl]
    exact ⟨_, rfl⟩
  · rw [hl y hy]
    refine ⟨0x100000 + j, hits_sys t [] _ _ ?_⟩
    revert j
    decide +kernel
  · refine Nat.le_trans (line_count_one (c := 0x4000) fun a ha => ?_) (by decide)
    rcases hk a ha with h | ⟨y, hy, h1, h2⟩
    · exact absurd h (by simp [blockC, block1, newBlock])
    · rw [hl y hy] at h1 h2
      omega

def req1 (holds : Bool) : Req := ⟨0, 0, 0, 0, 0, 0, 0, 0, 0, .dev 0x100000, .add, .u32, false, 1, 0, none, holds, false, 0, 0⟩
def serving (holds phase : Bool) : State := { bench [(0, probeWave)] with hall := [req1 holds], ctxs := [(0, { ctx1 with phase })] }

theorem witness_porters_phases_and_scalars :
    (∀ holds phase, let s := serving holds phase; let r := req1 holds;
      s.hall.find? (fun y => decide (y.id = s.unit)) = some r ∧ ctxSettles s r.ctx = true ∧ reqBehind s r = false ∧ reqStaged s r = false ∧
      s.unreach = [] ∧ r.acq = false ∧ Unrecorded s r.ctx ∧ s.wave? r.wave = some probeWave ∧ r.at_ = .dev 0x100000 ∧
      (∀ j, j < 4 → isDevice s (0x100000 + j) = true) ∧ s.ctx? r.ctx = some { ctx1 with phase } ∧
      ((s.cluster r.home).held.filter fun y => decide (y.ctx = r.ctx) && decide (y.at_ = r.at_)) = [] ∧ (s.cluster r.home).ovfAddrs = [] ∧
      (heldAddrs (s.cluster r.home)).length < 256) ∧
    (∀ phase, let s : State := { one probeWave with
        ctxs := [(0, { ctx1 with phase })], clusters := [(0, { Cluster.reset with held := [req1 true] })] };
      Issues s 0 0 probeWave ∧ s.ctx? probeWave.ctx = some { ctx1 with phase } ∧ exIn probeWave 0 x1 ≠ 0 ∧ exIn probeWave 0 (off x1) = 0 ∧
      s.staged = [] ∧ s.sysCommits = [] ∧ (∀ r ∈ s.hall, r.wave = 0 → r.holds = false) ∧ ctx1.rec_.mode ≠ 2 ∧
      (∀ r ∈ [req1 true], r.ctx = probeWave.ctx ∧ ∃ pa, r.at_ = .dev pa ∧ ∀ j, j < r.size → isDevice s (pa + j) = true) ∧
      keyOf s probeWave.ctx = 0) ∧
    (Issues (one probeWave) 0 0 probeWave ∧ (∀ o, SourcesFull o x1 probeWave 0) ∧ probeWave.path 3 < 4095 ∧ (one probeWave).ctx? probeWave.ctx = some ctx1 ∧
      x1.d = some (.n 0) ∧ (one probeWave).prods = [] ∧ (one probeWave).hall = [] ∧ x1.aux.vIdx < 16) := by
  refine ⟨fun holds phase => ⟨rfl, rfl, ?_, ?_, rfl, rfl, fun x hx => ?_, rfl, rfl, fun j hj => device_here rfl (by omega), rfl, rfl, rfl, show 0 < 256 by decide⟩,
    fun phase => ⟨⟨by decide, rfl, rfl, by decide, rfl, pw_issues.quiet, rfl⟩, rfl, by decide, by decide, rfl, rfl, (fun _ h => nomatch h), by decide,
      fun r hr => ?_, rfl⟩, pw_issues, fun o => sources rfl rfl o 0, by decide, rfl, rfl, rfl, rfl, by decide⟩
  · revert holds phase
    decide +kernel
  · revert holds phase
    decide +kernel
  · cases hx
    rfl
  · simp only [List.mem_singleton] at hr
    subst hr
    exact ⟨rfl, _, rfl, fun j hj => device_here rfl (Nat.lt_of_lt_of_le (Nat.add_lt_add_left hj _) (by decide))⟩

/-- A copy word: direction, carried arrival, B and length. -/
def xcp (u : BitVec 7) (b len : BitVec 9) : Body := bd (some (.lit 1)) none (some (.lit b)) (some (.lit len)) .u32 0 (.m 0 0x100000 false 0 u)

theorem witness_copy_words :
    Issues (one probeWave) 0 0 probeWave ∧ exIn probeWave 0 (off x1) = 0 ∧ (one probeWave).block? probeWave.blk = some block1 ∧
    (∀ u b n, exIn probeWave 0 (xcp u b n) ≠ 0 ∧ (∀ o, SourcesFull o (xcp u b n) probeWave 0) ∧
      (∀ l, CopyIs (one probeWave) probeWave (xcp 0 b n) 0x100000 l ⟨0x100000, (src (one probeWave) probeWave (some (.lit b)) l).toNat, (src (one probeWave) probeWave (some (.lit n)) l).toNat⟩)) ∧
    (∀ w l, laneEa (one probeWave) probeWave (xcp 0 0 4) w l = 0x100000) ∧
    ((src (one probeWave) probeWave (some (.lit 4)) 0).toNat = 4 ∧ (src (one probeWave) probeWave (some (.lit 511)) 0).toNat = 0xFFFFFFFF ∧
      (src (one probeWave) probeWave (some (.lit 0)) 0).toNat = 0) ∧
    (let x := xcp 4 0 4; x.aux.mSub.getLsbD 2 = true ∧ (srcAt (one probeWave) probeWave (.lit 1) 0 0).extractLsb' 0 17 = 1#17 ∧
      (srcAt (one probeWave) probeWave (.lit 0) 0 0).extractLsb' 0 17 = 0#17 ∧ block1.bars[(0 : Fin 16)].arrived = 0 ∧ block1.bars[(0 : Fin 16)].pending = 0) ∧
    probeWave.path 2 + 64 ≤ 4095 ∧ scratchSize (one probeWave) 0 = 4194304 := by
  refine ⟨pw_issues, by decide, rfl, fun u b n => ⟨show exIn probeWave 0 x1 ≠ 0 by decide, fun o => sources rfl rfl o 0,
    fun l => ⟨rfl, fun _ => ⟨rfl, rfl⟩, fun h => absurd h (show ¬ (0 : Nat) = 1 by decide), fun h => absurd rfl h⟩⟩, fun w l => ea_any _ _ rfl _ rfl _ _, by decide, by decide, by decide, by decide⟩

def copy1 (dir dst : Nat) : Copy := ⟨0, 0, 0, 0, 0, dir, 0x100000, dst, 4, 0, 0, none, none, true, ⟨0, 0, 0, 0, 0⟩, 0, 0⟩
def copying (c : Copy) : State := { oneC probeWave with copies := [(0, c)], cur := .none }

theorem witness_couriers_and_arrivals :
    (∀ dir dst, let c := copy1 dir dst; CopyGoes (copying c) c ∧ (copying c).block? c.blk = some blockC ∧ blockC.window = false ∧ blockC.saved.length ≤ 256 ∧
      Unrecorded (copying c) c.ctx ∧ (copying c).wave? c.wave = some probeWave ∧ probeWave.alive = true ∧
      SideReads (copying c) c.ctx (c.src + c.done) 4 .read (0x100000 + ·)) ∧
    (∀ dir, let c := copy1 dir 0x200000; SideReads (copying c) c.ctx (c.dst + c.done) 4 .write (0x200000 + ·)) ∧
    (let c := copy1 1 (2 ^ 50); xlate (copying c) c.ctx ((c.dst + c.done) % 2 ^ 72) .write = .xlate) ∧
    (∀ mask : BitVec 17, let c : Copy := { copy1 0 0 with done := 4, arrive := some (0, 1) };
      let b : Block := { blockC with bars := blockC.bars.set 0 { blockC.bars[(0 : Fin 16)] with mask, pending := 1 } };
      let s : State := { copying c with blocks := [(0, b)] };
      kget s.copies s.unit = some c ∧ c.len ≤ c.done ∧ (∀ z ∈ s.copies, z.2.group = c.group → z.1 = s.unit) ∧ s.ctx? c.ctx = some ctx1 ∧
      ctx1.st = .live ∧ ctx1.rec_.mode = 0 ∧ s.block? c.blk = some b ∧ b.st ≠ .restoring ∧ s.wave? c.wave = some probeWave ∧
      b.bars[(0 : Fin 16)].mask = mask) := by
  have hx (c : Copy) (va pa : Nat) (k : Acc) (h : xlate (one probeWave) 0 va k = .hit pa) : xlate (copying c) 0 va k = .hit pa :=
    (xlate_same (one probeWave) _ _ _ _ _ _ _ _ 0 va k).trans h
  refine ⟨fun dir dst => ⟨⟨rfl, show 0 < 4 by decide, rfl, ⟨_, rfl, rfl⟩, fun b hb => ?_, fun y hy _ h => absurd h (Nat.not_lt_zero _), fun y hy _ _ => by cases List.mem_singleton.1 hy; rfl⟩, rfl, rfl, by decide,
    fun x hx => by cases hx; rfl, rfl, rfl, fun i hi => ⟨hx _ _ _ _ ?_, device_here rfl (show 0x100000 + i < 0x9000000000 by omega), rfl⟩⟩,
    fun dir i hi => ⟨hx _ _ _ _ ?_, device_here rfl (show 0x200000 + i < 0x9000000000 by omega), rfl⟩,
    (xlate_same (one probeWave) _ _ _ _ _ _ _ _ 0 _ .write).trans (by decide +kernel), fun mask => ⟨rfl, by decide, ?_, rfl, rfl, rfl, rfl, ?_, rfl, ?_⟩⟩
  · cases hb
    decide
  · show xlate (one probeWave) 0 ((0x100000 + 0 + i) % 2 ^ 72) .read = .hit (0x100000 + i)
    revert i
    decide +kernel
  · show xlate (one probeWave) 0 ((0x200000 + 0 + i) % 2 ^ 72) .write = .hit (0x200000 + i)
    revert i
    decide +kernel
  · intro z hz _
    simp only [copying, List.mem_singleton] at hz
    rw [hz]
    rfl
  · exact show blockC.st ≠ .restoring by decide
  · rfl

/-! ### Witnesses: the matrix unit and its sequencer -/

/-- A block whose sequencer has the turn, with handle 0 over 32 units of I8, a tile 0, and Q0 and Q1 as BARA masks. -/
def bH : Block := { block1 with
  handles := block1.handles.set 0 ⟨0, 32, 0, true, 0, .i8⟩, tiles := [(0, ⟨.full, 0, 0, []⟩), (1, ⟨.empty, 1, 0, []⟩), (2, ⟨.full, 0, 1, []⟩)]
  seq := { block1.seq with q := (block1.seq.q.set 0 0x10000).set 1 0x10001, rowP := 1, colP := 1 } }
def sq (b : Block) (m : KMap (List MatStep) := []) : State := { one probeWave with cur := .seq 0, blocks := [(0, b)], matrix := m }
/-- A step that reads handle 0. -/
def mst0 : MatStep := ⟨0, 0, false, 0, 0, 1, 0, 0, 0, false, 0, 512⟩
/-- A sequencer's word. -/
def xq (d a : Option Opd) (b c : BitVec 9) (u : BitVec 23 := 0) : Body := bd d a (some (.lit b)) (some (.lit c)) .i8 0 (.q 0 u)

theorem seq_issues (b : Block) (m : KMap (List MatStep)) (h1 : b.seq.st = .run) : SeqIssues (sq b m) 0 b :=
  ⟨rfl, rfl, h1, fun _ _ => .inl (by simp only [watchUnit, sq, one, oneOf, State.reset, kgetD, kget, Option.getD_none]; decide)⟩

/-- What a word that faults needs of the block's waves. -/
theorem seq_fault_hyps (b : Block) (m : KMap (List MatStep)) (h : b.waves = [0]) : 0 ∈ b.waves ∧ (sq b m).wave? 0 = some probeWave ∧ probeWave.alive = true ∧
    ∀ k ∈ b.waves, ∀ y, (sq b m).wave? k = some y → y.alive = true → k = 0 ∨ probeWave.idx < y.idx := by
  rw [h]
  exact ⟨by simp, rfl, rfl, fun k hk _ _ _ => .inl (by simpa using hk)⟩

theorem witness_reservations_and_loads :
    (∀ m, SeqIssues (sq bH m) 0 bH) ∧ (0 ∈ bH.waves ∧ (sq bH []).wave? 0 = some probeWave ∧ probeWave.alive = true) ∧
    -- MRES on handle 1: a length of 0, and one that overlaps nothing
    ((xq (some (.o 1)) (some (.lit 0)) 0 0).d = some (.o 1) ∧ seqSrc bH (xq (some (.o 1)) (some (.lit 0)) 0 0).a = 0 ∧
      bH.handles[(0 : Fin 32)].live = true ∧ bH.handles[(1 : Fin 32)].live = false) ∧
    (let r : Resv := ⟨0, 8, 64, true, 0, .i8⟩; seqSrc bH (some (.lit 64)) = 64 ∧ r.len % fmtBits .i8 = 0 ∧ (∀ y ∈ r.spans, y.1 + y.2 ≤ obufSize (sq bH) bH) ∧
      ∀ k : Fin 32, bH.handles[k].live = true → ∀ y ∈ r.spans, ∀ z ∈ bH.handles[k].spans, y.1 + y.2 ≤ z.1 ∨ z.1 + z.2 ≤ y.1) ∧
    (∃ m ∈ kgetD (sq bH [(0, [mst0])]).matrix (blockCore bH) [], m.blk = 0 ∧ m.zero = false ∧ m.oa = 0) ∧
    -- MLD: a K-step past the range, an odd pitch, an address past the allotment, and a good one
    (bH.handles[(0 : Fin 32)].ks ≤ (seqSrc bH (some (.lit 4))).toNat ∧ ¬ bH.handles[(0 : Fin 32)].ks ≤ (seqSrc bH (some (.lit 0))).toNat ∧
      ¬ bH.handles[(0 : Fin 32)].ks ≤ (seqSrc bH (some (.lit 3))).toNat) ∧
    ((seqSrc bH (some (.lit 6))).toNat % 4 ≠ 0 ∧ (seqSrc bH (some (.lit 64))).toNat % 4 = 0 ∧ (seqSrc bH (some (.lit 508))).toNat % 4 = 0) ∧
    (let size := scratchSize (sq bH) bH.grid; size < (seqSrc bH (some (.lit 508))).toNat + 256 ∧ (∀ n, n < 32 → 64 + n * 64 + 4 * 8 ≤ size) ∧ 64 + 256 ≤ size) :=
  ⟨fun m => seq_issues _ m rfl, ⟨by decide, rfl, rfl⟩, by decide, by decide, by decide, by decide, by decide, by decide⟩

theorem witness_matrix_steps :
    (∀ m, SeqIssues (sq bH m) 0 bH) ∧
    (bH.handles[(0 : Fin 32)].live = true ∧ bH.handles[(1 : Fin 32)].live = false ∧ ¬ bH.handles[(0 : Fin 32)].ks < 2 ∧ (seqSrc bH (some (.lit 2))).toNat = 2 ∧
      (seqSrc bH (some (.lit 0))).toNat = 0) ∧
    ((kgetD bH.tiles 0 .lost).st ≠ .lost ∧ (kgetD bH.tiles 0 .lost).holds = 0 ∧ (kgetD bH.tiles 2 .lost).holds ≠ 0 ∧ (kgetD bH.tiles 2 .lost).st ≠ .lost ∧
      (kgetD bH.tiles 3 .lost).st = .lost) ∧
    ((kgetD (sq bH).matrix (blockCore bH) []).length < 8 ∧ 8 ≤ (kgetD (sq bH [(0, List.replicate 8 mst0)]).matrix (blockCore bH) []).length) ∧
    (∀ zero, let m : MatStep := { mst0 with zero }; let s := sq bH [(0, [m])];
      kgetD s.matrix s.unit [] = [m] ∧ s.block? m.blk = some bH ∧ s.ctx? bH.ctx = some ctx1 ∧ ctx1.st = .live) :=
  ⟨fun m => seq_issues _ m rfl, by decide, by decide, by decide, fun _ => ⟨rfl, rfl, rfl, rfl⟩⟩

theorem witness_sequencer_words :
    (∀ m, SeqIssues (sq bH m) 0 bH) ∧ HasWave (sq bH) bH ∧ (∀ a, (xq (some (.q 2)) a 0 0).d = some (.q 2)) ∧
    (let set (v : Word) : Block := { bH with seq := { bH.seq with q := bH.seq.q.set 2 v } }; ∀ m v, SeqIssues (sq (set v) m) 0 (set v)) ∧
    (bH.seq.q[(0 : Fin 8)] - 1 ≠ 0 ∧ ({ bH with seq := { bH.seq with q := bH.seq.q.set 2 1 } } : Block).seq.q[(2 : Fin 8)] - 1 = 0) ∧
    Unrecorded (sq bH) bH.ctx ∧ ArrivalBad bH 0 16 ((seqSrc bH (some (.lit 1))).extractLsb' 0 17) ∧
    (∀ k ∈ [0, 1], ¬ ArrivalBad bH 0 16 ((seqSrc bH (some (.q k))).extractLsb' 0 17)) ∧
    (Completes bH.bars[(0 : Fin 16)] 16 ((seqSrc bH (some (.q 0))).extractLsb' 0 17) ∧
      ¬ Completes bH.bars[(0 : Fin 16)] 16 ((seqSrc bH (some (.q 1))).extractLsb' 0 17)) ∧
    (let b : Block := { bH with bars := bH.bars.set 0 { bH.bars[(0 : Fin 16)] with mask := 0x10001, arrived := 0x10000 } };
      SeqIssues (sq b) 0 b ∧ HasWave (sq b) b ∧ b.bars[(0 : Fin 16)].arrived.getLsbD 16 = true) ∧
    (bH.bars[(0 : Fin 16)].arrived.getLsbD 16 = false ∧ bH.bars[(0 : Fin 16)].pending.getLsbD 16 = false ∧ bH.doneAt[(0 : Fin 16)] ≤ bH.snapAt) ∧
    (let b : Block := { bH with doneAt := bH.doneAt.set 0 (bH.snapAt + 1) }; SeqIssues (sq b) 0 b ∧ HasWave (sq b) b ∧ b.snapAt < b.doneAt[(0 : Fin 16)]) := by
  have hw (b : Block) (h : b.waves = [0]) : HasWave (sq b) b := ⟨0, by simp [h], probeWave, rfl, rfl⟩
  refine ⟨fun m => seq_issues _ m rfl, hw _ rfl, fun _ => rfl, fun m v => seq_issues _ m rfl, by decide, fun x hx => by cases hx; rfl, ?_, ?_, ?_,
    ⟨seq_issues _ [] rfl, hw _ rfl, by decide⟩, by decide, ⟨seq_issues _ [] rfl, hw _ rfl, by decide⟩⟩
  all_goals
    first | unfold ArrivalBad | unfold Completes
    decide

theorem witness_matrix_stores :
    let b : Block := { bH with window := false };
    (∀ m, SeqIssues (sq b m) 0 b) ∧ Unrecorded (sq b) b.ctx ∧ b.window = false ∧ b.saved.length ≤ 256 ∧
    ((seqSrc b (some (.lit 3))).toNat % (fmtBits .f32 / 8) ≠ 0 ∧ (seqSrc b (some (.lit 4))).toNat % (fmtBits .f32 / 8) = 0) ∧
    (scratchSize (sq b) b.grid < (seqSrc b (some (.lit 508))).toNat + 4 ∧ ∀ i j, i < 32 → j < 32 → 64 + i * 128 + j * 4 + 4 ≤ scratchSize (sq b) b.grid) ∧
    ((kgetD b.tiles 3 .lost).st = .lost ∧ (kgetD b.tiles 1 .lost).st = .empty ∧ (kgetD b.tiles 0 .lost).st = .full) ∧
    (∀ i j, i < 32 → j < 32 → b.seq.rowP.getLsbD i = true → b.seq.colP.getLsbD j = true → i = 0 ∧ j = 0) := by
  have h : ∀ i, i < 32 → (1 : Word).getLsbD i = true → i = 0 := by decide
  refine ⟨fun m => seq_issues _ m rfl, fun x hx => by cases hx; rfl, rfl, by decide, by decide, ⟨by decide, ?_⟩, by decide,
    fun i j hi hj h1 h2 => ⟨h i hi h1, h j hj h2⟩⟩
  intro i j hi hj
  show 64 + i * 128 + j * 4 + 4 ≤ 4194304
  omega

/-- A wave's words at the unit: OBST from M0, ACRD to N0, by their AUX. -/
def xob (u : BitVec 46) (b : BitVec 9 := 0) : Body := bd none (some (.m 0)) (some (.lit b)) none .u32 0 (.x u)
def xac (u : BitVec 46) (b : BitVec 9 := 0) : Body := bd (some (.n 0)) none (some (.lit b)) none .u32 0 (.x u)
def oneH : State := { one probeWave with blocks := [(0, bH)] }
def q1 : Machine.Prod := ⟨0, 0, 4, 0, 1, 0, .acrd 0 0 1 8, .none, false⟩

theorem witness_waves_reach_the_unit :
    (Issues oneH 0 0 probeWave ∧ oneH.block? probeWave.blk = some bH ∧ opdEnt (.m 0) = some 40 ∧
      (∀ u b, exIn probeWave 0 (xob u b) ≠ 0 ∧ exIn probeWave 0 (off (xob u b)) = 0 ∧
        Readable probeWave (⟨40, 16, exIn probeWave 0 (xob u b), false⟩ :: needOf uni1 (xob u b).b (exIn probeWave 0 (xob u b)) false) ∧
        ∀ o, SourcesFull o (xac u b) probeWave 0) ∧
      ((handle bH 0).live = true ∧ (handle bH 1).live = false ∧ ¬ (handle bH 0).ks ≤ 0 ∧ (handle bH 0).ks ≤ 4 ∧ 0 + 16 / perEntry .i8 ≤ levelSize oneH 0 (.m 0)) ∧
      (let b : Block := { bH with handles := bH.handles.set 0 ⟨64, 32, 0, true, 2, .i8⟩ }; ¬ (handle b 0).kblocks ≤ 0)) ∧
    ((∃ g, descOf oneH probeWave.grid = some g ∧ 3 < g.tiles) ∧ opdEnt (.n 0) = some 8 ∧ 16 < (src oneH probeWave (some (.lit 16)) 0).toNat + 1 ∧
      ((src oneH probeWave (some (.lit 0)) 0).toNat + 1 ≤ 16) ∧
      (kgetD bH.tiles 3 .lost).st = .lost ∧ (kgetD bH.tiles 1 .lost).st = .empty ∧ (kgetD bH.tiles 0 .lost).st = .full ∧ probeWave.path 4 < 4095) ∧
    (let s : State := { oneH with prods := [(0, q1)], cur := .none };
      kget s.prods s.unit = some q1 ∧ s.wave? q1.wave = some probeWave ∧ probeWave.alive = true ∧ probeWave.inHandler = false ∧
      Unwatched s probeWave ∧ s.block? probeWave.blk = some bH) := by
  refine ⟨⟨⟨by decide, rfl, rfl, by decide, rfl, pw_issues.quiet, rfl⟩, rfl, rfl, fun u b => ⟨show exIn probeWave 0 x1 ≠ 0 by decide,
    show exIn probeWave 0 (off x1) = 0 by decide, high_readable rfl fun k hk => ?_, fun o => sources rfl rfl o 0⟩, by decide, by decide⟩,
    ⟨⟨_, rfl, by decide⟩, by decide⟩, rfl, rfl, rfl, rfl, pw_issues.quiet, rfl⟩
  rcases List.mem_cons.1 hk with rfl | h
  · exact Nat.le_refl 40
  · exact needOf_high (o := some (.lit b)) rfl k h

/-! ### Witnesses: watch units, inspection, words, steps -/

/-- A word with sources A, B and C, and AUX bits. -/
def xw (a b c : Opd) (u : BitVec 46 := 0) : Body := bd (some (.n 0)) (some a) (some b) (some c) .u32 0 (.x u)

theorem witness_watch_and_markers :
    (Issues (one probeWave) 0 0 probeWave ∧ (∀ u, exIn probeWave 0 (xw (.m 0) (.lit 0) (.lit 0) u) ≠ 0 ∧
      ∀ a ∈ [.m 0, .lit 511], ∀ o, SourcesFull o (xw a (.lit 0) (.lit 0) u) probeWave 0) ∧ exIn probeWave 0 (off x1) = 0) ∧
    (3 < ((srcEntry (one probeWave) probeWave (some (.lit 511)) 0 0).extractLsb' 20 3).toNat ∧ srcEntry (one probeWave) probeWave (some (.m 0)) 0 0 = 0) ∧
    (let c : Ctx := { ctx1 with trace := ⟨0x200000, 12, 2, false, 0, 0⟩ }; let s : State := { one probeWave with ctxs := [(0, c)] };
      Issues s 0 0 probeWave ∧ s.ctx? probeWave.ctx = some c ∧ Unrecorded s probeWave.ctx ∧ c.trace.kinds.getLsbD 1 = true ∧
      c.trace.written < (2 ^ c.trace.log2len - 64) / 32 ∧ DeviceRange s (0x200000 + 64) 32 ∧ DeviceRange s 0x200000 8 ∧ probeWave.ctx < 2 ^ 16) ∧
    ((one probeWave).ctx? probeWave.ctx = some ctx1 ∧ Unrecorded (one probeWave) probeWave.ctx ∧ Untraced (one probeWave) probeWave.ctx 2 ∧
      Room (one probeWave) 0 0 probeWave x1 2 ∧ Readable probeWave (needs .dbmw x1 (laneBit (lowLane (exIn probeWave 0 x1))))) := by
  refine ⟨⟨pw_issues, fun u => ⟨show exIn probeWave 0 x1 ≠ 0 by decide, fun a ha o => ?_⟩, by decide⟩, by decide,
    ⟨⟨by decide, rfl, rfl, by decide, rfl, pw_issues.quiet, rfl⟩, rfl, fun x hx => by cases hx; rfl, by decide, by decide,
      device_range rfl (by decide), device_range rfl (by decide), by decide⟩, rfl, unrecorded rfl, untraced rfl 2, ?_, ?_⟩
  · simp only [List.mem_cons, List.not_mem_nil, or_false] at ha
    rcases ha with rfl | rfl <;> exact sources rfl rfl o 0
  · exact ⟨trivial, trivial⟩
  · exact sources (x := { x1 with }) rfl rfl .dbmw 0

/-- An inspector whose W1 to W4 hold selectors, and a target in its context. -/
def vi : Wave := { probeWave with
  place := ⟨0, 0, 0, 0, 1⟩
  ents := [(64 * 553, ⟨0x30000001, .full⟩), (64 * 554, ⟨0x70000001, .full⟩), (64 * 555, ⟨0x70000000, .full⟩), (64 * 556, ⟨0x20000000, .full⟩)] }
def insp (u : Wave) (dbg : Bool) : State := { one vi with waves := [(0, vi), (1, u)], ctxs := [(0, { ctx1 with dbgEn := dbg, dbgCtx := 0 })] }
def vHalt : Wave := { probeWave with st := .halted, halt := ⟨1, 0, 0, 0, 0⟩ }

theorem insp_issues (u : Wave) (dbg : Bool) : Issues (insp u dbg) 0 0 vi :=
  ⟨by decide, rfl, rfl, by decide, rfl, fun _ _ => .inl (by simp only [watchUnit, insp, one, oneOf, State.reset, kgetD, kget, Option.getD_none]; decide), rfl⟩

theorem kget_all {α : Type} {P : α → Prop} {m : KMap α} {k : Nat} {c : α} (h : ∀ y ∈ m, P y.2) (hg : kget m k = some c) : P c := by
  induction m with
  | nil => cases hg
  | cons y t ih =>
    simp only [kget] at hg
    split at hg
    · cases hg
      exact h y List.mem_cons_self
    · exact ih (fun z hz => h z (List.mem_cons_of_mem _ hz)) hg

theorem sources_w {x : Body} (h : ∀ o ∈ [x.a, x.b, x.c], ∃ p, o = some p ∧ ((∃ n, p = .lit n) ∨ p = .w 1 ∨ p = .w 2 ∨ p = .w 3 ∨ p = .w 4)) (o : Op) :
    SourcesFull o x vi 0 := by
  have key : ∀ (l : Option Lv) (p : Option Opd) (m : Mask) (c : Bool) (k : Need), (∃ q, p = some q ∧ ((∃ n, q = .lit n) ∨ q = .w 1 ∨ q = .w 2 ∨ q = .w 3 ∨ q = .w 4)) →
      k ∈ needOf l p m c → 40 ≤ k.ent := by
    intro l p m c k hq hk
    refine needOf_high ?_ k hk
    obtain ⟨q, rfl, ⟨n, rfl⟩ | rfl | rfl | rfl | rfl⟩ := hq <;> rfl
  have hc : ∀ e l, 40 ≤ e → (vi.cell e l).st = .full := by
    intro e l he
    unfold Wave.cell kgetD
    cases hg : kget vi.ents (Wave.cellKey e l) with
    | none => simp [Nat.not_lt.2 he]
    | some c => exact kget_all (P := fun c => c.st = .full) (by decide) hg
  intro k hk n _ _ j _
  refine hc _ _ (Nat.le_add_right_of_le ?_)
  simp only [needs, List.mem_append] at hk
  rcases hk with (hk | hk) | hk
  · exact key _ _ _ _ _ (h _ (by simp)) hk
  · exact key _ _ _ _ _ (h _ (by simp)) hk
  · exact key _ _ _ _ _ (h _ (by simp)) hk

/-- Slots of a target: gone, held at a JOIN, without lane 0. -/
def tGone : Wave := { vHalt with slot0 := { vHalt.slot0 with live := false } }
def tJoin : Wave := { vHalt with slot0 := { vHalt.slot0 with hold := .join } }
def tLane : Wave := { vHalt with slot0 := { vHalt.slot0 with mask := 2 } }

theorem witness_halted_waves_are_read_and_written :
    (∀ u dbg, Issues (insp u dbg) 0 0 vi ∧ (insp u dbg).wave? 1 = some u ∧
      (∀ o b n, (∃ k, b = .lit k) ∨ b = .w 1 ∨ b = .w 2 ∨ b = .w 3 ∨ b = .w 4 → SourcesFull o (xw (.lit 0) b (.lit n)) vi 0) ∧ exIn vi 0 (xw (.lit 0) (.lit 0) (.lit 0)) ≠ 0 ∧
      Room (insp u dbg) 0 0 vi (xw (.lit 0) (.lit 0) (.lit 0)) 1 ∧ Room (insp u dbg) 0 0 vi (xw (.lit 0) (.lit 0) (.lit 0)) 16) ∧
    (∀ u, NamesNone (insp u false) 0 0) ∧ (∀ u ∈ [probeWave, vHalt, tGone, tJoin, tLane], Names (insp u true) 0 0 1) ∧
    (isHalted (insp probeWave true) probeWave = false ∧ isHalted (insp vHalt true) vHalt = true ∧ isHalted (insp tGone true) tGone = true) ∧
    (GoodSelector (insp vHalt true) vHalt 0 ∧ ¬ GoodSelector (insp vHalt true) vHalt 100 ∧ GoodSelector (insp vHalt true) vHalt 0x30000001 ∧
      GoodSelector (insp vHalt true) vHalt 0x20000000 ∧ GoodSelector (insp tGone true) tGone 0x70000000) ∧
    (src (insp vHalt true) vi (some (.w 1)) 0 = 0x30000001 ∧ src (insp vHalt true) vi (some (.w 3)) 0 = 0x70000000 ∧
      src (insp vHalt true) vi (some (.w 4)) 0 = 0x20000000 ∧ src (insp vHalt true) vi (some (.lit 100)) 0 = 100) ∧
    (uniformSrc (some (.n 0)) = false ∧ uniformSrc (some (.lit 16)) = true) ∧ vHalt.halt.reason < 256 ∧ tGone.slot0.live = false := by
  refine ⟨fun u dbg => ⟨insp_issues u dbg, rfl, fun o b n hb => sources_w ?_ o, by decide, ⟨trivial, trivial⟩,
    ⟨trivial, trivial⟩⟩, fun u => .inl fun x hx => ?_, fun u hu => ?_, by decide, ?_, by decide, by decide, by decide, by decide⟩
  · intro p hp
    simp only [xw, bd, List.mem_cons, List.not_mem_nil, or_false] at hp
    rcases hp with rfl | rfl | rfl
    · exact ⟨_, rfl, .inl ⟨_, rfl⟩⟩
    · exact ⟨_, rfl, hb⟩
    · exact ⟨_, rfl, .inl ⟨_, rfl⟩⟩
  · cases hx
    exact .inl rfl
  · simp only [List.mem_cons, List.not_mem_nil, or_false] at hu
    rcases hu with rfl | rfl | rfl | rfl | rfl <;> exact ⟨⟨_, rfl, rfl, rfl⟩, by decide⟩
  · exact ⟨⟨by decide, show 0 < 40 by decide⟩, fun h => absurd (show 100 < 40 from h.2) (by decide), ⟨by decide, show 1 < 128 by decide⟩,
      ⟨by decide, _, rfl, by decide⟩, ⟨by decide, show 0 < 3 by decide⟩⟩

def isWord (f : Fetched) (w : BitVec 128) : Bool := match f with | .word b => decide (b = w) | _ => false
theorem isWord_eq {f : Fetched} {w : BitVec 128} (h : isWord f w = true) : f = .word w := by
  cases f <;> simp_all [isWord]
def isXlate (f : Fetched) : Bool := match f with | .xlate => true | _ => false
theorem isXlate_eq {f : Fetched} (h : isXlate f = true) : f = .xlate := by
  cases f <;> simp_all [isXlate]
def okIs (f : Except DecFault Instr) (i : Instr) : Bool := match f with | .ok j => decide (j = i) | _ => false
theorem okIs_eq {f : Except DecFault Instr} {i : Instr} (h : okIs f i = true) : f = .ok i := by
  cases f <;> simp_all [okIs]

/-- A NOP at address 0, and the module with a turn at the head of its agenda. -/
def codeNop : KMap Byte := [(13, 0xC0), (14, 1), (15, 1)]
def nopWord : BitVec 128 := 0x0101C000000000000000000000000000
def nopBody : Body := bd none none none none
def turn (s : State) (t : Turn) : State := { s with agenda := [t], mem := codeNop ++ tables, cur := .none }
/-- An inspector that waits for a step, or a release, of wave 1. -/
def vWaits : Wave := { vi with slot0 := { vi.slot0 with hold := .inspect 1 0 none (some (.n 0)) 1 0 } }
def waiting (t : Turn) : State := turn { insp vHalt true with waves := [(0, vWaits), (1, vHalt)] } t

theorem witness_halted_waves_are_stepped_and_released :
    (let b (n : BitVec 9) : Word := src (insp vHalt true) vi (some (.lit n)) 0;
      (b 0).extractLsb' 9 23 = 0 ∧ (b 256).extractLsb' 9 23 ≠ 0 ∧ (b 2).getLsbD 1 = true ∧ ((b 2).extractLsb' 2 7).toNat = 0 ∧ 2 < (b 3).toNat ∧ (b 0).toNat = 0) ∧
    ((vHalt.slot 0).live = true ∧ (vHalt.slot 0).hold ≠ .join ∧ (vHalt.slot 0).mask.getLsbD 0 = true ∧ (vHalt.slot 0).stepped.getLsbD 0 = false ∧
      (tGone.slot 0).live = false ∧ (tJoin.slot 0).live = true ∧ (tJoin.slot 0).hold = .join ∧ (tLane.slot 0).live = true ∧ (tLane.slot 0).hold ≠ .join ∧
      (tLane.slot 0).mask.getLsbD 0 = false) ∧
    (let s := waiting (.hstep 1 0 none 0 0);
      s.agenda = [.hstep 1 0 none 0 0] ∧ s.mods.stopped = false ∧ s.wave? 1 = some vHalt ∧ vHalt.st = .halted ∧ vHalt.alive = true ∧
      (vHalt.slot 0).hold = .none ∧ vHalt.late = [] ∧ Unwatched s vHalt ∧ vHalt.gangHalt = none ∧ s.wave? 0 = some vWaits ∧
      (vWaits.slot 0).hold = .inspect 1 0 none (some (.n 0)) 1 0 ∧ fetch s vHalt.ctx (codeVa s vHalt.grid (vHalt.slot 0).pc) (vHalt.slot 0).denied = .word nopWord ∧
      issueWord (envOf s vHalt.ctx vHalt.grid false) nopWord = .ok (.nop nopBody)) ∧
    (let s := waiting (.hrun [] 0 (some 1) 0 0 0);
      s.agenda = [.hrun [] 0 (some 1) 0 0 0] ∧ s.mods.stopped = false ∧ s.wave? 1 = some vHalt ∧ vHalt.ctx = 0 ∧ (∀ x, s.ctx? 0 = some x → x.st ≠ .halted) ∧
      s.wave? 0 = some vWaits ∧ (vWaits.slot 0).hold = .inspect 1 0 none (some (.n 0)) 1 0) :=
  ⟨by decide, by decide, ⟨rfl, rfl, rfl, rfl, rfl, rfl, rfl, (insp_issues vHalt true).quiet, rfl, rfl, rfl, isWord_eq (by decide +kernel), okIs_eq (by decide +kernel)⟩,
    rfl, rfl, rfl, rfl, fun x hx => by cases hx; decide, rfl, rfl⟩

theorem witness_decoding :
    (let w := wordOf 0x20 0 0b0111 0x204 0x205 0xC01 0 0 0 0 1 0b1000 0; let e := DecEnv.full false;
      ∃ i, decodeWord e w = .ok i ∧ (opOf i).isSome = true ∧ i.wellFormed e = true ∧ encode i = some w) ∧
    (∀ e, decodeWord e 0 = .error .illop) ∧
    (let w := wordOf 0xE2 0 0b0111 0x405 0x201 0x202 0xC02 0 0 0 0 0 0;
      opFn .mma = (opField w, fnField w) ∧ isSeqOp .mma ≠ (DecEnv.full false).seq) ∧
    (let w := wordOf 0x20 0 0b1111 0x204 0x205 0xC01 0 0 0 0 1 0b1000 0;
      opFn .iadd = (opField w, fnField w) ∧ isSeqOp .iadd = (DecEnv.full false).seq ∧ isPrivOp .iadd = false ∧ w.extractLsb' 110 4 = (0b1111 : BitVec 4)) ∧
    (let w := wordOf 0x20 0 0b0111 0x204 0x205 0xC01 0 0 0 0 0xE 0b1000 0; opFn .iadd = (opField w, fnField w) ∧ (0xE : BitVec 4) ≤ w.extractLsb' 50 4) ∧
    (let w := wordOf 0x20 0 0b0111 0x204 0x205 0xC01 0 0 1 0 1 0b1000 0;
      opFn .iadd = (opField w, fnField w) ∧ w.extractLsb' 60 2 = (0 : BitVec 2) ∧ w.extractLsb' 57 3 ≠ (0 : BitVec 3)) :=
  ⟨⟨_, rfl, by decide, by decide, by decide⟩, fun _ => rfl, by decide, by decide, by decide, by decide⟩

/-- A kernel whose code lies outside the context's mapping, and one whose word at its PC is of the sequencer. -/
def farGrid (t : Bool) : Grid := { probeGrid with desc := { probeGrid.desc with code := 2 ^ 50, hasTrap := t } }
def seqCode : KMap Byte := [(13, 0xC0), (14, 1), (15, 0xE2)]

theorem witness_steps :
    (let s := turn (one probeWave) (.wave 0 0); WaveTurn s { s with agenda := [] } 0 0 probeWave (.word nopWord) ∧ probeWave.late = [] ∧
      issueWord (envOf { s with agenda := [] } 0 0 false) nopWord = .ok (.nop nopBody)) ∧
    (let s := turn (one probeWave) (.seq 0); SeqTurn s { s with agenda := [] } 0 block1 (.word nopWord) ∧
      issueWord (envOf { s with agenda := [] } 0 0 true) nopWord = .ok (.nop nopBody)) ∧
    (let s := turn State.reset (.event 0 .benchClock); s.agenda = [.event 0 .benchClock] ∧ s.mods.stopped = false) ∧
    (∀ t : Bool, let s : State := { turn (oneOf (if t then trapGrid else probeGrid) probeWave) (.wave 0 0) with mem := seqCode ++ tables };
      ∃ b, WaveTurn s { s with agenda := [] } 0 0 probeWave (.word b) ∧ decodeWord (envOf { s with agenda := [] } 0 0 false) b = .error .illctx) ∧
    (∀ t, WaveTurn (turn (oneOf (farGrid t) probeWave) (.wave 0 0)) (oneOf (farGrid t) probeWave |> fun s => { turn s (.wave 0 0) with agenda := [] }) 0 0 probeWave .xlate) ∧
    (let v : Wave := { probeWave with late := [⟨9, 0, 0, 0, 0, false, true, none, 0⟩] }; let s := turn (one v) (.wave 0 0);
      WaveTurn s { s with agenda := [] } 0 0 v (.word nopWord) ∧ v.late = ⟨9, 0, 0, 0, 0, false, true, none, 0⟩ :: []) ∧
    (Issues (one probeWave) 0 0 probeWave ∧ decodeWord (DecEnv.full false) 0 = .error .illop ∧ SeqIssues (sq bH) 0 bH ∧
      decodeWord (DecEnv.full true) 0 = .error .illop) ∧
    (∀ t, Untraced (oneOf (farGrid t) probeWave) probeWave.ctx 4) ∧ probeWave.parkTime = none := by
  refine ⟨⟨⟨⟨_, rfl, rfl⟩, rfl, isWord_eq (by decide +kernel)⟩, rfl, okIs_eq (by decide +kernel)⟩,
    ⟨⟨⟨_, rfl, rfl⟩, rfl, by decide, isWord_eq (by decide +kernel)⟩, okIs_eq (by decide +kernel)⟩, ⟨rfl, rfl⟩,
    fun t => ⟨0xE201C000000000000000000000000000, ⟨⟨_, rfl, rfl⟩, ?_, isWord_eq ?_⟩, ?_⟩, fun t => ⟨⟨_, rfl, rfl⟩, ?_, isXlate_eq ?_⟩,
    ⟨⟨⟨_, rfl, rfl⟩, rfl, isWord_eq (by decide +kernel)⟩, rfl⟩, ⟨pw_issues, rfl, seq_issues _ [] rfl, rfl⟩, fun t x hx => by cases hx; rfl, rfl⟩
  · cases t <;> rfl
  · revert t
    decide +kernel
  · cases t <;> rfl
  · cases t <;> rfl
  · revert t
    decide +kernel

theorem witness_memory_stays_canonical :
    let s : State := turn State.reset (.elapse 1); ∃ t, Memory.wf s.mem = true ∧ step s = .next t := ⟨_, by decide, rfl⟩

/-! ### Words written out from R159, R165 to R176 and the manual's own encodings -/

def wv : DecEnv := DecEnv.full false
def sv : DecEnv := DecEnv.full true
/-- A decoded word's fields, under p7. -/
def bo (d a b c : Option Opd) (ty : Fmt) (md : BitVec 4) (aux : Aux) : Body := bd d a b c ty md aux
def n (i : Fin 32) : Option Opd := some (.n i)
def wd (i : Fin 128) : Option Opd := some (.w i)
def li (v : BitVec 9) : Option Opd := some (.lit v)

/-- The Horner listing's line (16), as the manual encodes it. -/
theorem test_horner_ffma : okIs (decodeWord wv 0x600DC000000802006308000000000000)
    (.ffma ⟨⟨false, 7⟩, some (.h 0), some (.h 0), n 0, some (.s 1), some (.b, 1), 4, .f32, 0, .z⟩) = true := by decide
/-- Its line (13). -/
theorem test_horner_cpyw : okIs (decodeWord wv 0xC809C003000000000000000000000040) (.cpyw (bo none (li 0) none none .u32 0 (.s 0 1 0))) = true := by decide

theorem test_vote_bal : okIs (decodeWord wv (wordOf 0x0B 2 7 0x600 0 0 0 0 0 0 0 0 (3 * 8))) (.voteBal (bo (wd 0) none none none .u32 0 (.p 0 0 3 0))) = true := by decide
theorem test_brd : okIs (decodeWord wv (wordOf 0x03 0 1 0 0 0 0 0 0 0 0 0 ((2 ^ 23 - 2) * 2 ^ 23 + 5)))
    (.brd { bo none none none none .u32 0 (.b 0x7FFFFE 5) with guard := ⟨false, 1⟩ }) = true := by decide
theorem test_iaddc : okIs (decodeWord wv (wordOf 0x20 2 7 0x200 0x201 0x202 0 0 0 0 0 0 (1 * 8 + 2))) (.iaddc (bo (n 0) (n 1) (n 2) none .u32 0 (.p 0 0 1 2))) = true := by decide
theorem test_bfi : okIs (decodeWord wv (wordOf 0x25 1 7 0x200 0x201 0x202 0xC10 0 0 0 0 0 0)) (.bfi (bo (n 0) (n 1) (n 2) (li 16) .u32 0 .z)) = true := by decide
theorem test_ldi : okIs (decodeWord wv (wordOf 0x41 0 7 0x203 0 0 0 0 0 0 0 0 0xDEADBEEF)) (.ldi (bo (n 3) none none none .u32 0 (.i 0xDEADBEEF false))) = true := by decide
theorem test_pset : okIs (decodeWord wv (wordOf 0x43 0 7 0 0x201 0xDFF 0 0 0 0 1 2 1)) (.pset (bo none (n 1) (li 511) none .i32 2 (.p 0 0 0 1))) = true := by decide
theorem test_xl_up : okIs (decodeWord wv (wordOf 0x44 1 7 0x200 0x201 0xC04 0 0 0 0 0 0 0)) (.xlUp (bo (n 0) (n 1) (li 4) none .u32 0 .z)) = true := by decide
theorem test_red_max : okIs (decodeWord wv (wordOf 0x46 1 7 0x605 0x201 0 0 0 0 0 1 2 0)) (.red (bo (wd 5) (n 1) none none .i32 2 .z)) = true := by decide
theorem test_srd : okIs (decodeWord wv (wordOf 0x47 0 7 0x600 0 0 0 0 0 0 0 0 0x010)) (.srd (bo (wd 0) none none none .u32 0 (.g 0x010))) = true := by decide
theorem test_fmax_prop : okIs (decodeWord wv (wordOf 0x61 3 7 0x200 0x201 0x202 0 0 0 0 2 0 0)) (.fmaxProp (bo (n 0) (n 1) (n 2) none .f32 0 .z)) = true := by decide
theorem test_cvt : okIs (decodeWord wv (wordOf 0x80 0 7 0x200 0x201 0 0 0 0 0 3 0b1001 2)) (.cvt (bo (n 0) (n 1) none none .f16 9 (.f .f32))) = true := by decide
theorem test_sin : okIs (decodeWord wv (wordOf 0x82 5 7 0x200 0x201 0 0 0 0 0 2 0 0)) (.sin (bo (n 0) (n 1) none none .f32 0 .z)) = true := by decide
theorem test_st : okIs (decodeWord wv (wordOf 0xA1 0 7 0 0x200 0x204 0 0 0 0 0 0b0010 (1 * 2 ^ 43 + (2 ^ 32 - 4) * 2 ^ 11 + 2 ^ 10)))
    (.st (bo none (n 0) (n 4) none .u32 2 (.m 1 0xFFFFFFFC true 0 0))) = true := by decide
theorem test_ld_trk : okIs (decodeWord wv (wordOf 0xA0 0 7 0x200 0 0 0 0 0 0 0 1 (7 * 2 ^ 43))) (.ldTrk (bo (n 0) none none none .u32 1 (.m 7 0 false 0 0))) = true := by decide
theorem test_fence : okIs (decodeWord wv (wordOf 0xC0 3 7 0 0 0 0 0 0 0 0 0b1000 (4 * 2 ^ 7))) (.fence (bo none none none none .u32 8 (.m 0 0 false 4 0))) = true := by decide
theorem test_atom_cas : okIs (decodeWord wv (wordOf 0xC1 8 7 0x200 0 0x201 0x202 0 0 0 0 0b0110 (3 * 2 ^ 7 + 1)))
    (.atomCas (bo (n 0) none (n 1) (n 2) .u32 6 (.m 0 0 false 3 1))) = true := by decide
theorem test_reds_max : okIs (decodeWord wv (wordOf 0xC3 3 7 0 0 0x201 0 0 0 0 1 0b0110 0)) (.redsMax (bo none none (n 1) none .i32 6 (.m 0 0 false 0 0))) = true := by decide
theorem test_bara : okIs (decodeWord wv (wordOf 0xC6 0 7 0 0xC03 0 0 0 0 0 0 0 5)) (.bara (bo none (li 3) none none .u32 0 (.s 0 0 5))) = true := by decide
theorem test_wcnt : okIs (decodeWord wv (wordOf 0xC5 0 7 0 0xC00 0 0 0 0 0 0 0 (2 ^ 38 + 3))) (.wcnt (bo none (li 0) none none .u32 0 (.s 1 0 3))) = true := by decide
theorem test_xbar : okIs (decodeWord wv (wordOf 0xC7 1 7 0 0xC01 0 0 0 0 0 0 0 0)) (.xbar (bo none (li 1) none none .u32 0 (.s 0 0 0))) = true := by decide
theorem test_vscl : okIs (decodeWord wv (wordOf 0xC9 2 7 0 0 0 0 0 0 0 0 0 9)) (.vscl (bo none none none none .u32 0 (.v 9))) = true := by decide
theorem test_mend : okIs (decodeWord sv (wordOf 0xE7 0 7 0 0 0 0 0 0 0 0 0 0)) (.mend (bo none none none none .u32 0 (.q 0 0))) = true := by decide
theorem test_mza : okIs (decodeWord sv (wordOf 0xE2 1 7 0x407 0 0 0 0 0 0 0 0 0)) (.mza (bo (some (.t 7)) none none none .u32 0 (.q 0 0))) = true := by decide
theorem test_icinv : okIs (decodeWord wv (wordOf 0xF2 0 7 0 0 0 0 0 0 0 0 0 0)) (.icinv (bo none none none none .u32 0 .z)) = true := by decide
theorem test_rmark : okIs (decodeWord wv (wordOf 0xF7 0 7 0 0 0 0 0 0 0 0 0 77)) (.rmark (bo none none none none .u32 0 (.i 77 false))) = true := by decide

/-! ### Words that are not instructions, by the manual's table and R160 to R178 -/

def errIs (f : Except DecFault Instr) (e : DecFault) : Bool := match f with | .error x => decide (x = e) | _ => false

theorem test_illegal_zero : errIs (decodeWord wv 0) .illop = true := by decide
theorem test_illegal_ffma_fn : errIs (decodeWord wv (wordOf 0x60 5 7 0 0 0 0 0 0 0 0 0 0)) .illop = true := by decide
theorem test_illegal_mma_in_wave : errIs (decodeWord wv (wordOf 0xE2 0 15 0 0 0 0 0 0 0 0 0 0)) .illctx = true := by decide
theorem test_illegal_wave_word_in_stream : errIs (decodeWord sv (wordOf 0x20 0 7 0x200 0x201 0x202 0 0 0 0 0 0 0)) .illctx = true := by decide
theorem test_illegal_unprivileged : errIs (decodeWord { wv with priv := false } (wordOf 0xF2 0 7 0 0 0 0 0 0 0 0 0 0)) .illctx = true := by decide
theorem test_illegal_rm : errIs (decodeWord wv (wordOf 0x60 3 7 0x200 0x201 0x202 0x203 0 0 0 2 5 0)) .illfld = true := by decide
theorem test_illegal_guard_first : errIs (decodeWord wv (wordOf 0x60 3 15 0xA01 0x201 0x202 0x203 0 0 0 2 0 0)) .illfld = true := by decide
theorem test_illegal_not_uniform : errIs (decodeWord wv (wordOf 0x60 0 7 0x603 0xA01 0x202 0 0 0 0 2 0 0)) .illlev = true := by decide
theorem test_uniform : okIs (decodeWord wv (wordOf 0x60 0 7 0x603 0x604 0x802 0 0 0 0 2 0 0)) (.fadd (bo (wd 3) (wd 4) (some (.s 2)) none .f32 0 .z)) = true := by decide
theorem test_illegal_nine_survivors : errIs (decodeWord wv (wordOf 0x09 0 7 0 0 0 0 0 0 0 0 0 (0xFF * 2 ^ 38 + 2 ^ 10))) .illfld = true := by decide
theorem test_illegal_bara_survivor : errIs (decodeWord wv (wordOf 0xC6 0 7 0 0xC03 0 0 0 0 0 0 0 (2 ^ 6 + 5))) .illfld = true := by decide

/-! ### Ill-formed terms: one for each check of R164 -/

theorem smoke_stream : Instr.wellFormed wv (.mend (bo none none none none .u32 0 (.q 0 0))) = false := by decide
theorem smoke_stream_of_wave_word : Instr.wellFormed sv (.iadd (bo (n 0) (n 1) (n 2) none .u32 0 .z)) = false := by decide
theorem smoke_privilege : Instr.wellFormed { wv with priv := false } (.icinv (bo none none none none .u32 0 .z)) = false := by decide
theorem smoke_guard : Instr.wellFormed wv (.nop { bo none none none none .u32 0 .z with guard := ⟨true, 7⟩ }) = false := by decide
theorem smoke_sequencer_guard : Instr.wellFormed sv (.mend { bo none none none none .u32 0 (.q 0 0) with guard := ⟨false, 0⟩ }) = false := by decide
theorem smoke_type : Instr.wellFormed wv (.iadd (bo (n 0) (n 1) (n 2) none .f32 0 .z)) = false := by decide
theorem smoke_reserved_type : Instr.wellFormed wv (.nop (bo none none none none .i32 0 .z)) = false := by decide
theorem smoke_mod : Instr.wellFormed wv (.iadd (bo (n 0) (n 1) (n 2) none .u32 1 .z)) = false := by decide
theorem smoke_scope : Instr.wellFormed wv (.fence (bo none none none none .u32 0b1010 (.m 0 0 false 4 0))) = false := by decide
theorem smoke_keep : Instr.wellFormed wv (.iadd { bo (n 0) (n 1) (n 2) none .u32 0 .z with keep := some (.c, 0) }) = false := by decide
theorem smoke_caret : Instr.wellFormed wv (.iadd { bo (n 0) (n 1) (li 2) none .u32 0 .z with eb := 0b010 }) = false := by decide
theorem smoke_missing_source : Instr.wellFormed wv (.iadd (bo (n 0) (n 1) (n 2) (n 3) .u32 0 .z)) = false := by decide
theorem smoke_layout : Instr.wellFormed wv (.iadd (bo (n 0) (n 1) (n 2) none .u32 0 (.i 0 false))) = false := by decide
theorem smoke_unused_subfield : Instr.wellFormed wv (.bra (bo none none none none .u32 0 (.b 3 1))) = false := by decide
theorem smoke_register : Instr.wellFormed wv (.srd (bo (wd 0) none none none .u32 0 (.g 0x005))) = false := by decide
theorem smoke_read_only : Instr.wellFormed wv (.swr (bo none (wd 0) none none .u32 0 (.g 0x000))) = false := by decide
theorem smoke_survivors : Instr.wellFormed wv (.seam (bo none none none none .u32 0 (.s 0xFF 1 0))) = false := by decide
theorem smoke_destination : Instr.wellFormed wv (.iadd (bo (li 0) (n 1) (n 2) none .u32 0 .z)) = false := by decide
theorem smoke_m_beyond_allocation : Instr.wellFormed { wv with mAlloc := 16 } (.iadd (bo (some (.m 16)) (n 1) (n 2) none .u32 0 .z)) = false := by decide
theorem smoke_odd_pair : Instr.wellFormed wv (.iadd (bo (n 1) (n 2) (n 4) none .u64 0 .z)) = false := by decide
theorem smoke_not_uniform : Instr.wellFormed wv (.iadd (bo (wd 0) (n 1) (n 2) none .u32 0 .z)) = false := by decide
theorem smoke_good : Instr.wellFormed wv (.iadd (bo (n 0) (n 1) (n 2) none .u32 0 .z)) = true := by decide

/-! ### The manual's worked numbers -/

/-- The grid of 5 × 3 × 1 blocks in gangs of 2 × 2 × 1. -/
def grid53 : Grid := { probeGrid with nx := 5, ny := 3, nz := 1, desc := { probeGrid.desc with gx := 2, gy := 2, gz := 1 } }
theorem test_gangs : gangCount grid53 = 6 ∧ gangBlocks grid53 5 = [(4, 2, 0, 0)] ∧ (3, 1, 0, 3) ∈ gangBlocks grid53 1 := by decide

/-- One rounding per K-step: 0.5 + 2^24 + 1, then − 2^24. -/
theorem test_one_rounding :
    rnF32 (Val.sum false [decodeF .f32 0x3F000000, (decodeF .bf16 0x4580).mul (decodeF .bf16 0x4580), (decodeF .bf16 0x3F80).mul (decodeF .bf16 0x3F80)]) = 0x4B800001 ∧
    rnF32 (Val.sum false [decodeF .f32 0x4B800001, (decodeF .bf16 0xC580).mul (decodeF .bf16 0x4580)]) = 0x40000000 := by decide +kernel

/-- The wave after a word, in one field. -/
def after (i : Instr) (v : Wave) (f : Wave → Bool) : Bool :=
  match exec i (one v) with
  | .next t => (match t.wave? 0 with | some y => f y | none => false)
  | _ => false

/-- N0 := 2^31 − 1 + 1 wraps, and saturates under SAT (R155). -/
def vMax : Wave := { probeWave with ents := [(64 * 40, ⟨0x7FFFFFFF, .full⟩), (64 * 40 + 63, ⟨5, .full⟩)] }
theorem test_iadd_wraps : after (.iadd (bd (n 0) (some (.m 0)) (li 1) none .i32)) vMax (fun y => decide ((y.cell 8 0).val = 0x80000000) && decide ((y.cell 8 63).val = 6)) = true := by
  decide +kernel
theorem test_iadd_saturates : after (.iadd (bd (n 0) (some (.m 0)) (li 1) none .i32 8)) vMax (fun y => decide ((y.cell 8 0).val = 0x7FFFFFFF)) = true := by
  decide +kernel
/-- A literal is sign-extended, and the PC moves one word on. -/
theorem test_mov_literal : after (.mov (bd (n 0) (li 511) none none)) probeWave
    (fun y => decide ((y.cell 8 7).val = 0xFFFFFFFF) && decide ((y.cell 8 7).st = .full) && decide (y.slot0.pc = 16)) = true := by decide +kernel
/-- LDS reads nothing at once: its entries are EMPTY and its path counts one. -/
theorem test_lds_waits : after (.lds (bd (n 0) none none none .u32 0 (.m 0 0 false 0 0))) probeWave
    (fun y => decide ((y.cell 8 0).st ≠ .full) && decide (y.path 1 = 1)) = true := by decide +kernel
/-- A store puts its word least significant byte first. -/
theorem test_sts_byte_order : after (.sts (bd none none (li 5) none .u32 0 (.m 0 8 false 0 0))) probeWave
    (fun y => decide (y.bufS = [(8, 5), (9, 0), (10, 0), (11, 0)])) = true := by decide +kernel

/-! ### Witnesses: completion

CommandsComplete, WorkEventsComplete and ModuleEventsComplete ask of each form what its own statement above asks, so that their
witnesses are `witness_module_commands`, `witness_context_commands` and `witness_queue_commands`; `witness_seats_and_benches`,
`witness_producers`, `witness_couriers_and_arrivals`, `witness_porters_phases_and_scalars`, `witness_matrix_steps`,
`witness_gangs_placed_and_complete`, `witness_tree_barriers` and `witness_gangs_saved_restored_and_moved`; and `witness_queues_move`,
`witness_packets`, `witness_wakes_and_fault_records`, `witness_context_faults_and_gates`, `witness_messages_at_homes`,
`witness_cluster_power`, `witness_heat`, `witness_ports_and_domain`, `witness_module_registers` and `witness_boot`. -/

/-- M2 holds a signalling NaN in lane 0, and FPEN enables NV. -/
def vNan : Wave := { probeWave with fpen := fNV, ents := [(64 * 42, ⟨0x7F800001, .full⟩)] }
/-- A word leaves these flags in lane 0 and none in the other lanes, and its slot past it. -/
def leavesFlags (i : Instr) (v : Wave) (f : FFlags) : Bool :=
  match exec i ((one v).putWave 0 { v with fpen := 0, flags := [] }) with
  | .next t => match t.wave? 0 with
    | some u => decide (u.slot 0 = slotAfter (v.slot 0)) && decide (u.flag 0 = f) && (List.range 63).all fun l => decide (u.flag (l + 1) = 0)
    | none => false
  | _ => false

theorem leaves_flags {i : Instr} {v : Wave} {f : FFlags} (h : leavesFlags i v f = true) (hf : f &&& v.fpen ≠ 0) :
    ∃ t u, exec i ((one v).putWave 0 { v with fpen := 0, flags := [] }) = .next t ∧ t.wave? 0 = some u ∧ u.slot 0 = slotAfter (v.slot 0) ∧
      (∀ l, l < 64 → ((1 : Mask).getLsbD l = true ↔ u.flag l ≠ 0)) ∧ ∃ l, l < 64 ∧ u.flag l &&& v.fpen ≠ 0 := by
  unfold leavesFlags at h
  split at h
  · rename_i t ht
    split at h
    · rename_i u hu
      simp only [Bool.and_eq_true, decide_eq_true_eq, List.all_eq_true, List.mem_range] at h
      obtain ⟨⟨h1, h2⟩, h3⟩ := h
      refine ⟨t, u, ht, hu, h1, fun l hl => ?_, 0, by decide, by rw [h2]; exact hf⟩
      cases l with
      | zero => rw [h2]; simpa using fun h => hf (by simp [h])
      | succ n => simp [h3 n (by omega)]
    · cases h
  · cases h

theorem witness_enabled_flags_trap :
    Issues (one vNan) 0 0 vNan ∧
    ∃ t u, exec (.fadd xf) ((one vNan).putWave 0 { vNan with fpen := 0, flags := [] }) = .next t ∧ t.wave? 0 = some u ∧
      u.slot 0 = slotAfter (vNan.slot 0) ∧ (∀ l, l < 64 → ((1 : Mask).getLsbD l = true ↔ u.flag l ≠ 0)) ∧ ∃ l, l < 64 ∧ u.flag l &&& vNan.fpen ≠ 0 :=
  ⟨one_issues _ (by decide) rfl rfl, leaves_flags (f := fNV) (by decide +kernel) (by decide)⟩

theorem witness_register_words_complete :
    (Issues (one probeWave) 0 0 probeWave ∧ probeWave.fpen = 0 ∧ IntTy x1 ∧ (∀ i, x1.d ≠ some (.s i)) ∧ (∀ o, SourcesFull o x1 probeWave 0) ∧
      (∀ n, Room (one probeWave) 0 0 probeWave x1 n) ∧ UniformPreds probeWave x1 (exIn probeWave 0 x1) (List.range 8)) ∧
    (let x : Body := bd (some (.m 0)) (some (.m 8)) (some (.m 2)) none .f32;
      Room (one probeWave) 0 0 probeWave x 3 ∧
      ∀ o : Op, Readable probeWave (needOf (sig o x.ty x.md x.aux).d x.d (exIn probeWave 0 x) false ++ needs o x (exIn probeWave 0 x))) :=
  ⟨⟨pw_issues, rfl, .inl rfl, fun _ => by simp [x1, bd], fun o => sources rfl rfl o 0, fun _ => ⟨trivial, trivial⟩, uniform_preds rfl _ _⟩,
    witness_special_and_statistics.2.2.1, witness_special_and_statistics.2.2.2.2.2.1⟩

/-- What MemoryWordsComplete asks beyond the witnesses of loads, stores, commits, barriers and copies above. -/
theorem witness_memory_words_complete :
    (∀ scratch, AddressesGood (one probeWave) probeWave (realIn probeWave 0 (xm 0x100000)) (laneEa (one probeWave) probeWave (xm 0x100000) (o64m 0)) 4 4 scratch) ∧
    (elemSize Fmt.u32 * vecCount (xm 0x100000).aux.mSub = 4 ∧ (xm 0x100000).aux.mSub.getLsbD 0 = false ∧
      laneEa (one probeWave) probeWave (xm 0x100000) false 0 % (fmtBits .u32 / 8) = 0 ∧
      (src (one probeWave) probeWave (some (.lit 64)) 0).toNat % (fmtBits .u32 / 8) = 0) ∧
    (∀ scratch, bufLines (bufPut probeWave scratch (laneStores (one probeWave) probeWave (xm 0x100000) (realIn probeWave 0 (xm 0x100000))
      (laneEa (one probeWave) probeWave (xm 0x100000) (o64m 0)))) ≤ 128) ∧
    (∀ t, ((vc t).slot 0).entry = none ∧ Issues (oneC (vc t)) 0 0 (vc t) ∧ exIn (vc t) 0 x1 ≠ 0 ∧
      ∀ scope, CommitReady (oneC (vc t)) 0 (vc t) blockC gang1 scope id) ∧
    (∀ scope ∈ [1, 2, 3], reasonOf (Wave.noTrack false) scope = 0) ∧ pendingLoads (one probeWave) 0 = [] ∧
    ((∀ k ∈ (one probeWave).clusters, k.2.held = [] ∧ k.2.ovf = []) ∧ (∀ r ∈ (one probeWave).hall, r.wave = 0 → r.holds = false) ∧ ctx1.rec_.mode ≠ 2) ∧
    (∀ r ∈ (one probeWave).hall, r.wave = 0 → ∀ k, r.at_ ≠ .scalar k) ∧
    (let x := xcp 0 0 4; ¬ CarriedBad (one probeWave) probeWave x block1 ∧ probeWave.path 2 + 64 ≤ 4095 ∧
      (∀ l, (src (one probeWave) probeWave x.b l).toNat + (src (one probeWave) probeWave x.c l).toNat ≤ scratchSize (one probeWave) 0) ∧
      ∀ o, Readable probeWave (copyNeeds x (issOf o x 0 0 probeWave))) ∧
    (∀ sl, sl < 2 → OtherIdle probeWave 0) ∧
    (let v : Wave := { probeWave with paths := #v[0, 0, 5, 0, 0] }; let x := bd none (some (.lit 1)) none none;
      Issues (one v) 0 0 v ∧ exIn v 0 x ≠ 0 ∧ (src (one v) v x.a (lowLane (exIn v 0 x))).toNat = 1 ∧ v.path 2 = 5 ∧ v.path 0 ≤ 1) ∧
    (let b : Block := { block1 with bars := block1.bars.set 0 { block1.bars[(0 : Fin 16)] with mask := 3, arrived := 1 } };
      (b.bars[(0 : Fin 16)].arrived.getLsbD probeWave.idx || b.bars[(0 : Fin 16)].pending.getLsbD probeWave.idx) = true ∧
      (block1.bars[(0 : Fin 16)].arrived.getLsbD probeWave.idx || block1.bars[(0 : Fin 16)].pending.getLsbD probeWave.idx) = false) := by
  refine ⟨fun scratch n _ _ => ⟨?_, fun _ => ?_⟩, by decide, by decide +kernel, fun t => ⟨rfl, (witness_commits_checks_and_aborts.1 t).1, (witness_commits_checks_and_aborts.1 t).2.1, commit_ready t⟩, by decide, rfl,
    ⟨by decide, by decide, by decide⟩, (fun _ h => nomatch h), ⟨fun h => absurd h.1 (by decide), by decide, fun l => show 0 + 4 ≤ 4194304 by decide, fun o => ?_⟩,
    fun _ _ h => absurd h (by decide), ⟨one_issues _ (by decide) rfl rfl, by decide, by decide, by decide, by decide⟩, by decide⟩
  · rw [ea_any _ _ rfl _ rfl]
  · rw [ea_any _ _ rfl _ rfl]
    show 0x100000 + 4 ≤ 4194304
    decide
  · have h : copyNeeds (xcp 0 0 4) (issOf o (xcp 0 0 4) 0 0 probeWave) = needs o (xcp 0 0 4) (exIn probeWave 0 (xcp 0 0 4)) ++ [] := rfl
    rw [h, List.append_nil]
    exact sources rfl rfl o 0

theorem witness_atomic_words_complete (t : Track) :
    let s := withSys t []; let v := vc t
    Issues s 0 0 v ∧ (∀ o, SourcesFull o (xa 0 4 0) v 0) ∧ (∀ u size, size = 4 ∨ size = 8 → ∀ scratch reds op, AtomReady s 0 0 v (xa 0 4 u) size scratch reds op id) ∧
    (xa 0 4 0).aux.mOrder ∉ [2, 3, 4] ∧ s.block? v.blk = some blockC ∧ s.prods = [] ∧ blockC.window = false ∧ blockC.saved.length ≤ 256 ∧
    Unrecorded s v.ctx ∧ scopeOf (xa 0 4 0).md ≠ 1 :=
  ⟨(witness_atomics t).1.1, fun o => sources rfl rfl o 0, fun u size hs scratch reds op => atom_ready t [] 0 4 u size hs scratch reds op, by decide, rfl, rfl, rfl,
    by decide, unrecorded rfl, by decide⟩

/-- What ControlAndSystemWordsComplete asks beyond the witnesses of control words, traps, watch units, mailboxes and inspection above. -/
theorem witness_control_words_complete :
    (probeWave.st = .seated ∧ (probeWave.slot 1).live = false ∧ probeWave.stack = [] ∧ Untraced (one probeWave) probeWave.ctx 6) ∧
    ((src (one probeWave) probeWave (some (.lit 16)) 0).toNat ≠ 0) ∧
    (¬ WatchBad 0 (srcEntry (one probeWave) probeWave (some (.m 0)) 0 0) ∧ Picks (srcEntry (one probeWave) probeWave (some (.m 0)) 1 0) 0) ∧
    Readable probeWave (needs .dbmw x1 (laneBit (lowLane (exIn probeWave 0 x1)))) ∧
    (let s := insp vHalt true; let x := xw (.lit 0) (.lit 0) (.lit 0);
      (Names s vi.ctx (src s vi x.a 0) 1 ∧ s.wave? 1 = some vHalt ∧ isHalted s vHalt = true ∧ (1 : Nat) ≠ 0) ∧
      WriteArgs s vHalt (src s vi x.b 0) (exIn vi 0 x) (src s vi x.c) ∧ ((src s vi x.b 0).extractLsb' 28 4).toNat = 0 ∧
      (vHalt.slot 0).live = true ∧ (vHalt.slot 0).hold ≠ .join ∧ (src s vi x.b 0).getLsbD 1 = false) :=
  ⟨⟨rfl, rfl, rfl, untraced rfl 6⟩, by decide, ⟨by unfold WatchBad; decide, by decide, .inr (by decide)⟩, sources (x := { x1 with }) rfl rfl .dbmw 0,
    ⟨⟨⟨_, rfl, rfl, rfl⟩, by decide⟩, rfl, by decide, by decide⟩,
    ⟨⟨by decide, show 0 < 40 by decide⟩, fun h => absurd h (by decide), fun h => absurd h (by decide)⟩, by decide, by decide, by decide, by decide⟩

/-- What MatrixAndTreeWordsComplete asks beyond the witnesses of the matrix unit, its sequencer and the tree barriers above. -/
theorem witness_matrix_and_tree_words_complete :
    (let x := xq (some (.o 1)) (some (.lit 64)) 8 0; let s := sq bH;
      SeqIssues s 0 bH ∧ x.d = some (.o 1) ∧ ¬ RangeBad s bH 1 (newRange bH x) ∧ ¬ RangeRead s 0 bH 1) ∧
    (let x := xq (some (.o 0)) (some (.lit 64)) 64 0; let s := sq bH;
      x.d = some (.o 0) ∧ ¬ LoadNone bH x bH.handles[(0 : Fin 32)] ∧ ¬ LoadOdd bH x ∧ LoadInRange s bH x bH.handles[(0 : Fin 32)] ∧ ¬ RangeRead s 0 bH 0) ∧
    (let q := kgetD (sq bH).matrix (blockCore bH) []; q.length < 8 ∧ (seqSrc bH (some (.lit 1))).toNat ≤ bH.handles[(0 : Fin 32)].ks ∧
      (seqSrc bH (some (.lit 1))).toNat ≠ 0 ∧ bH.handles[(0 : Fin 32)].live = true ∧ (kgetD bH.tiles 0 .lost).st ≠ .lost ∧ (kgetD bH.tiles 0 .lost).holds = 0) ∧
    (let g : Gang := { gx with xb := ⟨0, 0, 0⟩ }; let r : Grid := { probeGrid with sync := true };
      let s : State := { one probeWave with gangs := [(0, g)], grids := [(0, r)] };
      Issues s 0 0 probeWave ∧ s.block? probeWave.blk = some block1 ∧ s.gang? block1.gang = some g ∧ probeWave.blk ∈ g.blocks ∧ g.blocks.Nodup ∧
      ∀ xb, ¬ TreeBad s xb block1 g probeWave 1) := by
  refine ⟨⟨seq_issues _ [] rfl, rfl, ?_, ?_⟩, ⟨rfl, ?_, ?_, ?_, ?_⟩, by decide, ⟨⟨by decide, rfl, rfl, by decide, rfl, pw_issues.quiet, rfl⟩, rfl, rfl, by decide, by decide, ?_⟩⟩
  · unfold RangeBad
    decide
  · unfold RangeRead
    decide
  · unfold LoadNone
    decide
  · unfold LoadOdd
    decide
  · unfold LoadInRange
    decide
  · unfold RangeRead
    decide
  · intro xb h
    unfold TreeBad at h
    have hb (y : Block) (h : (({ one probeWave with gangs := [(0, { gx with xb := ⟨0, 0, 0⟩ })], grids := [(0, { probeGrid with sync := true })] } : State)).block? 0 = some y) : y.gblk = 0 := by
      cases h
      rfl
    rcases h with h | h | ⟨k, hk, h1, h2⟩ | h | h | h | h
    · exact absurd h (by decide)
    · exact absurd h (by decide)
    · have : k = 0 := by revert h1; revert k; decide
      exact h2 0 (by decide) _ rfl (by rw [this]; rfl)
    · revert h
      cases xb <;> decide
    · revert h
      cases xb <;> decide
    · exact absurd (h.2 _ rfl) (by decide)
    · revert h
      cases xb <;> exact fun h => absurd h.2.1 (by decide)

/-! ### Witnesses: what further clauses ask -/

theorem witness_waits_and_halts :
    -- SEAM A with an EMPTY source
    (let v := vs (.empty 0); let x : Body := { bd none (some (.m 2)) none none with aux := .s 0 0 1 };
      Issues (one v) 0 0 v ∧ x.aux.sSub.getLsbD 0 = true ∧ x.eb.getLsbD 2 = false ∧ opdEnt (.m 2) = some 42 ∧
      (∀ l, l < 64 → (v.cell 42 l).st ≠ .lost) ∧ (exIn v 0 x).getLsbD 5 = true ∧ (v.cell 42 5).st = .empty 0) ∧
    -- a parked wave that halts, and a seat for a wave whose halt is due
    (let v : Wave := { probeWave with st := .parked }; Issues (one v) 0 0 v ∧ v.haltDue = none ∧ exIn v 0 x1 ≠ 0) ∧
    (let v : Wave := { vReady with haltDue := some ⟨1, 0, 0, 0, 0⟩ }; (bench [(0, v)]).wave? 0 = some v ∧ Untraced (bench [(0, v)]) v.ctx 6 ∧
      refillPick (bench [(0, v)]) (benchOf v.place) = some 0) :=
  ⟨⟨one_issues _ (by decide) rfl rfl, by decide, by decide, rfl, by decide, by decide, by decide⟩, ⟨one_issues _ (by decide) rfl rfl, rfl, by decide⟩,
    rfl, fun x hx => by cases hx; rfl, by decide⟩

/-- A checked COMMIT.SYS of wave 0 that stands staged. -/
def cCheck : SysCommit := ⟨0, 0, 0, 0, putAll [] ((gangBytes (vc (Wave.noTrack false)) blockC gang1).map fun y => (id y.1, y.2)), [], [], [], false, false, true, 0, 0⟩
def checking (t : Track) : State := { oneC (vc t) with sysCommits := [(0, cCheck)], cur := .none }

theorem witness_messages_further :
    (let t : Track := { Wave.noTrack false with overflow := true }; let s := checking t;
      kget s.sysCommits s.unit = some cCheck ∧ cCheck.applied = false ∧ cCheck.check = true ∧ s.wave? cCheck.wave = some (vc t) ∧ reasonOf (vc t).trk 3 ≠ 0) ∧
    (let v := vc (Wave.noTrack false); let s := checking (Wave.noTrack false);
      s.sysCommits = [(s.unit, cCheck)] ∧ (∀ m ∈ cCheck.homes, homeCut s m = false) ∧ reasonOf v.trk 3 = 0 ∧
      CommitReady { s with sysCommits := [] } cCheck.wave v blockC gang1 4 id ∧
      cCheck.share = putAll [] ((gangBytes v blockC gang1).map fun y => (id y.1, y.2))) ∧
    (∀ i, NoneWaits (one probeWave) i) ∧ PlainRange (one probeWave) 64 8 ∧ (∀ r ∈ (one probeWave).hall, False) ∧
    (let s : State := { one probeWave with staged := [⟨1, 2, [(64, 7)]⟩] }; stagedByte s 64 = true) := by
  refine ⟨⟨rfl, rfl, rfl, rfl, by decide⟩, ⟨rfl, by decide, by decide, ?_, rfl⟩, (fun _ _ h => nomatch h), plain_range rfl rfl rfl (by decide), by decide, by decide⟩
  have h := commit_ready (Wave.noTrack false) 4
  exact ⟨rfl, rfl, ⟨rfl, rfl⟩, unrecorded rfl, loads_read rfl, rfl, by decide, h.blockRoom, h.gangRoom, (fun _ _ h => nomatch h), (fun _ _ h => nomatch h),
    fun a y hy => ⟨rfl, (xlate_same (one probeWave) _ _ _ _ _ _ _ _ 0 y.1 .write).trans
      ((xlate_same (one probeWave) _ _ _ _ _ _ _ _ 0 y.1 .write).symm.trans (h.bytes a y hy).2.1), (h.bytes a y hy).2.2.1, (h.bytes a y hy).2.2.2⟩⟩

theorem witness_module_further :
    -- RECSET on a context that records, with one open stream
    (let c : Ctx := { ctx1 with rec_ := { RecMode.off with mode := 1, len := 1, streams := [str1] } }; let s := mdl (cslot 0x31 []) [(0, c)];
      Posted s 0 (cslot 0x31 []) 0x31 ∧ s.ctx? 0 = some c ∧ c.rec_.due = [] ∧ str1.recs ≠ [] ∧ c.rec_.full = false ∧
      128 + c.rec_.bytes + (24 + 8 * str1.recs.length) ≤ c.rec_.len * 4096 ∧ DeviceRange s c.rec_.base (c.rec_.len * 4096)) ∧
    (let c : Ctx := { ctx1 with rec_ := { RecMode.off with mode := 1, streams := [str1] } };
      c.rec_.len * 4096 < 128 + c.rec_.bytes + (24 + 8 * str1.recs.length)) ∧
    -- a pass that is due, with a hot junction and with none
    (passDue (clus (cl 0)) = true ∧ (∀ y ∈ (clus (cl 0)).clusters, ∀ τ, y.2.temp = some τ → τ.toInt ≤ 105 * 64) ∧
      passDue { clus (cl 0) with mods := { (clus (cl 0)).mods with passAt := some 0 } } = false ∧
      ∃ y ∈ (clus { cl 0 with temp := some 6800 }).clusters, ∃ τ, y.2.temp = some τ ∧ 105 * 64 < τ.toInt) ∧
    -- a rail due for its next step, and one that is not
    (let s : State := { clus { cl 6 with mv := 700, mvNow := 650 } with tick := 1000 };
      (s.cluster 0).off = false ∧ (s.cluster 0).mvNow < (s.cluster 0).mv ∧ (s.cluster 0).slewAt.toNat + 1000 ≤ s.tick.toNat ∧
      (clus (cl 6)).tick.toNat < ((clus (cl 6)).cluster 0).slewAt.toNat + 1000) ∧
    -- ports: training that has run out, and 1,001 replays in 1,000,000 ticks
    (let s : State := { ported { Port.reset with st := 1 } with tick := 100000000 };
      (s.ports[(0 : Fin 16)]).st = 1 ∧ (s.ports[(0 : Fin 16)]).since.toNat + 100000000 ≤ s.tick.toNat) ∧
    (let y : Port := { Port.reset with st := 2, replayed := List.replicate 1001 0 };
      y.st = 2 ∧ 1000 < (y.replayed.filter fun k => decide ((0 : DWord).toNat < k.toNat + 1000000)).length) ∧
    (let y : Port := { Port.reset with st := 3, lanes := 8 }; 5 ≤ y.lanes ∧ ¬ ({ y with lanes := 4 } : Port).lanes ≥ 5) ∧
    -- an emergency save that is complete
    (let s : State := { hot 2 with mem := [(327679, 1)] }; devByte s 0 (ctx1.poolBase + 327679) ≠ 0 ∧ ∀ y ∈ s.gangs, y.2.ctx ≠ 0) := by
  refine ⟨⟨⟨rfl, by decide, rfl, rfl, .inl rfl, ⟨rfl, rfl⟩, rfl⟩, rfl, rfl, by decide, rfl, by decide, device_range rfl (by decide)⟩, by decide,
    ⟨by decide, fun y hy τ h => ?_, by decide, (0, { cl 0 with temp := some 6800 }), List.mem_singleton.2 rfl, 6800, rfl, by decide⟩, by decide, ⟨rfl, by decide⟩, ⟨rfl, ?_⟩, by decide, by decide +kernel, (fun _ h => nomatch h)⟩
  · cases List.mem_singleton.1 hy
    cases h
  rw [List.filter_replicate, if_pos (by decide), List.length_replicate]
  decide

/-! ### Witnesses: regrouping, seats and messages, the clauses with more premises -/

theorem witness_exits_at_seams_and_of_halted_waves :
    (Issues (one vp) 0 0 vp ∧ (vp.slot 0).mask &&& ~~~(exIn vp 0 (xp none)) ≠ 0 ∧ (vp.slot 0).hold = .none) ∧
    (∀ h ∈ [Hold.seam .ready, .none], let v := vj { Slot.at_ 32 2 with hold := h } []; let x := bd none none none none;
      Issues (one v) 0 0 v ∧ (v.slot 0).mask &&& ~~~(exIn v 0 x) = 0 ∧ (v.slot 1).live = true ∧ v.stack = [] ∧ (v.slot 1).hold = h) ∧
    (∀ st ∈ [WaveSt.seated, .halted], let v : Wave := { probeWave with st }; let x := bd none none none none;
      Issues (one v) 0 0 v ∧ (v.slot 0).mask &&& ~~~(exIn v 0 x) = 0 ∧ (v.slot 1).live = false ∧ v.stack = [] ∧ v.st = st) := by
  refine ⟨⟨one_issues _ (by decide) rfl rfl, by decide, rfl⟩,
    fun h _ => ⟨one_issues _ (show probeWave.st ≠ .ended by decide) rfl rfl, ?_, rfl, rfl, rfl⟩, fun st hs => ?_⟩
  · show probeWave.slot0.mask &&& ~~~(exIn (vj (.at_ 32 2) []) 0 (bd none none none none)) = 0
    decide
  · have h : (st ≠ .ended) := by rintro rfl; revert hs; decide
    refine ⟨one_issues _ h rfl rfl, ?_, rfl, rfl, rfl⟩
    show probeWave.slot0.mask &&& ~~~(exIn probeWave 0 (bd none none none none)) = 0
    decide

theorem witness_starved_parked_wave :
    let v : Wave := { probeWave with st := .parked, slot0 := { probeWave.slot0 with starved := true, starveClocks := 4097 } }
    (bench [(0, v)]).wave? 0 = some v ∧ (bench [(0, v)]).unit = 0 ∧ v.seat.isSome = true ∧ v.st = .parked ∧
      ctxLive (bench [(0, v)]) v.ctx = true ∧ (v.slot 0).live = true ∧ 4096 < (v.slot 0).starveClocks :=
  ⟨rfl, by decide⟩

/-- A module whose port 0 carries flits. -/
def linked (s : State) : State := { s with ports := s.ports.set 0 { Port.reset with st := 2 } }
theorem is_linked (s : State) : Linked (linked s) := ⟨0, by decide, by simp [linked, portUp, port]⟩

theorem witness_messages_need_a_port :
    (∀ i, NoneWaits (linked (one probeWave)) i) ∧ Linked (linked (one probeWave)) ∧ stagedByte (linked (one probeWave)) 5 = false ∧
    isDevice (linked (one probeWave)) 5 = true ∧ PlainRange (linked (one probeWave)) 64 8 ∧ (∀ r ∈ (linked (one probeWave)).hall, False) ∧
    (let s : State := linked { one probeWave with staged := [⟨1, 2, [(5, 7)]⟩] };
      Linked s ∧ s.staged.find? (fun x => x.src = 1 && x.cid = 2) = some ⟨1, 2, [(5, 7)]⟩ ∧ (∀ x ∈ [((5 : Nat), (7 : Byte))], isDevice s x.1 = true) ∧
      s.recovery = false ∧ stagedByte s 5 = true) ∧
    (let s : State := { one probeWave with sysCommits := [(0, c1)] };
      kget s.sysCommits s.unit = some c1 ∧ c1.applied = false ∧ (∀ m ∈ c1.homes, homeCut s m = false) ∧ c1.check = false ∧
      Unrecorded s c1.ctx ∧ ∀ x ∈ c1.share, homeOf s x.1 ≠ .wake) ∧
    (∀ o, let t : Track := { Wave.noTrack false with overflow := o, bytes := [(3, 64)] }; let s := checking t;
      LoadsRead s cCheck.wave ∧ (∀ y ∈ (vc t).trk.bytes, isDevice s y.2 = true) ∧ (o = true → reasonOf (vc t).trk 3 ≠ 0) ∧
      (o = false → reasonOf (vc t).trk 3 = 0)) ∧
    (¬ Linked (one probeWave) ∧ (one probeWave).unit ≠ 1) := by
  refine ⟨(fun _ _ h => nomatch h), is_linked _, by decide, by decide, plain_range rfl rfl rfl (by decide), by decide, ⟨is_linked _, rfl, by decide, rfl, by decide⟩,
    ⟨rfl, rfl, by decide, rfl, ?_, by decide⟩, fun o => ⟨?_, ?_, ?_, ?_⟩, ?_, by decide⟩
  · intro x hx
    cases hx
    rfl
  · exact (fun _ h => nomatch h)
  · intro y hy
    cases List.mem_singleton.1 hy
    exact device_here rfl (by decide)
  · rintro rfl; decide
  · rintro rfl; decide
  · rintro ⟨p, hp, h⟩
    revert h
    revert p
    decide

theorem none_staged {s : State} (h1 : s.staged = []) (h2 : s.sysCommits = []) (a : Nat) : stagedByte s a = false := by
  simp [stagedByte, h1, h2]

theorem witness_stewards_and_hosts :
    (let s := one probeWave;
      s.recovery = false ∧ (3 : Nat) ∉ s.mods.coreHold ∧ (∀ i, NoneWaits s i) ∧ stagedByte s 64 = false ∧
      (∀ m, homeOf s 64 = .module m → m ∉ s.unreach ∧ homeCut s m = false)) ∧
    (let s : State := { linked (one probeWave) with cfg := { CfgRec.default with paths := [(1, [0])] } };
      homeOf s (2 ^ 48) = .module 1 ∧ (1 : Nat) ∉ s.unreach ∧ homeCut s 1 = false) ∧
    (∀ hold priv, let s : State := { one probeWave with
        ctxs := [(0, { ctx1 with priv })], mods := { ModRegs.reset with coreHold := hold } };
      s.recovery = false ∧ s.mods.coreHold = hold ∧ isPriv s 0 = priv ∧ (∀ i, NoneWaits s i) ∧
      homeOf s (s.cfg.pwrBase + 0x1000 * 63 + 0x30) = .power ∧ s.cfg.pwrBase % 2 ^ 48 = s.cfg.pwrBase ∧ s.cfg.pwrBase + 2 ^ 36 < 2 ^ 48 ∧
      ∀ i, i < 4 → stagedByte s (s.cfg.pwrBase + 0x1000 * 63 + 0x30 + i) = false) ∧
    (let s : State := { one probeWave with mods := { ModRegs.reset with h2dEn := true } };
      s.recovery = false ∧ (∀ i, NoneWaits s i) ∧ s.mods.h2dEn = true ∧ ctxLive s s.mods.h2dCtx = true ∧ PlainRange s (bar2Pa s 16) 4 ∧
      s.cfg.wakeBase % 2 ^ 36 = 0 ∧ 0xC000000000 ≤ s.cfg.wakeBase ∧ s.cfg.wakeBase ≤ 0xFFFFFFFFFF ∧ s.cfg.modid < 256 ∧ s.cfg.vwin ≤ 24) := by
  refine ⟨⟨rfl, by decide, (fun _ _ h => nomatch h), by decide, fun m h => ?_⟩, ⟨by decide, by decide, by decide⟩,
    fun _ _ => ⟨rfl, rfl, rfl, (fun _ _ h => nomatch h), (show homeOf (one probeWave) (CfgRec.default.pwrBase + 0x1000 * 63 + 0x30) = .power by decide),
      (show CfgRec.default.pwrBase % 2 ^ 48 = CfgRec.default.pwrBase by decide), (show CfgRec.default.pwrBase + 2 ^ 36 < 2 ^ 48 by decide), fun i _ => none_staged rfl rfl _⟩,
    rfl, (fun _ _ h => nomatch h), rfl, by decide, plain_range rfl rfl rfl (by decide), by decide⟩
  have : homeOf (one probeWave) 64 ≠ .module m := by
    have h2 : isDevice (one probeWave) 64 = true := by decide
    intro h3
    simp [isDevice, h3] at h2
  exact absurd h this

/-! ### Witnesses: packets, gangs, power, ports and boot, the clauses with more premises -/

theorem witness_waitval_alone :
    ∀ cur ∈ [none, some (5, pkt 3)], let x : Queue := { que 3 with cur, busy := [(4, .wait 64 1 true)] }; let s := withQ x;
      kget s.queues s.unit = some x ∧ s.ctx? x.ctx = some ctx1 ∧ ctx1.st = .live ∧ x.denied = none ∧ x.busy = [(4, .wait 64 1 true)] ∧
      xlate { s with free := s.free + 1 } x.ctx 64 .read = .hit 64 ∧ PlainRange s 64 8 := by
  have h : ∀ cur ∈ [none, some (5, pkt 3)], xlate { withQ { que 3 with cur, busy := [(4, .wait 64 1 true)] } with free := 1 } 0 64 .read = .hit 64 := by
    decide +kernel
  exact fun cur hc => ⟨rfl, rfl, rfl, rfl, rfl, h cur hc, plain_range rfl rfl rfl (by decide +kernel)⟩

theorem witness_gangs_enter :
    (gangBlocks smallGrid 0).length * smallGrid.desc.waves ≤ privLeft placing smallGrid.ctx ∧
    headEnters placing 0 smallGrid (gangBlocks smallGrid 0).length = true := by decide +kernel

/-- The gang under its save, or saved, whose wave's private slot is at an address, or nowhere yet. -/
def savedGang (st : GangSt) (wst : WaveSt) (privPa : Option Nat) : State :=
  saving { gangIn st with evictTicks := 10000000 } quietBlock { vReady with st := wst, privPa }

theorem witness_private_slots_of_saved_gangs :
    (∀ p ∈ [none, some 0x2000000], let v : Wave := { vReady with privPa := p }; let s := savedGang .evicting .ready p;
      s.wave? s.unit = some v ∧ v.forced = false ∧ v.privPa = p ∧ (∀ a, v.privPa = some a → DeviceRange s a privSize) ∧
      s.gang? v.gang = some { gangIn .evicting with evictTicks := 10000000 } ∧ v.alive = true ∧ v.stack = [] ∧ v.st = .ready ∧ ctxLive s v.ctx = true ∧
      Untraced s v.ctx 5 ∧ s.mods.railsOff = false) ∧
    (∀ st ∈ [GangSt.saved, .evicting], let s := savedGang st .saved none; privGone s 0 = false) := by
  refine ⟨fun p hp => ⟨rfl, rfl, rfl, fun a ha => ?_, rfl, rfl, rfl, rfl, ?_, ?_, rfl⟩, by decide +kernel⟩
  · have : a = 0x2000000 := by
      revert ha
      revert hp
      simp only [List.mem_cons, List.not_mem_nil, or_false]
      rintro (rfl | rfl) <;> simp [eq_comm]
    subst this
    exact device_range rfl (by decide +kernel)
  · show ctxLive (savedGang .evicting .ready none) 0 = true
    decide +kernel
  · intro x hx
    cases hx
    rfl

theorem witness_cluster_power_further :
    (∀ ops ∈ [[], [(0x00, 1), (0x14, 1)]], let x := (clus { cl 2 with saving := true, heldOps := ops }).cluster 0; x.saving = true ∧ x.heldOps = ops) ∧
    (∀ st ∈ List.range 7, ∀ mv ∈ [505, 900], ((clus (cl st)).cluster 0).saving = false ∧ ((clus (cl st)).cluster 0).st = st ∧ mvOk mv = decide (mv = 900)) ∧
    (∀ near ∈ [false, true], ∀ rl ∈ [false, true], ∀ rv ∈ [false, true],
      let x := (clus { cl 5 with mv := 700, mvNow := if near then 690 else 0, rlBusy := rl, retValid := rv }).cluster 0;
      x.saving = false ∧ x.st = 5 ∧ railSettled false x.mv x.mvNow = near ∧ x.rlBusy = rl ∧ x.retValid = rv) ∧
    (∀ rv ∈ [false, true], let x := (clus { cl 6 with mv := 700, mvNow := 700, retValid := rv }).cluster 0;
      x.st = 6 ∧ railSettled false x.mv x.mvNow = true ∧ x.rlBusy = false ∧ x.retValid = rv) := by decide

theorem witness_rails_restored :
    ∀ near ∈ [false, true], ∀ wr ∈ [false, true], let y : Cluster := { cl 5 with mv := 700, mvNow := if near then 700 else 0, wasRun := wr }
      let s : State := { clus y with
        ctxs := [(0, { ctx1 with st := .emergency, saved := 2 })], stage := 5, tick := 1000000000
        mods := { ModRegs.reset with railsOff := true, coolSince := some 0 } }
      s.mods.coolSince = some 0 ∧ s.mods.railsOff = true ∧ 4 ≤ s.stage ∧ s.recovery = false ∧ 0 + 1000000000 ≤ s.tick.toNat ∧
      (∀ c, (s.cluster c).saving = false) ∧ (s.clusters.map Prod.fst).Nodup ∧ kget s.clusters 0 = some y ∧
      y.wasRun = wr ∧ railSettled false y.mv y.mvNow = near := by
  intro near hn wr hw
  have h : railSettled false 700 (if near then 700 else 0) = near := by revert hn; revert near; decide
  exact ⟨rfl, rfl, show 4 ≤ 5 by decide, rfl, show 0 + 1000000000 ≤ (1000000000 : DWord).toNat by decide, fun c => (by cases c <;> rfl), by simp [clus], rfl, rfl, h⟩

/-- A module whose port 0, which is up, is the path to module 0, the tick master. -/
def behind (m : ModRegs) : State := { ported { Port.reset with st := 2 } with
  cfg := { CfgRec.default with modid := 1, paths := [(0, [0])] }, tick := 10, mods := m }

theorem witness_ports_and_domain_further :
    (∀ st lanes, (ported { Port.reset with st, lanes }).recovery = false ∧ ((ported { Port.reset with st, lanes }).ports[(0 : Fin 16)]).lanes = lanes ∧
      ({ ported { Port.reset with st, lanes } with unit := 0 } : State).unit = (0 : Fin 16).val) ∧
    (∀ m : ModRegs, m.stopped = false → let s := behind m;
      tickMaster s ≠ s.cfg.modid ∧ hasPath s (tickMaster s) = true ∧ s.mods.stopped = false ∧ (9 : DWord).toNat ≤ s.tick.toNat ∧
      s.tick.toNat < (20 : DWord).toNat ∧ s.tick = 10 ∧ s.mods = m) ∧
    (let stops (m : ModRegs) : Prop := m.arm = true ∧ (10 : DWord).toNat ≤ m.stopTick.toNat ∧ m.stopTick.toNat < (20 : DWord).toNat;
      stops { ModRegs.reset with arm := true, stopTick := 15 } ∧ ¬ stops ModRegs.reset) := by
  have h : tickMaster (behind ModRegs.reset) = 0 ∧ hasPath (behind ModRegs.reset) 0 = true := by decide
  refine ⟨fun _ _ => ⟨rfl, rfl, rfl⟩, fun m hm => ⟨?_, ?_, hm, show (9 : DWord).toNat ≤ (10 : DWord).toNat by decide, show (10 : DWord).toNat < (20 : DWord).toNat by decide, rfl, rfl⟩, by decide, by decide⟩
  · show tickMaster (behind ModRegs.reset) ≠ 1
    rw [h.1]; decide
  · show hasPath (behind ModRegs.reset) (tickMaster (behind ModRegs.reset)) = true
    rw [h.1]; exact h.2

theorem witness_module_registers_further :
    (∀ stopped, let s : State := { State.reset with mods := { ModRegs.reset with stopped } };
      s.recovery = false ∧ s.mods.stopped = stopped ∧ s.mods.snapDue = false ∧ s.mods.clrDue = false ∧
      ∀ y ∈ s.clusters, y.2.pend = [] ∧ y.2.saving = false ∧ y.2.rlBusy = false) ∧
    (∀ d k, Instr.benchClock ≠ .hardTrip d k) :=
  ⟨fun _ => ⟨rfl, rfl, rfl, rfl, fun _ h => nomatch h⟩, fun _ _ => by simp⟩

theorem witness_boot_with_an_image :
    let s : State := { State.reset with stage := 2, flash := [(2, [1, 2, 3])] };
    s.recovery = false ∧ s.stage = 2 ∧ kget s.flash 2 = some [1, 2, 3] := ⟨rfl, rfl, rfl⟩

theorem witness_commands_further :
    (∀ k ∈ [0, 1], let x := cslot 0x30 [(18, 12), (31, BitVec.ofNat 8 k)];
      argsBad x = false ∧ Posted (mdl x) 0 x 0x30 ∧ (k = 0 → argNat x 24 8 < 2 ^ 56) ∧ (k = 1 → 2 ^ 56 ≤ argNat x 24 8)) ∧
    (vParked.frameHold0 ≠ .parked ∧ vParked.frameHold1 ≠ .parked) ∧
    (∀ near ∈ [false, true], ∀ rv ∈ [false, true],
      let k : Cluster := { cl 5 with mv := 700, mvNow := if near then 700 else 0, retValid := rv }; let x := cslot 0x51 [];
      Posted (mdl x [(0, ctx1)] [] k) 0 x 0x51 ∧ x.phase = 0 ∧ (mdl x [(0, ctx1)] [] k).cluster 0 = k ∧ k.st = 5 ∧ k.saving = false ∧
      (decide (k.mv ≤ k.mvNow + 10) && decide (k.mvNow ≤ k.mv + 10)) = near ∧ k.rlBusy = false ∧ k.retValid = rv) := by
  have h : argsBad (cslot 0x51 []) = false := by decide
  refine ⟨fun k hk => ?_, by decide, fun near hn rv hr => ⟨posted h (.inl rfl) _ _ _, rfl, rfl, rfl, rfl, ?_, rfl, rfl⟩⟩
  · have h : argsBad (cslot 0x30 [(18, 12), (31, BitVec.ofNat 8 k)]) = false := by revert hk; revert k; decide
    exact ⟨h, posted h (.inl rfl) _ _ _, by clear h; revert hk; revert k; decide, by clear h; revert hk; revert k; decide⟩
  · exact (show ∀ near : Bool, (decide (700 ≤ (if near then 700 else 0) + 10) && decide ((if near then 700 else 0) ≤ 700 + 10)) = near by decide) near

/-! ### Witnesses: commits, porters, copies, the matrix unit and inspection, the clauses with more premises -/

theorem witness_engines_write_records : probeWave.st ≠ .saved ∧ probeWave.alive = true := by decide

/-- A byte of module 1 is tracked: with an overflowed set no point of it matters, and with another the open point decides. -/
theorem witness_checked_system_commits :
    (∀ o, let t : Track := { Wave.noTrack false with bytes := [(64, 2 ^ 48)], overflow := o };
      Issues (oneC (vc t)) 0 0 (vc t) ∧ exIn (vc t) 0 x1 ≠ 0 ∧ (oneC (vc t)).sysCommits = [] ∧ LoadsRead (oneC (vc t)) 0 ∧
      (∃ y ∈ (vc t).trk.bytes, ∃ m, homeOf (oneC (vc t)) y.2 = .module m) ∧ CommitReady (oneC (vc t)) 0 (vc t) blockC gang1 4 id) ∧
    (∀ met, reasonOf { Wave.noTrack false with bytes := [(64, 2 ^ 48)], overflow := true, confDev := met } 3 ≠ 0) ∧
    (∀ met, reasonOf { Wave.noTrack false with bytes := [(64, 2 ^ 48)], confDev := false || met } 3 = if met then 1 else 0) := by
  refine ⟨fun o => ⟨(witness_commits_checks_and_aborts.1 _).1, show exIn probeWave 0 x1 ≠ 0 by decide, rfl, loads_read rfl, ⟨_, List.mem_cons_self, 1, ?_⟩,
    commit_ready _ 4⟩, by decide, by decide⟩
  show homeOf (oneC probeWave) (2 ^ 48) = .module 1
  decide

theorem witness_block_atomics_read_bytes (t : Track) :
    let s := withSys t []; let v := vc t;
    ∀ y ∈ laneOps s v (xa 0 2 0) .add false (realIn v 0 (xa 0 2 0)), ∀ j, j < 4 → stagedByte s (id y.at_ + j) = false ∧ ∃ p, xlate s v.ctx (y.at_ + j) .read = .hit p :=
  fun y hy j hj => ⟨none_staged rfl rfl _, (witness_atomics t).2.2.2.2.2.2.2.2.1 y hy j hj⟩

/-- A request to scalar 3 of a context's OPEN half, and one to the device level. -/
def reqTo (at_ : ReqHome) (ctx : Nat) : Req := { req1 true with at_, ctx }

theorem witness_porters_and_phases_further :
    (∀ holds phase, let s := serving holds phase; let r := req1 holds;
      reqHeld s r = false ∧ reqAway s r = false ∧ (∀ g a p, r.at_ ≠ .gang g a p)) ∧
    (let l : Cluster := { Cluster.reset with held := [reqTo (.dev 0x100000) 0, reqTo (.scalar 3) 0, reqTo (.dev 64) 7], ovf := [reqTo (.dev 0x100008) 0] };
      let c : Ctx := { ctx1 with phase := true, key := 5 };
      let s : State := { one probeWave with ctxs := [(0, c)], clusters := [(0, l)] };
      Issues s 0 0 probeWave ∧ Unwatched s probeWave ∧ s.ctx? probeWave.ctx = some c ∧ exIn probeWave 0 x1 ≠ 0 ∧ s.staged = [] ∧ s.sysCommits = [] ∧
      (∀ r ∈ s.hall, r.wave = 0 → r.holds = false) ∧ c.rec_.mode ≠ 2 ∧ c.phase = true ∧ (s.clusters.map Prod.fst).Nodup ∧
      ∀ y ∈ s.clusters, ∀ r ∈ (y.2.held.filter fun r => decide (r.ctx = probeWave.ctx)) ++ y.2.ovf.filter fun r => decide (r.ctx = probeWave.ctx),
        (∃ pa, r.at_ = .dev pa ∧ ∀ j, j < r.size → isDevice s (pa + j) = true) ∨ ∃ n, n < 16 ∧ r.at_ = .scalar n) := by
  refine ⟨fun holds phase => ⟨?_, ?_, fun _ _ _ => by simp [req1]⟩, ⟨by decide, rfl, rfl, by decide, rfl, pw_issues.quiet, rfl⟩, pw_issues.quiet, rfl, by decide,
    rfl, rfl, (fun _ h => nomatch h), by decide, rfl, by decide, fun y hy r hr => ?_⟩
  · revert holds phase
    decide +kernel
  · revert holds phase
    decide +kernel
  · cases List.mem_singleton.1 hy
    have h : r = reqTo (.dev 0x100000) 0 ∨ r = reqTo (.scalar 3) 0 ∨ r = reqTo (.dev 0x100008) 0 := by
      have h0 : probeWave.ctx = 0 := rfl
      simpa [reqTo, req1, h0] using hr
    rcases h with rfl | rfl | rfl
    · exact .inl ⟨_, rfl, fun j hj => device_here rfl (show 0x100000 + j < 0x9000000000 by have : j < 4 := hj; omega)⟩
    · exact .inr ⟨3, by decide, rfl⟩
    · exact .inl ⟨_, rfl, fun j hj => device_here rfl (show 0x100008 + j < 0x9000000000 by have : j < 4 := hj; omega)⟩

theorem witness_copies_with_arrivals : ∀ b n, (xcp 4 b n).aux.mSub.getLsbD 2 = true ∧ OtherIdle probeWave 0 :=
  fun _ _ => ⟨show (4 : BitVec 7).getLsbD 2 = true by decide, fun h => absurd h (by decide)⟩

theorem witness_matrix_steps_run :
    (∀ k ∈ [0, 512], ∀ zero, let m : MatStep := { mst0 with zero, ran := k }; let s := sq bH [(0, [m])];
      kgetD s.matrix s.unit [] = [m] ∧ s.block? m.blk = some bH ∧ s.ctx? bH.ctx = some ctx1 ∧
      (let clocks := if m.zero then 0 else fmtBits (handle bH m.oa).fmt * (if fmtBits (handle bH m.ob).fmt ≤ 8 then 1 else 2) * m.n;
        (k = 512 → clocks ≤ m.ran ∧ stepClocks bH m ≤ m.ran) ∧ (k = 0 → zero = false → m.ran < clocks))) ∧
    ∀ n, (watchUnit (sq bH) (blockCore bH) n).arm = false :=
  ⟨fun k hk zero => ⟨rfl, rfl, rfl, by revert hk; cases zero <;> revert k <;> decide⟩, fun _ => by
    simp only [watchUnit, sq, one, oneOf, State.reset, kgetD, kget, Option.getD_none]; decide⟩

theorem witness_unit_words_in_order :
    (∀ u b, Readable probeWave (⟨40, min (if (handle bH 1).live then 16 else 1) (levelSize oneH probeWave.grid (.m 0) - opdIdx (.m 0)), exIn probeWave 0 (xob u b), false⟩ ::
      needOf uni1 (xob u b).b (exIn probeWave 0 (xob u b)) false)) ∧
    (∀ t ∈ [0, 1, 3], ∃ g, descOf oneH probeWave.grid = some g ∧ t < g.tiles) ∧ (let s := oneOf { probeGrid with desc := { probeGrid.desc with tiles := 8 } } probeWave;
      Issues s 0 0 probeWave ∧ ∃ g, descOf s probeWave.grid = some g ∧ g.tiles ≤ 8) ∧
    ((kgetD bH.tiles 0 .lost).st = .full ∧ 16 < (src oneH probeWave (some (.lit 16)) 0).toNat + 1) := by
  refine ⟨fun u b => high_readable rfl fun k hk => ?_, fun t ht => ⟨_, rfl, ?_⟩, ⟨⟨by decide, rfl, rfl, by decide, rfl, pw_issues.quiet, rfl⟩, _, rfl, by decide⟩, by decide⟩
  · rcases List.mem_cons.1 hk with rfl | h
    · exact Nat.le_refl 40
    · exact needOf_high (o := some (.lit b)) rfl k h
  · revert t
    decide

theorem witness_inspection_further :
    (let s := waiting (.hstep 1 0 none 0 0); gridEnds s vHalt.grid = false ∧ (vWaits.slot 0).hold = .inspect 1 0 none (some (.n 0)) 1 0) ∧
    (vHalt.slot0.live = true ∨ vHalt.slot1.live = true) ∧
    ∀ lane ∈ [none, some 5], let y : Wave := { probeWave with slot0 := { probeWave.slot0 with hold := .inspect 0 0 lane none 1 0 } };
      let s : State := { bench [(0, probeWave), (1, y)] with tick := 65536 };
      inspectorsOf s 0 0 = [(1, 0)] ∧ s.wave? 1 = some y ∧ (y.slot 0).hold = .inspect 0 0 lane none 1 0 ∧ 0 + 65536 ≤ s.tick.toNat := by
  refine ⟨by decide, by decide, fun lane hl => ⟨?_, rfl, rfl, show 0 + 65536 ≤ (65536 : DWord).toNat by decide⟩⟩
  revert lane
  decide

theorem witness_retried_words :
    (let v : Wave := { probeWave with slot0 := { probeWave.slot0 with entry := some 2 }, late := [⟨9, 0, 0, 0, 0, false, true, some 0, 1⟩] };
      let s := turn (one v) (.wave 0 0);
      WaveTurn s { s with agenda := [] } 0 0 v (.word nopWord) ∧ ((v.slot 0).entry = none → v.late = []) ∧
      issueWord (envOf { s with agenda := [] } 0 0 false) nopWord = .ok (.nop nopBody)) ∧
    (let v : Wave := { probeWave with late := [⟨9, 0, 0, 0, 0, false, true, some 1, 1⟩] }; let s := turn (one v) (.wave 0 0);
      WaveTurn s { s with agenda := [] } 0 0 v (.word nopWord) ∧ (v.slot 0).entry = none) :=
  ⟨⟨⟨⟨_, rfl, rfl⟩, rfl, isWord_eq (by decide +kernel)⟩, fun h => (by cases h), okIs_eq (by decide +kernel)⟩,
    ⟨⟨_, rfl, rfl⟩, rfl, isWord_eq (by decide +kernel)⟩, rfl⟩

end Sys2Proof.Tests
end

section
/-! PROOF. What ABORT.WAVE leaves to the wave's later loads (O44), and where an arrival at a block barrier stands (O54). -/

namespace Sys2Proof.Laws

open Sys2Proof Sys2Proof.Machine Sys2Proof.Safety

/-! ### What an update leaves at its own key -/

theorem onlyWave_wave {s t : State} {w : Nat} {v' : Wave} (h : OnlyWave s t w v') : t.wave? w = some v' := h.2.1

theorem modBlock_block_self {s : State} {bk : Nat} {b : Block} (hb : s.block? bk = some b) (f : Block → Block) :
    (s.modBlock bk f).block? bk = some (f b) := by
  unfold State.block? at hb ⊢
  simp [State.modBlock, hb]

/-! ### The wave once its slot has moved on -/

@[simp] theorem jumped_bufD (v : Wave) (sl : Nat) (pc : Word) : (jumped v sl pc).bufD = v.bufD := by simp [jumped]
@[simp] theorem jumped_bufS (v : Wave) (sl : Nat) (pc : Word) : (jumped v sl pc).bufS = v.bufS := by simp [jumped]

/-- A wave with empty buffers and an empty tracked set (R81). -/
def emptied (v : Wave) : Wave := { v with bufD := [], bufS := [], trk := Wave.noTrack false }

theorem emptied_slot (v : Wave) (sl : Nat) : (emptied v).slot sl = v.slot sl := by
  unfold Wave.slot; split <;> rfl

/-- Emptying the buffers and moving a slot on commute. -/
theorem moved_emptied (v : Wave) (sl : Nat) : moved (emptied v) sl = emptied (moved v sl) := by
  unfold moved jumped
  rw [emptied_slot]
  unfold Wave.setSlot
  split <;> rfl

/-! ### ABORT.WAVE (R81, R260) -/

/-- ABORT.WAVE with an executing lane empties its wave and moves its slot on. -/
theorem abortWave_becomes {s : State} {w sl : Nat} {v : Wave} {x : Body} (hI : Issues s w sl v) (hex : exIn v sl x ≠ 0) :
    WaveBecomes (.abortWave x) s w (emptied (moved v sl)) := by
  let i := issOf .abortWave x w sl v
  have hempty : OnlyWave s (abortWave s w) w (emptied v) := onlyWave_modWave hI.wave emptied
  have hmove : OnlyWave (abortWave s w) (advance i (abortWave s w)) w (moved (emptied v) sl) :=
    advance_is (onlyWave_wave hempty) i rfl (by rw [emptied_slot]; rfl)
  have hrun : exec (.abortWave x) s = .next (wordEnd x i s (abortWave s w) id) := by
    rw [exec_abortWave, execAbortWave, wholeOp, withWave_issues hI]
    exact congrArg _ (if_neg hex)
  rw [← moved_emptied]
  exact becomes_of hI (j := i) rfl hrun (onlyWave_trans hempty hmove) (by simp [moved, emptied]) (by simp [moved, emptied])
    (by simp [moved, emptied])

/-! ### An element that finds nothing in the wave's own buffer (R66, R70) -/

/-- An element issued with empty buffers takes no byte of its own. -/
theorem issueElem_own_of_empty {i : Iss} (hD : i.v.bufD = []) (hS : i.v.bufS = []) (u : State) (scratch mis : Bool)
    (acc : Nat × Nat) (e : Elem) : (issueElem u i scratch mis acc e).own = List.replicate e.ext.size none := by
  cases scratch <;> simp [issueElem, hD, hS, kget]

/-- A byte above the wave's own buffer: its block's scratchpad, its trap frame, or the pools and the device level. -/
def levelByte (s : State) (v : Wave) (scratch : Bool) (a : Nat) : Byte :=
  if scratch then (match s.block? v.blk with | some b => scratchByte b a | none => 0)
  else match inFrame s v a with
    | some off => kgetD v.frame off 0
    | none => (poolByte s v (a % 2 ^ 72)).2

theorem levelByte_scratch {s : State} {v : Wave} {b : Block} (hb : s.block? v.blk = some b) (a : Nat) :
    levelByte s v true a = kgetD b.scratch a 0 := by
  simp [levelByte, hb, scratchByte]

theorem levelByte_device {s : State} {v : Wave} {a : Nat} (h : inFrame s v a = none) :
    levelByte s v false a = (poolByte s v (a % 2 ^ 72)).2 := by
  simp [levelByte, h]

/-- An element issued with empty buffers reads each of its bytes above them. -/
theorem sampleItem_of_empty {i : Iss} (hD : i.v.bufD = []) (hS : i.v.bufS = []) (u : State) (scratch mis : Bool)
    (acc : Nat × Nat) (e : Elem) :
    sampleItem u i.v (issueElem u i scratch mis acc e) =
      leNat ((List.range e.ext.size).map fun j => levelByte u i.v scratch (e.ea + j)) := by
  unfold sampleItem
  refine congrArg leNat (List.map_congr_left fun j hj => ?_)
  have hj : j < e.ext.size := List.mem_range.1 hj
  have hown : ((issueElem u i scratch mis acc e).own[j]?).join = none := by
    simp [issueElem_own_of_empty hD hS, hj]
  rw [hown]
  rfl

/-- A byte that the block's pool holds is read from there. -/
theorem poolByte_of_pool {u : State} {v : Wave} {b : Block} {va pa : Nat} (hb : u.block? v.blk = some b)
    (hp : (kget b.pool va).isSome = true) (hx : xlate u v.ctx va .read = .hit pa) :
    (poolByte u v va).2 = kgetD b.pool va 0 := by
  obtain ⟨y, hy⟩ := Option.isSome_iff_exists.1 hp
  simp [poolByte, hb, hy, hx, kgetD]

/-- A scratchpad element issued with empty buffers reads its block's scratchpad. -/
theorem sampleItem_scratch {u : State} {i : Iss} {b : Block} (hD : i.v.bufD = []) (hS : i.v.bufS = [])
    (hb : u.block? i.v.blk = some b) {e : Elem} (he : e.ea + e.ext.size ≤ 2 ^ 72) (mis : Bool) (acc : Nat × Nat) :
    sampleItem u i.v (issueElem u i true mis acc e) =
      leNat ((List.range e.ext.size).map fun j => kgetD b.scratch ((e.ea + j) % 2 ^ 72) 0) := by
  rw [sampleItem_of_empty hD hS]
  refine congrArg leNat (List.map_congr_left fun j hj => ?_)
  have hj := List.mem_range.1 hj
  have hmod : (e.ea + j) % 2 ^ 72 = e.ea + j := Nat.mod_eq_of_lt (by omega)
  rw [levelByte_scratch hb, hmod]

/-- A device element issued with empty buffers reads its block's pool where that holds its bytes. -/
theorem sampleItem_pool {u : State} {i : Iss} {b : Block} (hD : i.v.bufD = []) (hS : i.v.bufS = [])
    (hb : u.block? i.v.blk = some b) {e : Elem}
    (he : ∀ j, j < e.ext.size → inFrame u i.v (e.ea + j) = none ∧ (kget b.pool ((e.ea + j) % 2 ^ 72)).isSome = true ∧
      ∃ pa, xlate u i.v.ctx ((e.ea + j) % 2 ^ 72) .read = .hit pa) (mis : Bool) (acc : Nat × Nat) :
    sampleItem u i.v (issueElem u i false mis acc e) =
      leNat ((List.range e.ext.size).map fun j => kgetD b.pool ((e.ea + j) % 2 ^ 72) 0) := by
  rw [sampleItem_of_empty hD hS]
  refine congrArg leNat (List.map_congr_left fun j hj => ?_)
  obtain ⟨hframe, hpool, pa, hpa⟩ := he j (List.mem_range.1 hj)
  rw [levelByte_device hframe, poolByte_of_pool hb hpool hpa]

/-- Settles O44: the word is the emptying and the move of the slot, and an element that finds an empty buffer reads the
block's scratchpad or pool. -/
theorem abortWaveDiscardsTheWaveBuffer : Obligations.AbortWaveDiscardsTheWaveBuffer := by
  unfold Obligations.AbortWaveDiscardsTheWaveBuffer
  intro s w sl v x hI hex
  obtain ⟨t, hrun, honly⟩ := abortWave_becomes hI hex
  refine ⟨t, _, hrun, honly, rfl, fun u i mis acc e b hD hS hb => ⟨fun he => ?_, fun he => ?_⟩⟩
  · exact congrArg some (sampleItem_scratch hD hS hb he mis acc)
  · exact congrArg some (sampleItem_pool hD hS hb he mis acc)

/-! ### An arrival's checks and its gate (R86, R87, R415) -/

/-- A context that is neither recorded nor replayed holds no entry at a gate. -/
theorem gateOne_unrecorded {s : State} {c : Nat} (h : Unrecorded s c) (key grid : Nat) (iss : Word) (hash : DWord) :
    gateOne s c key grid iss hash = .pass s := by
  unfold gateOne
  cases hc : s.ctx? c with
  | none => rfl
  | some y => simp [h y hc]

theorem otherCommits_idle {v : Wave} {sl : Nat} (h : OtherIdle v sl) (o : Op) (x : Body) (w : Nat) :
    otherCommits (issOf o x w sl v) = false := by
  show ((v.slot (1 - sl)).live && _) = false
  cases hl : (v.slot (1 - sl)).live with
  | false => rfl
  | true =>
    obtain ⟨hentry, hhold⟩ := h hl
    unfold issOf Iss.other
    rw [hentry]
    split
    · exact absurd ‹_› (hhold _)
    · rfl

/-- An arrival that fails no check of R86 passes the model's checks. -/
theorem barChecks_pass {b : Block} {n : Fin 16} {party : Nat} {m : BitVec 17} (h : ¬ ArrivalBad b n party m) :
    (barBad b n party m || barMaskBad b.bars[n] m) = false := by
  simp only [ArrivalBad, not_or, not_and, Bool.not_eq_true, Bool.not_eq_false, Nat.not_le] at h
  obtain ⟨hzero, hown, hmembers, hseq, harrived, hpending, hmask⟩ := h
  have hdiv : m.toNat % 2 ^ 16 / 2 ^ b.waves.length = 0 := Nat.div_eq_of_lt hmembers
  simp only [barBad, barIssueBad, barMaskBad, barWaits, hdiv, hzero, hown, harrived, hpending]
  cases h16 : m.getLsbD 16 <;> simp_all

/-- An arrival that fails no check of R86 acts on its block. -/
theorem barEnter_good {s : State} {bk : Nat} {b : Block} (hb : s.block? bk = some b) {n : Fin 16} {party : Nat} {m : BitVec 17}
    (h : ¬ ArrivalBad b n party m) : barEnter s bk n party m = some (s.modBlock bk fun b => barApply b n party m) := by
  unfold barEnter
  rw [hb]
  exact if_neg (by rw [barChecks_pass h]; decide)

/-! ### What an arrival does to its block (R87, R129, R348) -/

/-- What an arrival changes of its block: the barrier word, the order's stamp, and, where it completes a phase, the window of
its sequencer. -/
theorem barApply_frame (b : Block) (n : Fin 16) (party : Nat) (m : BitVec 17) :
    { barApply b n party m with
      doneAt := b.doneAt, window := b.window, pre := b.pre, saved := b.saved, snapAt := b.snapAt, seq := b.seq } =
    { b with bars := b.bars.set n (barArrive b.bars[n] party m), stamp := b.stamp + 1 } := by
  unfold barApply
  simp only
  split
  · rfl
  · split
    · unfold moveSnap; split <;> rfl
    · rfl

/-- A barrier word whose arrived set becomes the mask is cleared, and its phase advances. -/
theorem barArrive_completes {b : BarWord} {party : Nat} {m : BitVec 17} (h : Completes b party m) :
    barArrive b party m = { b with mask := 0, arrived := 0, phase := b.phase + 1 } := if_pos h

/-- Any other arrival joins the barrier word. -/
theorem barArrive_joins {b : BarWord} {party : Nat} {m : BitVec 17} (h : ¬ Completes b party m) :
    barArrive b party m =
      { b with mask := m, arrived := (if b.mask = 0 then 0 else b.arrived) ||| BitVec.ofNat 17 (2 ^ party) } := if_neg h

/-! ### Where an arrival stands (R87) -/

/-- The arrival of one party is made where the block is as the arrival leaves it but for its sequencer, and no level below or
above the block's changes. -/
theorem arrivalMade_of {s t : State} {bk : Nat} {b : Block} {n : Fin 16} {party : Nat} {m : BitVec 17} {q : Sequencer}
    (hblock : t.block? bk = some { barApply b n party m with seq := q }) (hmem : t.mem = s.mem) (hgangs : t.gangs = s.gangs)
    (hbufs : ∀ k v, s.wave? k = some v → ∃ v', t.wave? k = some v' ∧ v'.bufD = v.bufD ∧ v'.bufS = v.bufS) :
    ArrivalMade s t bk b n party m := by
  have hframe := barApply_frame b n party m
  have hbars : (barApply b n party m).bars = b.bars.set n (barArrive b.bars[n] party m) := (congrArg Block.bars hframe :)
  have hword : (barApply b n party m).bars[n] = barArrive b.bars[n] party m := by simp [hbars]
  refine ⟨_, hblock, (congrArg Block.stamp hframe :), (congrArg Block.pool hframe :), (congrArg Block.scratch hframe :),
    hmem, hgangs, hbufs, fun k hk => ?_, fun hc => ?_, fun hc => ?_⟩
  · have hne : n.val ≠ k.val := fun h => hk (Fin.ext h.symm)
    simp [hbars, hne]
  · exact (hword.trans (barArrive_completes hc)) ▸ ⟨rfl, rfl, rfl⟩
  · exact (hword.trans (barArrive_joins hc)) ▸ ⟨rfl, rfl, rfl⟩

/-- The arrival of a wave is made where, besides the arrival, only the wave changes, and not its buffers. -/
theorem arrivalMade_of_onlyWave {s t : State} {bk w : Nat} {b : Block} {n : Fin 16} {party : Nat} {m : BitVec 17} {v v' : Wave}
    (hb : s.block? bk = some b) (hw : s.wave? w = some v)
    (h : OnlyWave (s.modBlock bk fun b => barApply b n party m) t w v') (hD : v'.bufD = v.bufD) (hS : v'.bufS = v.bufS) :
    ArrivalMade s t bk b n party m := by
  obtain ⟨hframe, hself, hothers⟩ := h
  have hblocks : t.blocks = (s.modBlock bk fun b => barApply b n party m).blocks := (congrArg State.blocks hframe :)
  have hblock : t.block? bk = some (barApply b n party m) := by
    unfold State.block?
    rw [hblocks]
    exact modBlock_block_self hb _
  refine arrivalMade_of hblock (congrArg State.mem hframe :) (congrArg State.gangs hframe :) fun k u hu => ?_
  by_cases hk : k = w
  · subst hk
    obtain rfl : v = u := Option.some.inj (hw.symm.trans hu)
    exact ⟨v', hself, hD, hS⟩
  · exact ⟨u, (hothers k hk).trans hu, rfl, rfl⟩

/-! ### BARA and BARS (R270) -/

/-- A wave's arrival that nothing holds back and that fails no check acts on its block, and the word goes on. -/
theorem arrive_good {s : State} {w sl : Nat} {v : Wave} {b : Block} {o : Op} {x : Body} (hidle : OtherIdle v sl)
    (hrec : Unrecorded s v.ctx) (hb : s.block? v.blk = some b)
    (h : ¬ ArrivalBad b (barNum x) v.idx (maskSrc s (issOf o x w sl v) x.a)) (k : State → State) :
    arrive x (issOf o x w sl v) s k =
      k (s.modBlock v.blk fun b => barApply b (barNum x) v.idx (maskSrc s (issOf o x w sl v) x.a)) := by
  have hgate := gateOne_unrecorded hrec
  have henter := barEnter_good hb h
  unfold arrive
  rw [otherCommits_idle hidle]
  simp only [Bool.false_eq_true, ↓reduceIte]
  rw [show (issOf o x w sl v).v = v from rfl, hgate]
  simp only [henter]

/-- Between two states of a wave its buffers stand, and so does what watch units and a gang halt follow it by. -/
structure KeepsBufs (v v' : Wave) : Prop where
  bufD : v'.bufD = v.bufD
  bufS : v'.bufS = v.bufS
  place : v'.place = v.place
  ctx : v'.ctx = v.ctx
  gangHalt : v'.gangHalt = v.gangHalt

theorem KeepsBufs.trans {v v' v'' : Wave} (h : KeepsBufs v v') (k : KeepsBufs v' v'') : KeepsBufs v v'' :=
  ⟨k.bufD.trans h.bufD, k.bufS.trans h.bufS, k.place.trans h.place, k.ctx.trans h.ctx, k.gangHalt.trans h.gangHalt⟩

theorem keepsBufs_moved (v : Wave) (sl : Nat) : KeepsBufs v (moved v sl) := by
  constructor <;> simp [moved]

theorem keepsBufs_markSeam (v : Wave) (lanes : Mask) (sh : BitVec 8) (sn : BitVec 32) : KeepsBufs v (markSeam v lanes sh sn) :=
  ⟨rfl, rfl, rfl, rfl, rfl⟩

theorem keepsBufs_waitsAt (s : State) (v : Wave) (sl : Nat) (c : WaitCond) : KeepsBufs v (waitsAt s v sl c) := by
  unfold waitsAt
  simp only
  split <;> constructor <;> simp

/-- The end of a word that follows no watch unit changes nothing more. -/
theorem ends_onlyWave {s u t : State} {w sl : Nat} {v v' : Wave} (hI : Issues s w sl v) (hwatch : u.watch = s.watch) {i : Iss}
    (hi : i.w = w) (h : OnlyWave u t w v') (hv : KeepsBufs v v') (k : Seen) :
    OnlyWave u (countGangHalt (watchWord i t k) i) w v' := by
  rw [ends_silent hI hi (onlyWave_wave h) ((onlyWave_watch h).trans hwatch) hv.place hv.ctx hv.gangHalt]
  exact h

/-- A word that only ends changes its wave alone, and not its buffers. -/
theorem wordEnd_onlyWave {s u : State} {w sl : Nat} {v : Wave} (hI : Issues s w sl v) (hu : u.wave? w = some v)
    (hwatch : u.watch = s.watch) (o : Op) (x : Body) (k : Seen → Seen) :
    OnlyWave u (wordEnd x (issOf o x w sl v) s u k) w (moved v sl) :=
  ends_onlyWave hI hwatch rfl (advance_is hu (issOf o x w sl v) rfl rfl) (keepsBufs_moved v sl) _

/-- A slot that a seam holds waits as the claims say. -/
theorem hold_is_waitsAt (s : State) (v : Wave) (sl : Nat) (c : WaitCond) :
    (({ v with lastSlot := sl }.modSlot sl fun a => { a.awake with hold := .seam c }).seamWait s.tick.toNat) = waitsAt s v sl c := by
  by_cases h0 : sl = 0 <;>
    simp only [waitsAt, Wave.seamWait, Wave.modSlot, Wave.setSlot, Wave.slot, h0, ↓reduceIte] <;> rfl

/-- A seam marks its wave's entries, and then the slot goes on or is held. -/
theorem seam_goes_or_holds (x : Body) (i : Iss) (s0 s : State) (c : Option WaitCond) :
    let s1 := s.modWave i.w fun v => markSeam v i.slot.mask x.aux.sSh x.aux.sSn
    Machine.seam x i s0 s c = wordDone x i s0 (advance i s1) ∨
    Machine.seam x i s0 s c = wordDone x i s0 (s1.modWave i.w fun v =>
      ({ v with lastSlot := i.sl }.modSlot i.sl fun a => { a.awake with hold := .seam (c.getD .ready) }).seamWait s.tick.toNat) :=
  (ite_eq_or_eq _ _ _).imp (congrArg (wordDone x i s0)) (congrArg (wordDone x i s0))

/-- A seam changes its wave alone, and not its buffers, whether it goes on or waits. -/
theorem seam_onlyWave {s u : State} {w sl : Nat} {v : Wave} (hI : Issues s w sl v) (hu : u.wave? w = some v)
    (hwatch : u.watch = s.watch) (o : Op) (x : Body) (c : Option WaitCond) :
    ∃ v', OnlyWave u (Machine.seam x (issOf o x w sl v) s u c) w v' ∧ KeepsBufs v v' := by
  let i := issOf o x w sl v
  let marked := markSeam v i.slot.mask x.aux.sSh x.aux.sSn
  have hkeep : KeepsBufs v marked := keepsBufs_markSeam v _ _ _
  have hmark : OnlyWave u (u.modWave w fun v => markSeam v i.slot.mask x.aux.sSh x.aux.sSn) w marked := onlyWave_modWave hu _
  rcases seam_goes_or_holds x i s u c with h | h <;> rw [h]
  · have hgo := hkeep.trans (keepsBufs_moved marked sl)
    exact ⟨_, ends_onlyWave hI hwatch rfl (onlyWave_trans hmark (advance_is (onlyWave_wave hmark) i rfl rfl)) hgo _, hgo⟩
  · have hwait := hkeep.trans (keepsBufs_waitsAt u marked sl (c.getD .ready))
    have hold := onlyWave_modWave (onlyWave_wave hmark) fun v =>
      ({ v with lastSlot := sl }.modSlot sl fun a => { a.awake with hold := .seam (c.getD .ready) }).seamWait u.tick.toNat
    rw [hold_is_waitsAt] at hold
    exact ⟨_, ends_onlyWave hI hwatch rfl (onlyWave_trans hmark hold) hwait _, hwait⟩

/-- A word that arrives, and then changes only its wave and not the wave's buffers, has its arrival made. -/
theorem word_arrives {s : State} {w sl : Nat} {v : Wave} {b : Block} {ins : Instr} {o : Op} {x : Body} {k0 : Iss → State}
    {k : Iss → State → State} (hrun : exec ins s = wordOp o x s fun i => if i.ex = 0 then k0 i else arrive x i s (k i))
    (hI : Issues s w sl v) (hidle : OtherIdle v sl) (hex : exIn v sl x ≠ 0) (hrec : Unrecorded s v.ctx)
    (hs : SourcesFull o x v sl) (hb : s.block? v.blk = some b)
    (h : ¬ ArrivalBad b (barNum x) v.idx (maskSrc s (issOf o x w sl v) x.a))
    (hk : ∀ u : State, u.wave? w = some v → u.watch = s.watch →
      ∃ v', OnlyWave u (k (issOf o x w sl v) u) w v' ∧ KeepsBufs v v') :
    ∃ t, exec ins s = .next t ∧ ArrivalMade s t v.blk b (barNum x) v.idx (maskSrc s (issOf o x w sl v) x.a) := by
  obtain ⟨v', honly, hkeep⟩ :=
    hk (s.modBlock v.blk fun b => barApply b (barNum x) v.idx (maskSrc s (issOf o x w sl v) x.a)) hI.wave rfl
  refine ⟨_, ?_, arrivalMade_of_onlyWave hb hI.wave honly hkeep.bufD hkeep.bufS⟩
  rw [hrun, wordOp_issues hI _ hs]
  exact congrArg _ ((if_neg hex).trans (arrive_good hidle hrec hb h _))

/-! ### MSIG (R288) -/

/-- A core whose watch units are off, or of other contexts, meets no match. -/
theorem watchHits_unarmed {s : State} {core c : Nat}
    (h : ∀ n, n < 16 → (watchUnit s core n).arm = false ∨ (watchUnit s core n).ctx ≠ c) (k now : Seen) :
    watchHits s core c k now = [] := by
  have hunit : ∀ n, n < 16 → unitMatch (watchUnit s core) c k n = 0 := by
    intro n hn
    cases n <;> rcases h _ hn with harm | hctx <;> simp [unitMatch, *]
  unfold watchHits
  split
  · rfl
  · simp only [List.filterMap_eq_nil_iff, List.mem_range]
    exact fun n hn => by simp [hunit n hn]

/-- A sequencer's word that no watch unit follows changes nothing more. -/
theorem watchSeq_silent {s : State} {bk : Nat} {b : Block} (hb : s.block? bk = some b)
    (h : ∀ n, n < 16 → (watchUnit s (blockCore b) n).arm = false ∨ (watchUnit s (blockCore b) n).ctx ≠ b.ctx) (k now : Seen)
    (pc : Word) : watchSeq s bk k now pc = s := by
  have hhits := watchHits_unarmed h k now
  unfold blockCore at hhits
  simp [watchSeq, hb, hhits, topAction]

/-- A sequencer's move past its word changes its block's sequencer. -/
theorem seqNext_block {s : State} {bk : Nat} {b : Block} (hb : s.block? bk = some b) :
    (seqNext s bk).block? bk = some { b with seq := { b.seq with pc := b.seq.pc + 16, waits := false } } :=
  modBlock_block_self hb _

theorem withSeq_issues {s : State} {bk : Nat} {b : Block} (h : SeqIssues s bk b) (k : SIss → State) :
    withSeq s k = .next (k ⟨bk, b⟩) := by
  simp [withSeq, h.cur, h.block, h.run]

/-- A sequencer's word that leaves its block in the same place and context is done once its PC has moved on. -/
theorem seqDone_silent {s u : State} {bk : Nat} {b y : Block} (hI : SeqIssues s bk b) (hu : u.block? bk = some y)
    (hwatch : u.watch = s.watch) (hcore : blockCore y = blockCore b) (hctx : y.ctx = b.ctx) (mem : List (Nat × Nat × Nat × Nat × Bool))
    (vals : List (Nat × Word)) : seqDone u ⟨bk, b⟩ mem vals = seqNext u bk := by
  refine watchSeq_silent (seqNext_block hu) (fun n hn => ?_) _ _ _
  have hquiet := hI.quiet n hn
  rw [← hcore, ← hctx] at hquiet
  unfold watchUnit at hquiet ⊢
  rw [show (seqNext u bk).watch = s.watch from hwatch]
  exact hquiet

/-- MSIG's arrival is made. -/
theorem msig_arrives {s : State} {bk : Nat} {b : Block} {x : Body} (hI : SeqIssues s bk b) (hrec : Unrecorded s b.ctx)
    (h : ¬ ArrivalBad b (seqBar x) 16 ((seqSrc b x.a).extractLsb' 0 17)) :
    ∃ t, exec (.msig x) s = .next t ∧ ArrivalMade s t bk b (seqBar x) 16 ((seqSrc b x.a).extractLsb' 0 17) := by
  let m : BitVec 17 := (seqSrc b x.a).extractLsb' 0 17
  let u := s.modBlock bk fun b => barApply b (seqBar x) 16 m
  have hframe := barApply_frame b (seqBar x) 16 m
  have hblock : u.block? bk = some (barApply b (seqBar x) 16 m) := modBlock_block_self hI.block _
  have hcore : blockCore (barApply b (seqBar x) 16 m) = blockCore b := (congrArg blockCore hframe :)
  have hrun : exec (.msig x) s = .next (seqNext u bk) := by
    rw [exec_msig, execMsig, withSeq_issues hI, seqGated, gateOne_unrecorded hrec]
    simp only [barEnter_good hI.block h]
    exact congrArg _ (seqDone_silent hI hblock rfl hcore (congrArg Block.ctx hframe :) [] [])
  have hnext := seqNext_block hblock
  exact ⟨_, hrun, arrivalMade_of hnext rfl rfl fun k v hv => ⟨v, hv, rfl, rfl⟩⟩

/-- Settles O54: each of the three words makes its arrival at one point, and what follows in the word touches neither the
block's order nor a buffer. BARS checks the sources that BARA checks. -/
theorem arrivalsCompleteTheirPhase : Obligations.ArrivalsCompleteTheirPhase := by
  unfold Obligations.ArrivalsCompleteTheirPhase
  refine ⟨fun s w sl v x b hI hidle hex hrec hs hb hgood => ⟨?_, ?_⟩, fun s bk b x hI _ hrec hgood => ?_⟩
  · exact word_arrives (exec_bara x s) hI hidle hex hrec hs hb hgood fun u hu hwatch =>
      ⟨_, wordEnd_onlyWave hI hu hwatch .bara x id, keepsBufs_moved v sl⟩
  · have hsBars : SourcesFull .bars x v sl := hs
    exact word_arrives (exec_bars x s) hI hidle hex hrec hsBars hb hgood fun u hu hwatch =>
      seam_onlyWave hI hu hwatch .bars x _
  · exact msig_arrives hI hrec hgood

end Sys2Proof.Laws
end

section
/-! PROOF. The class of an F32 code under FCLASS, and the exact narrowed sum of IDOT4 (O16). -/

namespace Sys2Proof.Laws

open Sys2Proof Sys2Proof.Machine Sys2Proof.Safety

/-! ### The class of a code (R225) -/

/-- An F32 code whose exponent field is zero has the value of its fraction field. -/
theorem decodeF_f32_of_exponent_zero {c : Nat} (he : c / 2 ^ 23 % 2 ^ 8 = 0) :
    decodeF .f32 c = .fin (c / 2 ^ 31 % 2 = 1) (c % 2 ^ 23) (2 ^ 149) := by
  have hplain : decodeF .f32 c = decodePlain .f32 c := rfl
  rw [hplain, decodePlain]
  simp only [fmtEMB, fmtInf, he]
  rfl

/-- A finite non-zero F32 code is subnormal exactly where its exponent field is zero. -/
theorem subnormal_f32_of_fin {c n d : Nat} {neg : Bool} (h : decodeF .f32 c = .fin neg n d) (hn : n ≠ 0) :
    subnormal .f32 c = true ↔ c / 2 ^ 23 % 2 ^ 8 = 0 := by
  have hfields : subnormal .f32 c = (decide (c / 2 ^ 23 % 2 ^ 8 = 0) && decide (c % 2 ^ 23 ≠ 0)) := rfl
  rw [hfields, Bool.and_eq_true, decide_eq_true_iff, decide_eq_true_iff]
  refine and_iff_left_of_imp fun he => ?_
  obtain ⟨-, hfrac, -⟩ := Val.fin.inj ((decodeF_f32_of_exponent_zero he).symm.trans h)
  rwa [hfrac]

/-- The class bit of a finite code. -/
theorem fclass_of_fin {c n d : Nat} {neg : Bool} (h : decodeF .f32 c = .fin neg n d) :
    fclass c = if n = 0 then (if neg then 3 else 4) else if c / 2 ^ 23 % 2 ^ 8 = 0 then (if neg then 2 else 5)
      else (if neg then 1 else 6) := by
  by_cases hn : n = 0
  · simp [fclass, h, hn]
  · simp only [fclass, h, hn, subnormal_f32_of_fin h hn, if_false]

/-- The bits of the classes are those of the table of R225. -/
theorem fclass_le (c : Nat) : fclass c ≤ 9 := by
  unfold fclass
  split <;> split_ifs <;> decide

/-! ### Integers in 32 bits -/

/-- A 32-bit word made of the low bits of an integer. -/
theorem toNat_wrap32 (i : Int) : ((BitVec.ofNat 32 (wrap 32 i)).toNat : Int) = i % 2 ^ 32 := by
  unfold wrap
  rw [BitVec.toNat_ofNat]
  omega

/-- An integer in range is the value of its low 32 bits. -/
theorem decodeI_wrap32 {f : Fmt} (hf : f = .i32 ∨ f = .u32) {i : Int} (hlo : (intRange f).1 ≤ i) (hhi : i ≤ (intRange f).2) :
    decodeI f (BitVec.ofNat 32 (wrap 32 i)).toNat = i := by
  have hi := toNat_wrap32 i
  rcases hf with rfl | rfl
  · simp only [intRange, fmtBits] at hlo hhi
    simp only [decodeI, signed]
    split <;> omega
  · simp only [intRange, fmtBits] at hlo hhi
    simp only [decodeI, fmtBits]
    omega

/-- SatInt stays in the range of its format. -/
theorem satInt_mem_range {f : Fmt} (hf : f = .i32 ∨ f = .u32) (i : Int) :
    (intRange f).1 ≤ satInt f i ∧ satInt f i ≤ (intRange f).2 := by
  have hne : (intRange f).1 ≤ (intRange f).2 := by rcases hf with rfl | rfl <;> decide
  exact ⟨le_max_left _ _, max_le hne (min_le_left _ _)⟩

/-! ### The sum of IDOT4 (R230) -/

/-- The format of C and D beside elements of format `t`. -/
def idotAcc (t : Fmt) : Fmt := if t = .i8 then .i32 else .u32

theorem idotAcc_cases (t : Fmt) : idotAcc t = .i32 ∨ idotAcc t = .u32 := by
  unfold idotAcc
  split
  · exact .inl rfl
  · exact .inr rfl

/-- Element `j` of a word of 8-bit elements (R142). -/
def byteElem (t : Fmt) (w : Word) (j : Nat) : Int := decodeI t (w.extractLsb' (8 * j) 8).toNat

/-- C plus the four products. -/
def idotSum (t : Fmt) (a b c : Word) : Int :=
  decodeI (idotAcc t) c.toNat + byteElem t a 0 * byteElem t b 0 + byteElem t a 1 * byteElem t b 1 +
    byteElem t a 2 * byteElem t b 2 + byteElem t a 3 * byteElem t b 3

/-- An 8-bit element reads the low byte of what is shifted down to it. -/
theorem decodeI_shifted {t : Fmt} (ht : t = .i8 ∨ t = .u8) (w : Word) (j : Nat) :
    decodeI t (w.toNat / 2 ^ (8 * j)) = byteElem t w j := by
  unfold byteElem
  rw [BitVec.extractLsb'_toNat, Nat.shiftRight_eq_div_pow]
  rcases ht with rfl | rfl
  · simp only [decodeI, signed, Nat.mod_mod]
  · simp only [decodeI, fmtBits, Nat.mod_mod]

/-- IDOT4 narrows the exact sum. -/
theorem idot4_eq {t : Fmt} (ht : t = .i8 ∨ t = .u8) (sat : Bool) (a b c : Word) :
    idot4 t sat a b c =
      BitVec.ofNat 32 (wrap 32 (if sat then satInt (idotAcc t) (idotSum t a b c) else idotSum t a b c)) := by
  have hsum : decodeI (idotAcc t) c.toNat + (List.range 4).foldl (fun n j => n + byteElem t a j * byteElem t b j) 0 =
      idotSum t a b c := by
    simp only [idotSum, List.range_succ, List.range_zero, List.nil_append, List.cons_append, List.foldl_cons, List.foldl_nil]
    ring
  rw [← hsum]
  simp only [idot4, decodeI_shifted ht]
  rfl

/-- With SAT the result is the nearest value of the range of D. -/
theorem decodeI_idot4_sat {t : Fmt} (ht : t = .i8 ∨ t = .u8) (a b c : Word) :
    decodeI (idotAcc t) (idot4 t true a b c).toNat = satInt (idotAcc t) (idotSum t a b c) := by
  obtain ⟨hlo, hhi⟩ := satInt_mem_range (idotAcc_cases t) (idotSum t a b c)
  rw [idot4_eq ht]
  exact decodeI_wrap32 (idotAcc_cases t) hlo hhi

/-- Without SAT the result is the sum's low 32 bits. -/
theorem idot4_mod {t : Fmt} (ht : t = .i8 ∨ t = .u8) (a b c : Word) :
    ((idot4 t false a b c).toNat : Int) % 2 ^ 32 = idotSum t a b c % 2 ^ 32 := by
  rw [idot4_eq ht, toNat_wrap32]
  exact Int.emod_emod _ _

/-- Settles O16: each of the two words writes one plain word to a lane, the bit of A's class, or the narrowed sum. -/
theorem fclassAndIdot4GiveTheirValues : Obligations.FclassAndIdot4GiveTheirValues := by
  unfold Obligations.FclassAndIdot4GiveTheirValues
  constructor
  · refine laneWord_plain _ exec_fclass (fun _ => rfl) (fun _ => by decide) (fun _ _ _ _ _ => rfl) fun x s w sl v l _ _ => ?_
    refine ⟨fclass (srcF s v .f32 x.a l 0), rfl, fclass_le _, ?_⟩
    generalize srcF s v .f32 x.a l 0 = c
    cases hc : decodeF .f32 c with
    | nan neg quiet pay => simp [fclass, hc]
    | inf neg => simp [fclass, hc]
    | fin neg n d =>
      rw [fclass_of_fin hc]
      dsimp only
      split_ifs <;> rfl
  · refine laneWord_plain _ exec_idot4 (fun _ => rfl) (fun _ => by decide) (fun _ _ _ _ _ => rfl) fun x s w sl v l ht _ => ?_
    refine ⟨idot4 x.ty (satOf x.md) (src s v x.a l) (src s v x.b l) (src s v x.c l), rfl, ?_⟩
    cases satOf x.md with
    | true => exact decodeI_idot4_sat ht _ _ _
    | false => exact idot4_mod ht _ _ _

end Sys2Proof.Laws
end
